-- ==== Sys2Proof/Word.lean ====
section
/-! DEFINITION. Word: the bit-vector types of the part (R7, R8): a byte, a 32-bit word, a 64-bit reel word or
tick value. No arithmetic beyond the core library's. -/
namespace Sys2Proof

/-- A byte is 8 bits (R7). -/
abbrev Byte := BitVec 8
/-- A word is 32 bits unless a chapter says otherwise (R7). -/
abbrev Word := BitVec 32
/-- 64 bits: the data of a reel word (R7), a flit (R115), a data block (R452). -/
abbrev DWord := BitVec 64
/-- A value of the 64-bit timebase, in ticks of 7.8125 ps (R264). -/
abbrev Tick := BitVec 64

end Sys2Proof
end

