-- ==== Sys2Proof/Syntax.lean ====
section
/-! DEFINITION. Syntax: the commands of the block, one constructor for each row of spec/opcode_table.json in the
table's order. Every operand is what the outside world (a host, a front end, the board, radiation, the passing of
time) decides; what the part decides itself is computed by the meanings. -/
namespace Sys2Proof

/-- One of the clocked islands of R377: its code (0x1–0x7) and its index. -/
structure Isl where
  code : Fin 8
  index : Fin 64
  deriving DecidableEq, Repr

/-- One crossing (R378): its island, its kind (0 bundle, 1 value, 2 pulse), its direction (`true`: out of the
island) and, where an island has several of one kind and direction, which of them (for a pin bank: the pin). -/
structure XId where
  isl : Isl
  kind : Fin 3
  out : Bool
  sub : Fin 128
  deriving DecidableEq, Repr

/-- Where a spool command comes from (R326): the SPL command registers of a host port, or an attachment of the spool
engine on the ply network. -/
inductive SplSrc
  | host (p : Fin 4)
  | attach (k : Fin 4)
  deriving DecidableEq, Repr

/-- Why a port leaves ACTIVE without being told to (R450). -/
inductive LossCause
  | signal | lock | align
  deriving DecidableEq, Repr

/-- The rails the part watches with an outcome of their own (R578), the banks' VIOB apart. -/
inductive Rail
  | vcfg | vaux | vmem | vcore | vlane
  deriving DecidableEq, Repr

/-- The bit that an upset flips: one of the 2,048 bits of a configuration frame or of the 13 of its code (R535), one of the 72 bits of a reel word (R347), one of
the 33 bits of a tile RAM word (R78, bit 32 is the parity bit), a bit of one copy of a triplicated field of the scrubber
(R542), or a bit of the second copy of the read or the write pointer of a hard queue, named by class and index (R394,
R399). -/
inductive UpsetAt
  | frame (f : Fin 167936) (bit : Fin 2061)
  | reel (word : Fin 67108864) (bit : Fin 72)
  | tileRam (tile : Fin 4096) (word : Fin 2048) (bit : Fin 33)
  | triple (index : Fin 256) (copy : Fin 3) (bit : Fin 32)
  | pointer (cls : Fin 10) (index : Fin 8192) (wr : Bool) (bit : Fin 8)
  deriving DecidableEq, Repr

/-- What a PMBus transaction of the governor brought back (R587): the write's acknowledge, the read's acknowledge and
the word read. -/
structure PmbResult where
  writeAck : Bool
  readAck : Bool
  word : BitVec 16
  deriving DecidableEq, Repr

/-- The commands of the block: one constructor for each row of the table of operations and events. -/
inductive Instr
  | registerWrite (port : Fin 4) (addr val : Word)
  | functionCellEvaluate (tile : Fin 4096) (cell : Fin 64)
  | mergeForward (tile : Fin 4096) (cell : Fin 64)
  | arbiterGrant (tile : Fin 4096) (cell : Fin 64) (tie : Bool)
  | sourceRefill (tile : Fin 4096) (cell : Fin 64)
  | sinkAcknowledge (tile : Fin 4096) (cell : Fin 64)
  | constantSelectRepeat (tile : Fin 4096) (sink : Fin 544)
  | ramPortOperation (tile : Fin 4096) (portB met : Bool)
  | railError (tile : Fin 4096) (sink : Fin 544)
  | macOperation (tile : Fin 4096) (unit : Fin 2)
  | queuePush (tile : Fin 4096) (q : Fin 2)
  | edgeCollision (tile : Fin 4096) (east : Bool) (wire : Fin 8)
  | queuePop (tile : Fin 4096) (q : Fin 2)
  | tileRamWindowRead (tile : Fin 4096) (met : Bool)
  | tileRamWindowWrite (tile : Fin 4096) (met : Bool)
  | plyTxPacket (tile : Fin 4096)
  | packetInjection (router : Fin 4096) (side : Fin 5) (vc : Bool) (dom : Fin 4)
  | flitAdvance (router : Fin 4096) (out : Fin 5)
  | rxDelivery (tile : Fin 4096)
  | holdQueueForward (router : Fin 4096) (side : Fin 5) (dom : Fin 4)
  | memGatewayRd (g : Fin 16) (k : Fin 4)
  | memGatewayWr (g : Fin 16) (k : Fin 4)
  | memGatewaySet (g : Fin 16) (k : Fin 4)
  | migrationDecision
  | memGatewayClr (g : Fin 16) (k : Fin 4)
  | instanceQuiescent
  | quiescenceTimeout
  | migrationCopyDone (badTile : Option (Fin 16))
  | sourceTilesCleared
  | policyEvaluation (temps : List Byte)
  | pin (port : Fin 4) (inst : BitVec 12)
  | unpin (port : Fin 4) (inst : BitVec 12)
  | migrate (port : Fin 4) (inst : BitVec 12)
  | retireTile (port : Fin 4)
  | unretire (port : Fin 4)
  | headerBlock (lane : Fin 64) (payload : DWord)
  | eventBlock (lane : Fin 64) (payload : DWord)
  | gapBlock (lane : Fin 64) (payload : DWord)
  | blockError (lane : Fin 64) (sync : BitVec 2) (payload : DWord)
  | trainBlock (lane : Fin 64) (payload : DWord)
  | idleBlock (lane : Fin 64) (payload : DWord)
  | blockLock (lane : Fin 64)
  | lockLost (lane : Fin 64) (silent : Fin 65)
  | syncLost (lane : Fin 64)
  | laneGatewaySend (lane : Fin 64)
  | spoolWrite (writer : Fin 64)
  | laneWriterTimeout (spool : Fin 2112)
  | trainingAttemptStart
  | trainingStepDone (feId feVersion : Word)
  | trainingStepLate (check : Option (Word × Word))
  | eyeSample (lane : Fin 64) (height width : Byte)
  | laneEnable (port : Fin 4) (lane : Fin 64)
  | laneDisable (port : Fin 4) (lane : Fin 64)
  | laneRetrain (port : Fin 4) (lane : Fin 64)
  | laneResetEnd (lane : Fin 64)
  | laneIslandReset (port : Fin 4) (lane : Fin 64)
  | feRead (port : Fin 4) (lane : Fin 64)
  | feWrite (port : Fin 4) (lane : Fin 64)
  | laneCfgWrite (port : Fin 4) (lane : Fin 64) (val : Word)
  | laneChEnWrite (port : Fin 4) (lane : Fin 64) (val : Word)
  | clrPeak (port : Fin 4) (ch : Fin 2048)
  | laneSubWrite (port : Fin 4) (ch : Fin 2048) (val : Word)
  | timebaseStart
  | tbrefStartTimeout
  | tbrefLost
  | tbrefBack
  | holdoverEnd
  | wrapNear
  | timebaseWrap
  | tbsyncPulse
  | commitTick
  | timebaseSnapshot
  | tbsyncEnWrite (port : Fin 4) (val : Word)
  | senseEdge (k : Fin 64) (rise : Bool) (time : Tick)
  | filterWindowClosed (k : Fin 64)
  | senseEventSend (k : Fin 64)
  | quadratureStep (q : Fin 16) (a b : Bool)
  | indexEdge (q : Fin 16)
  | qdSample (port : Fin 4) (q : Fin 16)
  | qdClear (port : Fin 4) (q : Fin 16)
  | qdSampleSend (q : Fin 16)
  | qdCfgWrite (port : Fin 4) (q : Fin 16) (val : Word)
  | senseSubWrite (port : Fin 4) (k : Fin 64) (val : Word)
  | timeNowRead (port : Fin 4)
  | qdLastCntRead (port : Fin 4) (q : Fin 16)
  | slotStart (src : SplSrc)
  | slotStop (src : SplSrc)
  | slotQuery (src : SplSrc)
  | markSet (src : SplSrc)
  | markClear (src : SplSrc)
  | markQuery (src : SplSrc)
  | spoolClose (spool : Fin 2112)
  | spoolQuery (src : SplSrc)
  | mtInsert (src : SplSrc)
  | mtLookup (src : SplSrc)
  | mtDelete (src : SplSrc)
  | exportStart (src : SplSrc)
  | exportStop (src : SplSrc)
  | slotPacketSend (spool : Fin 2112) (slotB : Bool)
  | resize (src : SplSrc)
  | slotFlushTimeout (spool : Fin 2112) (slotB : Bool)
  | exportPacketSend (spool : Fin 2112)
  | mtSweep
  | splWptrRead (port : Fin 4) (spool : Fin 2112)
  | splLiveRead (port : Fin 4) (spool : Fin 2112)
  | reelWordAccess (g bank : Fin 16)
  | correctedWriteBack (g bank : Fin 16)
  | memoryInitDone
  | regionTestStart
  | regionTestEnd (fail : Bool)
  | bankTestStart (port : Fin 4) (g bank : Fin 16)
  | bankTestStop (port : Fin 4)
  | bankTestRegionTimer
  | memCtlWrite (port : Fin 4) (val : Word)
  | groupWakeDone (g : Fin 16)
  | groupIdleTimeout (g : Fin 16)
  | memConfRead (port : Fin 4) (m : Fin 88)
  | bundleEntryTaken (router : Fin 4096) (side : Fin 5)
  | xingUnstable (x : XId)
  | pulseArrival (x : XId)
  | pulseDeliveryDone (x : XId)
  | islandClockStop (i : Isl)
  | wakeRequest (i : Isl)
  | crossingPresent (i : Isl)
  | functionSwitch (port : Fin 4) (pin : Fin 384) (val : Word)
  | pinBankCfgWrite (port : Fin 4) (b : Fin 8) (val : Word)
  | viobFault (b : Fin 8)
  | viobRestore (b : Fin 8)
  | pinLevelAccept (pin : Fin 384) (level : Bool)
  | pinWakeEvent (pin : Fin 384) (level : Bool)
  | pinEvtWrite (port : Fin 4) (pin : Fin 384) (val : Word)
  | pinArm (port : Fin 4) (pin : Fin 384)
  | pinPendClear (port : Fin 4) (b : Fin 8) (hi : Bool) (val : Word)
  | pinEventSend (pin : Fin 384)
  | pinOutWrite (port : Fin 4) (b : Fin 8) (hi : Bool) (val : Word)
  | gatewayPinsRead (b : Fin 8) (dom : Fin 4)
  | pinSet (port : Fin 4) (b : Fin 8) (hi : Bool) (val : Word)
  | gatewayPinsWrite (b : Fin 8) (dom : Fin 4)
  | pinClr (port : Fin 4) (b : Fin 8) (hi : Bool) (val : Word)
  | gatewayOeRead (b : Fin 8) (dom : Fin 4)
  | pinTgl (port : Fin 4) (b : Fin 8) (hi : Bool) (val : Word)
  | gatewayOeWrite (b : Fin 8) (dom : Fin 4)
  | pinDirWrite (port : Fin 4) (b : Fin 8) (hi : Bool) (val : Word)
  | gatewayRearm (b : Fin 8) (dom : Fin 4)
  | pwmPeriodBoundary (c : Fin 16)
  | gatewayPwmRead (b : Fin 8) (dom : Fin 4)
  | gatewayPwmWrite (b : Fin 8) (dom : Fin 4)
  | gatewaySpiRead (b : Fin 8) (dom : Fin 4)
  | pwmCfgWrite (port : Fin 4) (c : Fin 16) (val : Word)
  | gatewaySpiWrite (b : Fin 8) (dom : Fin 4)
  | gatewayI2cRead (b : Fin 8) (dom : Fin 4)
  | gatewayI2cWrite (b : Fin 8) (dom : Fin 4)
  | pwmDutyWrite (port : Fin 4) (c : Fin 16) (val : Word)
  | pwmPeriodWrite (port : Fin 4) (c : Fin 16) (val : Word)
  | spiTransferEnd (u : Fin 8) (rx : List Byte)
  | spiTransferStart (port : Fin 4) (u : Fin 8) (val : Word)
  | i2cTransferStart (port : Fin 4) (u : Fin 4) (val : Word)
  | i2cTransferEnd (u : Fin 4) (cause : BitVec 4) (xferred : BitVec 6) (rx : List Byte)
  | stretchTimeout (u : Fin 4) (xferred : BitVec 6)
  | linkTrainingStep (p : Fin 4)
  | trainTimeout (p : Fin 4)
  | trainRetry (p : Fin 4)
  | linkDown (p : Fin 4) (cause : LossCause)
  | hostTrain (p : Fin 4) (ack : Bool)
  | alignBlock (p lane : Fin 4)
  | hostRd (p : Fin 4) (seq : BitVec 12) (tag : Byte) (words : List DWord)
  | hostPly (p : Fin 4) (seq : BitVec 12) (tag : Byte) (arg : BitVec 16) (words : List Word)
  | hostWr (p : Fin 4) (seq : BitVec 12) (tag : Byte) (words : List DWord)
  | packetCrcError (p : Fin 4)
  | linkAck (p : Fin 4) (seq : BitVec 12)
  | linkNak (p : Fin 4) (seq : BitVec 12)
  | linkCredit (p : Fin 4) (cls : BitVec 4) (count : BitVec 16)
  | replayTimeout (p : Fin 4)
  | rspSend (p : Fin 4)
  | mbxSend (p : Fin 4)
  | ntfSend (p : Fin 4)
  | packetLayerTimeout (p : Fin 4)
  | ntfRptrWrite (port : Fin 4) (val : Word)
  | batchDataWrite (port : Fin 4) (val : Word)
  | commit (port : Fin 4)
  | commitAt (port : Fin 4)
  | discard (port : Fin 4)
  | batchCheckDone (port : Fin 4)
  | portRetrain (port target : Fin 4)
  | portIslandReset (port target : Fin 4)
  | portResetEnd (p : Fin 4)
  | domainReset (port dom : Fin 4)
  | flashReadDone (words : List Word) (dqs : Bool)
  | cfgStreamWrite (port : Fin 4) (val : Word)
  | wreg
  | skein
  | inst
  | dirEnd
  | placementComplete
  | framesP
  | framesL
  | skeinFrames
  | region
  | keywrap
  | epoch
  | nextkey
  | endCheck
  | signature
  | ioRelease
  | startFull (port : Fin 4)
  | startPartial (port : Fin 4)
  | abort (port : Fin 4)
  | clearRegion (port : Fin 4)
  | streamLost
  | regionRelease
  | chainInputTimeout
  | chainSync
  | scrubFrameRead
  | tripleVote
  | tileTestStart
  | tileTestEnd (failUnit : BitVec 4)
  | tileTest (port : Fin 4) (val : Word)
  | fuseRetire (port : Fin 4) (val : Word)
  | fuseProgramDone
  | takeOwnership (port : Fin 4) (val : Word)
  | programSlot (port : Fin 4) (val : Word)
  | revokeSlot (port : Fin 4) (val : Word)
  | attest (port : Fin 4)
  | seal (port : Fin 4) (val : Word)
  | advanceRollback (port : Fin 4) (val : Word)
  | signHead (port : Fin 4)
  | reportDone
  | ledgerAckWrite (port : Fin 4) (val : Word)
  | recSelWrite (port : Fin 4) (val : Word)
  | ledgerSeqRead (port : Fin 4)
  | doze (port : Fin 4)
  | park (port : Fin 4)
  | wake (port : Fin 4)
  | powerEntryProceed
  | wakeTimer
  | thermalRelease
  | thermTrip (region : Fin 64) (temp : Byte)
  | wakeComplete
  | governorPeriod (temps : List Byte) (cong : Fin 101) (pmb : PmbResult)
  | pmbAlert (ack : Bool) (status : BitVec 16)
  | pwrVlimWrite (port : Fin 4) (val : Word)
  | pwrThermWrite (port : Fin 4) (val : Word)
  | pwrWakeAtWrite (port : Fin 4) (val : Word)
  | powerOnReset
  | sysLockWrite (port : Fin 4) (val : Word)
  | fullReset
  | sysResetFull (port : Fin 4) (val : Word) (mode : BitVec 2) (pulldef : Byte)
  | sysResetFabric (port : Fin 4) (val : Word)
  | railBrownout (rail : Rail)
  | obsCntSrcWrite (port : Fin 4) (k : Fin 512) (val : Word)
  | obsProbeSrcWrite (port : Fin 4) (j : Fin 16) (val : Word)
  | snap (port : Fin 4)
  | tallyRead
  | probeRecord (j : Fin 16) (data : Word) (time : Tick)
  | traceWrite
  | obsCntRead (port : Fin 4) (k : Fin 512)
  | counterRead (dom : Fin 4)
  | idcode
  | samplePreload (balls : BitVec 1263)
  | bypass (code : BitVec 4)
  | testLogicReset
  | mailboxArrival (p : Fin 4) (k : Fin 2)
  | chainInputWord (val : Word)
  | laneCmdComplete (port : Fin 4) (data : Word)
  | evacuationCapRelease
  | upset (u : UpsetAt)
  | porstNDeasserted (mode : BitVec 2) (pulldef : Byte)
  | rstNDeasserted (mode : BitVec 2) (pulldef : Byte)
  | vfuseLost
  deriving DecidableEq, Repr

end Sys2Proof
end

