-- ==== Sys2Proof/Decode.lean ====
section
/-! DEFINITION. Decode: the commands of this block reach it as commands; no row of spec/opcode_table.json gives bits
(every row's "fields" is empty), so no word spells a command. -/
namespace Sys2Proof

/-- The command that a word spells by the bits of the table: none, since the table gives no row any bits. -/
def decodeTableWord (_nbits _w : Nat) : Option Instr := none

end Sys2Proof
end

