-- ==== Sys2Proof/Config.lean ====
section
/-! DEFINITION. Config: what the spec leaves open. Each constant has no body, so nothing can be proved of its value: a
statement about the machine holds for every choice. -/
namespace Sys2Proof.Config

/-- The free values, numbered by the counter `fresh` of the state (notes/assumptions/4.md). -/
opaque freeValue : Nat → BitVec 64

/-- SYS_ID.STEP, the mask step of the part (R599). -/
opaque maskStep : Byte

/-- The two primes of the fused identity key, an RSA-3072 key with public exponent 65,537 (R553, R567). -/
opaque identityPrime : Bool → Nat

/-- The 32 bytes of the key-encryption key that a fuse holds (R512). -/
opaque fuseKek : Nat → Byte

/-- The number by which notification `c` (the first argument) gives the `k`-th of the things that the spec lists for one of its
items by name alone: the cause of SYS_FABRIC_RESET (0 command, 1 brownout), the rail of SYS_BROWNOUT (0 VCORE), the cause of
PWR_SHORTFALL (0 THERMAL, 1 CEILING). -/
opaque itemCode : Nat → Nat → Word

end Sys2Proof.Config
end

