-- ==== Sys2Proof/Machine/Flags.lean ====
section
/-! DEFINITION. Flags: completion statuses (R22) and the codes of notifications (R24 and the chapters' tables). -/
namespace Sys2Proof.Machine

/-- A completion status (R22). -/
abbrev Status := BitVec 4
/-- The operation was performed in full. -/
def stOk : Status := 0
/-- The requester lacks authority. -/
def stDenied : Status := 1
/-- Address, index or length outside what the target holds. -/
def stRange : Status := 2
/-- The target is in use; nothing was started. -/
def stBusy : Status := 3
/-- The named position has been overwritten by capture. -/
def stLapped : Status := 4
/-- The target region is frozen by an incomplete load. -/
def stTorn : Status := 5
/-- The target found an error it could not correct. -/
def stFault : Status := 6
/-- Not implemented by the target. -/
def stUnsupported : Status := 7
/-- A state or generation that no longer holds. -/
def stStale : Status := 8

/-- The first status of a list that is not OK; OK where there is none. -/
def firstBad : List Status → Status
  | [] => stOk
  | x :: t => if x = stOk then firstBad t else x

/-- The zero flag of a 48-bit accumulator and the like: whether a bit vector is zero. -/
def isZero {n : Nat} (x : BitVec n) : Bool := x == 0

end Sys2Proof.Machine
end

