-- ==== Sys2Proof/Machine/NMap.lean ====
section
/-! DEFINITION. NMap: sparse data by key, as a list of key and value pairs in one canonical form: keys strictly
rising, no entry equal to the default. Every big table of the machine (registers, configuration words, tiles, lanes,
spools) is one of these, so that equal tables are equal data. -/
namespace Sys2Proof.Machine

/-- A sparse map from numbers. -/
abbrev NMap (α : Type) := List (Nat × α)

/-- The entry at `k`, if there is one. -/
def NMap.find {α : Type} : NMap α → Nat → Option α
  | [], _ => none
  | (a, w) :: t, k => if k = a then some w else NMap.find t k

/-- The value at `k`; `d` where nothing is listed. -/
def NMap.get {α : Type} (d : α) (m : NMap α) (k : Nat) : α := (m.find k).getD d

/-- Put `v` at `k`, at its place in the rising order. -/
def NMap.put {α : Type} : NMap α → Nat → α → NMap α
  | [], k, v => [(k, v)]
  | (a, w) :: t, k, v =>
    if k = a then (k, v) :: t
    else if k < a then (k, v) :: (a, w) :: t
    else (a, w) :: NMap.put t k v

/-- Drop the entry at `k`. -/
def NMap.erase {α : Type} (m : NMap α) (k : Nat) : NMap α := m.filter (fun e => e.1 != k)

/-- Write `v` at `k`: writing the default removes the entry. -/
def NMap.set {α : Type} [DecidableEq α] (d : α) (m : NMap α) (k : Nat) (v : α) : NMap α :=
  if v = d then m.erase k else m.put k v

/-- Change the value at `k` by `f`. -/
def NMap.modify {α : Type} [DecidableEq α] (d : α) (m : NMap α) (k : Nat) (f : α → α) : NMap α :=
  m.set d k (f (m.get d k))

/-- Keys strictly rising. -/
def NMap.sorted {α : Type} : NMap α → Bool
  | [] => true
  | [_] => true
  | (a, _) :: (b, w) :: t => decide (a < b) && NMap.sorted ((b, w) :: t)

/-- The canonical form. -/
def NMap.wf {α : Type} [DecidableEq α] (d : α) (m : NMap α) : Bool :=
  m.sorted && m.all (fun e => decide (e.2 ≠ d))

/-- A set of numbers, as a strictly rising list. -/
def insertNat : Nat → List Nat → List Nat
  | k, [] => [k]
  | k, a :: t => if k = a then a :: t else if k < a then k :: a :: t else a :: insertNat k t

/-- Remove a number from a set. -/
def removeNat (k : Nat) (l : List Nat) : List Nat := l.filter (fun a => a != k)

/-- Add or remove. -/
def putNat (k : Nat) (b : Bool) (l : List Nat) : List Nat := if b then insertNat k l else removeNat k l

/-- Strictly rising. -/
def sortedNat : List Nat → Bool
  | [] => true
  | [_] => true
  | a :: b :: t => decide (a < b) && sortedNat (b :: t)

end Sys2Proof.Machine
end

