-- ==== Sys2Proof/Machine/Types.lean ====
section
/-! DEFINITION. Types: the plain records of which State is made, chapter by chapter of the spec. No function stands
here: what the records do is in Ops.lean and the family files. Numbers that the spec never adds bit by bit (indexes,
depths, offsets) are naturals; contents of registers, packets and counters that wrap are bit vectors. -/
namespace Sys2Proof.Machine

/-! ## Hard queues and packets -/

/-- A hard queue with its two copies of each pointer (R399) and its overrun bit (R395, R397). -/
structure HQ (α : Type) where
  items : List α
  rd : Nat
  rd2 : Nat
  wr : Nat
  wr2 : Nat
  ovr : Bool
  deriving DecidableEq, Repr

/-- An empty queue, both copies of each pointer equal. -/
def HQ.empty {α : Type} : HQ α := { items := [], rd := 0, rd2 := 0, wr := 0, wr2 := 0, ovr := false }

/-- What a refusal knows of the packet it refuses (R143): whether that packet was one without a response (MSG, WRP), and the
number of the refusal, counted from the first. -/
structure Refuse where
  posted : Bool
  num : Nat
  deriving DecidableEq, Repr

/-- What the next event delivered from a channel must say (R231, R233): whether a gap notice was written before it, and how
many events were missed before it, with the time of the first. Of a slot's packet, the number of its run. -/
structure Report where
  gap : Bool := false
  miss : Nat := 0
  first : Tick := 0
  run : Nat := 0
  deriving DecidableEq, Repr

/-- A ply packet: the header word's fields (R121), the route word's fields (R122) and the payload words; beside them, which
no word carries, what a refusal refuses, and of an event packet what it reports (R231), which its gateway takes back where the
packet is not delivered, or of a slot's packet its run (R311), of a response the flits that its request has
reserved (R127), and the number of its arrival at an attachment. -/
structure Packet where
  dest : BitVec 16
  slot : BitVec 5
  op : BitVec 4
  tag : BitVec 7
  src : BitVec 16
  status : BitVec 4
  dom : Fin 4
  vc : Bool
  words : List Word
  isSeal : Bool := false
  refuses : Option Refuse := none
  rep : Report := { }
  room : Nat := 0
  seq : Nat := 0
  deriving DecidableEq, Repr

/-- A flit on its way (R123): its 64 bits; its place in its packet, 0 for the header flit; whether it is the last; the
exit port (5 × router + side) that the translation step gave its packet (R132, R164), its sender (R122), what its packet
refuses, the flits reserved for it and, in the flit after the header, what its packet reports, which the routers carry beside it. -/
structure Flit where
  bits : DWord
  idx : Nat
  tail : Bool
  exit : Nat
  src : BitVec 16
  refuses : Option Refuse := none
  rep : Report := { }
  room : Nat := 0
  deriving DecidableEq, Repr

/-- One lane of an input port of a router (R133): its flits (at most 8) and, at an injection port, the flits of the
packet now entering it and the assembled packets that wait behind it. -/
structure PLane where
  flits : List Flit
  rest : List Flit
  out : List Packet
  deriving DecidableEq, Repr

/-- The arbitration of an output port (R134): the VC served last, the turns each domain has left in the round of
each VC, the packet in progress (lane number → 8 × (65,536 × its exit + its sender) + its input port), the input port
served last, and the flit times busy and the flit times held since the last TBSYNC value (R608). -/
structure OutArb where
  lastVc : Bool
  left : NMap Nat
  cur : NMap Nat
  last : NMap Nat
  busy : Nat
  held : Nat
  deriving DecidableEq, Repr

/-- A hold queue (R139): the parked packets in order, and the VC of the packet that waits for room in it, behind which the
port's later packets of its domain wait (R141 counts a filling once). -/
structure HoldQ where
  pkts : List Packet
  wait : Option Bool
  deriving DecidableEq, Repr

/-- A flit in the bundle ring of an endpoint attachment (R379), with its VC and domain. -/
structure RingEnt where
  flit : Flit
  vc : Bool
  dom : Fin 4
  deriving DecidableEq, Repr

/-- Space reserved for a response (R127): the request's destination, slot and tag, and the flits reserved. -/
structure Resv where
  dest : BitVec 16
  slot : BitVec 5
  tag : BitVec 7
  flits : Nat
  deriving DecidableEq, Repr

/-- The ply network and its ports. Keys: lanes ((5r + side) × 2 + vc) × 4 + dom; output ports, rings 5r + side; hold
queues (5r + side) × 4 + dom, of a local port 4 × (5r + 4); `refusals` counts the refusals recorded, `arrivals` the packets that have reached attachments; assembly and inboxes ((5r + side) × 2 + vc) × 4 + dom. -/
structure PlySt where
  lanes : NMap PLane
  outs : NMap OutArb
  hold : NMap HoldQ
  ring : NMap (List RingEnt)
  asm : NMap (List Flit)
  inbox : NMap (List Packet)
  epRound : NMap Nat
  util : NMap Nat
  utilMax : Word
  refusals : Nat
  arrivals : Nat
  deriving DecidableEq, Repr

/-! ## Tiles -/

/-- A packet being delivered on RX (R126): the packet and the index of the next word (0: the arrival word). -/
structure RxCur where
  pkt : Packet
  idx : Nat
  deriving DecidableEq, Repr

/-- A window operation in progress (R74): the request, the next word and the words read so far. -/
structure WinCur where
  pkt : Packet
  idx : Nat
  acc : List Word
  deriving DecidableEq, Repr

/-- The ply interface of a tile (R72, R125–R127). -/
structure TileIf where
  txWords : List Word
  txOver : Bool
  reqBuf : List Packet
  respBuf : List (Packet × Bool)
  resv : List Resv
  rx : Option RxCur
  win : Option WinCur
  deriving DecidableEq, Repr

/-- The user state of one physical tile (R173 lists it): cell latches; sinks whose acknowledge is high; constant
sinks that are null and wait to present again; sinks that see a rail error; the arbiters' last grants, the inputs of arbiter cells whose request came before the
other's and those whose request has waited (R56), and the merge cells that owe input 1; hard-block result latches by source slot; tile RAM and the words with bad parity;
accumulators; queues with the flag that the head has been presented; the last grant of RAM port B, the requesters of the RAM
(0 port A, 1 port B, 2 the window) in the order in which their bundles became complete, those of one step together (R75), and those of
port B that waited while the other was served (R76); the ply interface; and the W1C bits and RAM error record of R99 and R100. -/
structure TileSt where
  latch : NMap Bool
  ack : List Nat
  constIdle : List Nat
  railBad : List Nat
  lastGrant : NMap Bool
  arbFirst : List Nat
  arbWait : List Nat
  mergeOwe : List Nat
  hbOut : NMap Bool
  ram : NMap Word
  ramBad : List Nat
  acc0 : BitVec 48
  acc1 : BitVec 48
  q0 : HQ (BitVec 36)
  q1 : HQ (BitVec 36)
  shown0 : Bool
  shown1 : Bool
  bLastWin : Bool
  ramOrder : List (List Nat)
  ramLong : List Nat
  ifc : TileIf
  ramPerr : Bool
  railErr : Bool
  mergeBoth : Bool
  ramErr : Option (BitVec 11)
  deriving DecidableEq, Repr

/-- The fabric: configuration memory (nonzero words by 64 f + w), the flipped bits of frames (by f; 2,048 and above are bits
of the code), the user state of tiles (by physical index 64 c + r), the held edge wires, those held in the pass now
under way with one above its place then (R84), and the freeze state (R88). -/
structure FabSt where
  cfg : NMap Word
  cfgErr : NMap (List Nat)
  tiles : NMap TileSt
  held : List Nat
  heldSince : NMap Nat
  frozen : Bool
  released : Bool
  deriving DecidableEq, Repr

/-! ## Distaff -/

/-- An instance (R162, R203–R205). -/
structure Inst where
  base : Nat
  skein : Nat
  w : Nat
  h : Nat
  col : Nat
  row : Nat
  pinned : Bool
  unmovable : Bool
  nomove : Bool
  pressure : Bool
  failing : Bool
  damaged : Bool
  hintKind : BitVec 2
  hint : BitVec 16
  params : List Word
  lastReason : BitVec 4
  migrations : Nat
  p : Nat
  theta : Nat
  eta : Nat
  prevEta : Nat
  seen : Nat
  hopSum : Nat
  hopCnt : Nat
  peers : NMap Nat
  kept : NMap Nat
  keptCnt : Nat
  deriving DecidableEq, Repr

/-- The migration now running (R172): the step reached is 0 (decided), 2 (fenced), 4 (copying), 6 (committed). -/
structure Mig where
  base : Nat
  reason : BitVec 4
  step : Nat
  col : Nat
  row : Nat
  oldCol : Nat
  oldRow : Nat
  start : Tick
  port : Option (Fin 4)
  pinAfter : Option Bool
  test : Option Nat
  deriving DecidableEq, Repr

/-- An entry of the runtime retirement list (R188), with its cause as SCRUB_RET_ENTRY encodes it; of a failing tile that waits,
what has been raised of it: 1 DST_NO_ROOM, 2 DST_FAILING_STUCK. -/
structure RetEnt where
  tile : Nat
  cause : BitVec 3
  told : BitVec 2 := 0
  deriving DecidableEq, Repr

/-- A tile test in progress (R546, R547). -/
structure TileTestSt where
  tile : Nat
  requested : Bool
  fromList : Bool
  deriving DecidableEq, Repr

/-- Distaff: instances in ascending base order, tile map in the layout of R163, runtime retirements, the migration,
the failing tiles that wait, the start ticks of migrations and swaps in the cap windows (R185, R190), the sensor
readings, the swap bookkeeping per group (R190) and the tile tester. -/
structure DstSt where
  insts : List Inst
  map : NMap Word
  retRt : List RetEnt
  mig : Option Mig
  failing : List RetEnt
  capTimes : List Tick
  swapTimes : List Tick
  temps : List Byte
  grpAcc : NMap Nat
  grpStall : NMap Nat
  lastStall : NMap Nat
  hot : List Nat
  swapAge : Nat
  test : Option TileTestSt
  testPos : Nat
  testAt : Option Tick
  deriving DecidableEq, Repr

/-! ## Lanes -/

/-- An event in a channel queue or sense queue (R230, R278), with what its packet reports of the time before it. -/
structure ChEnt where
  time : Tick
  kind : BitVec 2
  order : Bool
  rep : Report := { }
  deriving DecidableEq, Repr

/-- A channel (0–2047) or a sense pin (2048–2111): its queue; the time of its last accepted event; what the next event
entered in its queue reports; whether LANE_MISSED has been raised since the queue filled (R230); the time of its last
delivered event; its peak depth. -/
structure ChanSt where
  q : HQ ChEnt
  lastTime : Option Tick
  pend : Report
  told : Bool
  lastDel : Tick
  peak : Nat
  deriving DecidableEq, Repr

/-- A record on its way to a lane writer: an event of a spool, or a GAP record. -/
inductive WRec
  | event (spool : Nat) (time : Tick) (kind : BitVec 2) (order : Bool)
  | gap (spool : Nat) (cause : BitVec 4) (unknown : Bool) (start stop : Tick) (lost : Nat)
  deriving DecidableEq, Repr

/-- The record that a lane writer is writing: its spool, the words still to go (padding and an anchor before it included),
the running time after it, and whether it is a GAP record. -/
structure WCur where
  spool : Nat
  words : List Word
  run : Tick
  gap : Bool
  deriving DecidableEq, Repr

/-- A lane: its descrambler, block lock, frame and correction state, its training state; `loadPulse` the TBSYNC edge that
loads the front end's counter (R222), `spiSel` the SPI_CTL and SPI_CS that the last training latched (R254), `feOut` the
values that the part last wrote to the front end, by address (R242). Of its writer: the ingest queue, one entry for each block
that brought records (R394); the spool buffer; the record being written; and whether a bank has granted its next word a
slot (R353). -/
structure LaneSt where
  scr : BitVec 58
  state : BitVec 4
  step : BitVec 4
  cause : BitVec 4
  attempt : BitVec 4
  failStep : BitVec 4
  eyeLow : Bool
  syncRange : Bool
  syncLost : Bool
  lock : Bool
  cdr : Bool
  good : Nat
  errs : List Bool
  skip : Bool
  frame : Option Tick
  lostFrame : Bool
  lastBase : Option Tick
  events : Nat
  trains : Nat
  corr : BitVec 13
  echo : BitVec 13
  seq : BitVec 3
  echoes : List Nat
  noEcho : Nat
  loadPulse : Option Nat
  eyeBadH : Nat
  eyeBadW : Nat
  eyeGood : Nat
  trained : Bool
  turn : Nat
  spiSel : Option (BitVec 6)
  feOut : NMap Word
  wq : HQ (List WRec)
  wbuf : List WRec
  cur : Option WCur
  slot : Bool
  deriving DecidableEq, Repr

/-- An FE_READ, FE_WRITE or DISABLE transaction in progress for a port (R252), with the address and the data it carries. -/
structure FeTxn where
  lane : Nat
  op : BitVec 4
  addr : Nat
  data : Word
  deriving DecidableEq, Repr

/-! ## Spools -/

/-- An open gap notice (R235). `active` are the causes that have begun and not ended. -/
structure GapSt where
  cause : BitVec 4
  start : Tick
  lost : Nat
  unknown : Bool
  active : List Nat
  deriving DecidableEq, Repr

/-- A spool command (R322, R325): its domain, its words, and the packet that brought it, none for a host
port's. -/
structure SplCmd where
  dom : Fin 4
  words : List Word
  pkt : Option Packet
  deriving DecidableEq, Repr

/-- A SLOT_STOP that waits for the LAST packet of a run to land (R311): the number of the run, the position at the stop, the
command. -/
structure StopSt where
  run : Nat
  pos : Nat
  cmd : SplCmd
  deriving DecidableEq, Repr

/-- Reader slot A or B (R306–R311), or the state word of C and D. `syn` is what its next packet says first: 1 a synthetic
TIME, 2 a synthetic GAP; `sent` are its packets on their way (gateway; 0 assembled, 1 injected, 2 parked) and `seg` the
64 KiB segment of the last one; `ready` is when PACE lets it send; `runs` numbers the runs, `stops` are the SLOT_STOPs that
wait. -/
structure SlotSt where
  state : BitVec 4
  last : BitVec 4
  laps : Nat
  pos : Nat
  run : Tick
  follow : Bool
  endTime : Bool
  stop : Nat
  pace : Nat
  slot : BitVec 5
  tile : BitVec 12
  syn : BitVec 2
  ready : Tick
  seg : Nat
  sent : List (Nat × Nat)
  runs : Nat
  stops : List StopSt
  deriving DecidableEq, Repr

/-- An export through slot C (R315, R470). `seg` is the first offset of the open ledger entry and `bytes` what has been
hashed of it; `skip` the bytes that a lap left out; `closing` a closed entry that waits for its record; `final` the status of an
export that has ended, until its LAST packet is sent. -/
structure ExpSt where
  port : Fin 4
  follow : Bool
  endTime : Bool
  stop : Nat
  hash : Bool
  run : Tick
  seg : Option Nat
  bytes : List Byte
  lapped : Bool
  sent : Nat
  skip : Option (Nat × Nat)
  closing : Option (List Word)
  final : Option (BitVec 4)
  deriving DecidableEq, Repr

/-- A segment swap in progress (R190): the segment's index, its old position O, its new position U, and the offset
at which the writer entered U. -/
structure SwapSt where
  seg : Nat
  old : Nat
  new : Nat
  since : Nat
  deriving DecidableEq, Repr

/-- A spool: its size and the positions of its segments (64 KiB units), W, START, the running
time of the last record written and the time of the last event accepted (R235), the record word that waits for its other half (R345), marks, slots, export, gap notice, swap and resize. -/
structure SpoolSt where
  size : Nat
  segs : List Nat
  w : Nat
  start : Nat
  run : Tick
  acc : Tick
  half : Option Word
  marks : NMap (Nat × Tick)
  slots : NMap SlotSt
  exp : Option ExpSt
  gap : Option GapSt
  swap : Option SwapSt
  resizing : Option (Nat × SplCmd)
  deriving DecidableEq, Repr

/-- A spool command that has arrived and not been executed (R326): its source, an attachment 0–3 or 4 + the host port, and the
time of its arrival. -/
structure SplArr where
  src : Nat
  time : Tick
  cmd : SplCmd
  deriving DecidableEq, Repr

/-- The spool engine. Spools by number; the commands in the order of R326; the sweep position. -/
structure SplSt where
  spools : NMap SpoolSt
  queue : List SplArr
  sweep : Nat
  segWrites : NMap Nat
  deriving DecidableEq, Repr

/-! ## Reel memory -/

/-- What a reel word request does (R344): read; write the bytes of a mask; set or clear the bits of the bytes. -/
inductive MemKind
  | rd | wr | set | clr
  deriving DecidableEq, Repr

/-- Who an operation answers to: a ply request at an attachment, a host request with the TAG of its RSP (none where a reset discards
that, R476), or the notification queue of a port (R468). -/
inductive MemSrc
  | ply (pkt : Packet) (exit : Nat)
  | host (p : Fin 4) (tag : Option Byte)
  | notice (p : Nat)
  deriving DecidableEq, Repr

/-- One reel word request at a bank (R342, R352): the operation it belongs to, its word address (address >> 3), the
bytes it writes (mask) and their data. -/
structure WordReq where
  op : Nat
  word : Nat
  mask : Byte
  data : DWord
  deriving DecidableEq, Repr

/-- A memory operation in progress: what is left to do, the words read so far (by word address), its status,
and whether a reset discards its response (R146). -/
structure MemOp where
  kind : MemKind
  master : Nat
  dom : Fin 4
  src : MemSrc
  addr : Nat
  count : Nat
  left : Nat
  got : NMap DWord
  status : BitVec 4
  refused : Bool
  drop : Bool := false
  deriving DecidableEq, Repr

/-- The two copies of the pointers of a bank queue of one master and class (R352, R399). -/
structure QPtr where
  rd : Nat
  rd2 : Nat
  wr : Nat
  wr2 : Nat
  deriving DecidableEq, Repr

/-- A bank (R353): its waiting requests with their master and class (0 system, 1 + d domain d), the pointers of their
queues (key 8 × master + class), whether capture took the previous slot, the turns left in the round and those that a class
has had in advance (R356), and the masters served last by class (5: capture). -/
structure BankSt where
  reqs : List (WordReq × Nat × Nat)
  ptrs : NMap QPtr
  lastCapture : Bool
  left : NMap Nat
  debt : NMap Nat
  lastMaster : NMap Nat
  deriving DecidableEq, Repr

/-- A region test in progress (R357): its group, bank and region, whether the bank test that now runs requested it, and the
index within the test of the bank's next slot. -/
structure RegionTest where
  group : Nat
  bank : Nat
  region : Nat
  requested : Bool
  slot : Nat
  deriving DecidableEq, Repr

/-- The requested bank test (R362). -/
structure BankTest where
  group : Nat
  bank : Nat
  next : Nat
  fails : Nat
  done : Nat
  deriving DecidableEq, Repr

/-- Reel memory beside its bytes: flipped bits by word, operations and banks, corrected words waiting for their
write-back by bank, tests, retention and repairs (`woken`: the groups asked into retention that an access has woken,
R364), conflict counters by master (R354). -/
structure MemSt where
  initDone : Bool
  err : NMap (List Nat)
  ops : NMap MemOp
  nextOp : Nat
  banks : NMap BankSt
  fixq : NMap (List Nat)
  test : Option RegionTest
  bgNext : Nat
  bankTest : Option BankTest
  ret : List Nat
  waking : List Nat
  woken : List Nat
  lastUse : NMap Tick
  spares : NMap Nat
  repaired : NMap (List Nat)
  vret : Bool
  conf : NMap (BitVec 48)
  deriving DecidableEq, Repr

/-! ## Crossings -/

/-- A crossing (R378): a pulse crossing's delivery and pending count and overrun flag (R386, R387); a value
crossing's run of disagreement (R384); absence after a peer reset (R392); the words that a value crossing's reader accepted
last, while it disagrees or is absent (R382, R385). -/
structure XingSt where
  busy : Bool
  pending : Nat
  overrun : Bool
  unstable : Bool
  absent : Bool
  last : List Word := []
  deriving DecidableEq, Repr

/-- The crossings by key and the islands whose clock is stopped (R389), each as 64 × code + index. -/
structure XngSt where
  xings : NMap XingSt
  stopped : List Nat
  deriving DecidableEq, Repr

/-! ## Pins -/

/-- A general-purpose pin: its accepted level; its detector's arming; its output value and enable now; the fabric
output latch and enable (F1); switching, conflict, and the flags of its event delivery (R425). -/
structure PinSt where
  level : Bool
  armed : Bool
  out : Bool
  oe : Bool
  fabOut : Bool
  fabOe : Bool
  conflict : Bool
  ovr : Bool
  evLevel : Bool
  resample : Bool
  pulses : Nat
  oldEvts : List Word
  park : Option (BitVec 2)
  deriving DecidableEq, Repr

/-- A PWM channel: the period and duty in force, the shadows, and whether they wait (R432). -/
structure PwmSt where
  period : BitVec 24
  duty : BitVec 24
  pending : Bool
  running : Bool
  waitTbsync : Bool
  start : Tick
  deriving DecidableEq, Repr

/-- An SPI or I²C controller's transfer in progress: who issued it, its control word, and the ply request it
answers; whether its input already read 0 when it began, and the last accepted level of a pin that left the input role since
(R415). -/
structure XferSt where
  ctl : Word
  fabric : Option (Packet × Nat)
  discard : Bool
  deaf : Bool
  held : Option Bool
  deriving DecidableEq, Repr

/-- A sense pin's filter (R276): the time and sense of the edge whose window is open, the end of the window after a
discarded pair, and whether the capture runs (R279). -/
structure SenseSt where
  open_ : Option (Tick × Bool)
  capture : Bool
  deriving DecidableEq, Repr

/-- A quadrature counter (R280–R285). `hist` holds, newest first, the ticks of the last 256 bank cycles at which the count changed,
each with the count that stood before it; `cycle` the bank cycle of the last sample, with its causes (R283). -/
structure QdSt where
  count : Word
  hist : List (Tick × Word) := []
  ab : BitVec 2
  fresh : Bool
  lastCnt : Word
  lastTime : Tick
  q : HQ (Word × Word × Tick)
  miss : Bool
  err : Bool
  idx : Bool
  cycle : Option (Nat × Nat) := none
  deriving DecidableEq, Repr

/-- Pins, their banks (VIOB within limits, sampled PULLDEF, sleeping) and their units. -/
structure PinsSt where
  pins : NMap PinSt
  viobOk : List Nat
  pulldef : Byte
  asleep : Bool
  pwm : NMap PwmSt
  spi : NMap XferSt
  i2c : NMap XferSt
  heldCs : NMap Nat
  spiMode : NMap Word := []
  sense : NMap SenseSt
  qd : NMap QdSt
  deriving DecidableEq, Repr

/-! ## The timebase -/

/-- The timebase (R264–R271): the count; reference state; the last commit tick, TBSYNC value and snapshot handled;
the snapshot register (R383); the index of the last pulse that TBSYNC emitted, modulo 2^44, if one was (R223,
R271). -/
structure TimeSt where
  count : Tick
  locked : Bool
  refLost : Bool
  holdover : Bool
  holdStart : Tick
  wrapNear : Bool
  lastCommit : Tick
  lastPulse : Tick
  lastSnap : Tick
  snap : Tick
  emitted : Option Nat
  deriving DecidableEq, Repr

/-! ## Host ports -/

/-- A packet that the part keeps until it is acknowledged (R454), with the times it was replayed. -/
structure HPkt where
  seq : BitVec 12
  typ : BitVec 4
  tag : Byte
  status : BitVec 4
  arg : BitVec 16
  words : List DWord
  replays : Nat
  deriving DecidableEq, Repr

/-- An RSP that is formed and waits for credit (R460). `after` is the register write, by address and value, that takes effect once
this RSP has been sent: a reset of the port's own link (R478). -/
structure Rsp where
  tag : Byte
  status : BitVec 4
  words : List DWord
  after : Option (Nat × Word) := none
  deriving DecidableEq, Repr

/-- A request in a port's request queue (R455): a host's RD, WR or PLY, or one of a reserved TYPE, with its TAG, none where a reset
discards its RSP (R476); or a word of CFG_STREAM that the port has written and that waits for the loader (R517). -/
inductive HReq
  | rd (tag : Option Byte) (words : List DWord)
  | wr (tag : Option Byte) (words : List DWord)
  | ply (tag : Option Byte) (arg : BitVec 16) (words : List Word)
  | other (tag : Option Byte)
  | word (val : Word)
  deriving DecidableEq, Repr

/-- A tile RAM window access of a host in progress (R461): the next word (2,048 × tile + word), the words left, the data
to write or the words read so far, and the TAG of the window operation that is out. -/
structure WinAcc where
  tag : Option Byte
  write : Bool
  word : Nat
  left : Nat
  data : List Word
  got : List Word
  total : Nat
  wait : Option (BitVec 7)
  deriving DecidableEq, Repr

/-- One of a mailbox's items: an arrived packet, whether it has been sent as MBX and under which SEQ. -/
structure MbxEnt where
  pkt : Packet
  exit : Nat
  sent : Option (BitVec 12)
  deriving DecidableEq, Repr

/-- A mailbox (R464, R465): inbound entries (16), requests that await a response (8), the responses that returned,
the refusal store (4), and the requests answered with STALE whose own response may still arrive (R466). -/
structure Mbox where
  inb : List MbxEnt
  reqs : List Resv
  resp : List MbxEnt
  store : List MbxEnt
  late : List Resv
  deriving DecidableEq, Repr

/-- A host port: link (R448–R450), link-layer numbering, credits and replay (R454, R455), queues and the requests in
progress. `reqCredit` are the REQ credits that the host has left, `regrant` the credit classes whose grant the host sends anew (R456), `reqq` the request queue, `plyq` the PLY packets that
wait to be injected, with the TAG of the RSP, `mbxTurn` one above the mailbox served last. `qdiff` says where the two copies of the
pointers of a queue that holds nothing between steps differ (R399, R455: k = 2 and 4, and 16 + m for mailbox m): the
read pointer's bits in [7:0], the write pointer's in [15:8]. -/
structure PortSt where
  state : BitVec 4
  cause : BitVec 4
  step : Nat
  wait : Bool
  locked : BitVec 4
  aligned : BitVec 4
  activeAt : Tick
  leftAt : Option Tick
  rxSeq : BitVec 12
  nakOut : Bool
  txSeq : BitVec 12
  unacked : List HPkt
  regrant : List Nat
  credits : NMap Nat
  reqCredit : Nat
  clearedLayer : Bool
  reqq : HQ HReq
  rspq : HQ Rsp
  ntfq : HQ Nat
  ntfBack : List Nat
  wins : List WinAcc
  plyq : List (Packet × Option Byte)
  mbxTurn : Nat
  qdiff : NMap (BitVec 16)
  deriving DecidableEq, Repr

/-- A batch accepted for a commit tick (R473): its port, its entries and the tick. -/
structure PBatch where
  port : Fin 4
  entries : List (Word × Word)
  tick : Tick
  deriving DecidableEq, Repr

/-- A port's batches: the staged entries and the check in progress with the tick that COMMIT_AT names (R471–R474). -/
structure BatchSt where
  staged : List (Word × Word)
  checking : Option (List (Word × Word) × Option Tick)
  deriving DecidableEq, Repr

/-- Ports, mailboxes (16 d + m), batches and the order of accepted ones; the port whose request was granted last (R459). -/
structure HostSt where
  turn : Option Nat
  ports : NMap PortSt
  mbox : NMap Mbox
  batch : NMap BatchSt
  accepted : List PBatch
  deriving DecidableEq, Repr

/-! ## The loader -/

/-- A skein of the image being loaded (R501): its shape and slots (TILE, MINOR, WORD, SHIFT, SOURCE, MASK). -/
structure SkeinDef where
  index : Nat
  w : Nat
  h : Nat
  nomove : Bool
  slots : List (Word × Word)
  deriving DecidableEq, Repr

/-- A pair of a WREG command (R500): the word offset of the pair, its register address and its value. -/
structure WPair where
  off : Nat
  addr : Nat
  val : Word
  deriving DecidableEq, Repr

/-- A load in progress: whether it is partial, its port (none: flash or chain), the words taken in order and the offset of
the next one to be acted on; in an encrypted image the plaintext that is left of the epoch, the offset of its first word,
the next epoch's number and key (R512); the place in the order of R494 (`section_`: 0 KEYWRAP is due, 1 REGION is due,
2 directory, 3 frames, 4 after END, 5 after SIGNATURE, 6 complete); what the directory declared, with the word offsets of
the instance entries and of DIR_END; the skein minors received (R505: 8 × (16 × skein + tile) + minor); the code of the
command last acted on; whether placement is complete; what the SIGNATURE established and the image hash (R510, R511). -/
structure Load where
  partial_ : Bool
  port : Option (Fin 4)
  img : List Word
  pos : Nat
  plain : List Word
  plainOff : Nat
  nextEpoch : Nat
  key : List Byte
  section_ : Nat
  skeins : List SkeinDef
  insts : List Inst
  instOffs : NMap Nat
  dirEnd : Nat
  wregs : List WPair
  got : List Nat
  lastOp : Nat
  placed : Bool
  slotUsed : Option Nat
  modHash : List Byte
  hash : List Byte
  deriving DecidableEq, Repr

/-- The region of a partial load (R519, R520): its ranges (base, count), its pins with their park values, and whether
it is torn. -/
structure RegionSt where
  ranges : List (Nat × Nat)
  pins : List (Nat × BitVec 2)
  torn : Bool
  port : Fin 4
  deriving DecidableEq, Repr

/-- Forwarding on the chain port (R525): the words of the part's own image still to pass by, the place in the image that
is forwarded (0: the next word must be SYNC) and its LENGTH once known, the images and the words forwarded. -/
structure FwdSt where
  skip : Nat
  pos : Nat
  len : Nat
  images : Nat
  words : Nat
  deriving DecidableEq, Repr

/-- The loader (R487–R534). `flash` is the progress of reading the flash (0 header in single mode, 1 header in octal, 2 header
in quad, 3 octal, 4 quad), `header1` the header that the first read gave; `chainOut` the words sent on the chain port; `image`
the register values that the loaded image set (R418), by address; `phashPort` the port of the last partial image released; `rollback`, `modHash` those of the full image in force. -/
structure LdrSt where
  state : BitVec 4
  source : BitVec 2
  mode : BitVec 2
  modeRsvd : Bool
  signed : Bool
  encrypted : Bool
  load : Option Load
  region : Option RegionSt
  loadPort : Fin 4
  phashPort : Fin 4
  flash : Nat
  header1 : List Word
  fwd : Option FwdSt
  chainOut : List Word
  modHash : List Byte
  rollback : Nat
  cfgDone : Bool
  cfgErrN : Bool
  image : NMap Word
  deriving DecidableEq, Repr

/-! ## Integrity, security, power, observation -/

/-- A suspect window that stands open (R540): the frame, the instance and the window's start. -/
structure SuspectSt where
  frame : Nat
  base : Nat
  start : Tick
  deriving DecidableEq, Repr

/-- The scrubber (R535–R545): its state and position (frames read in the pass), clean times by frame, frames found
with errors in this pass, consecutive corrections of a word (key 64 f + w), open windows, the ticks of uncorrectable
frames by tile, and its triplicated fields. -/
structure ScrubSt where
  state : BitVec 2
  pos : Nat
  clean : NMap Tick
  cleanAll : Tick
  dirty : List Nat
  stuck : NMap Nat
  stuckNow : List Nat
  opens : List SuspectSt
  uncorr : NMap Tick
  renewed : List Nat
  triples : NMap (List Word)
  verifying : Bool
  deriving DecidableEq, Repr

/-- A fuse program in progress (R555). -/
inductive FuseOp
  | own (port : Fin 4) (hash : List Byte)
  | slot (port : Fin 4) (i : Nat) (hash : List Byte)
  | revoke (port : Fin 4) (i : Nat)
  | seal (port : Fin 4)
  | rollback (port : Fin 4) (target : Nat)
  | retire (port : Fin 4) (tile : Nat)
  deriving DecidableEq, Repr

/-- The fuses the part programs (R553): owner-key slots, the anti-rollback count, the state bits and the retirement
list. -/
structure FuseSt where
  slots : NMap (List Byte)
  revoked : List Nat
  rollback : Nat
  owned : Bool
  sealed_ : Bool
  retired : List Nat
  deriving DecidableEq, Repr

/-- The security engine: fuses and the program in progress, VFUSE, the ledger (next SEQ, head chain, acknowledged
count, lost records, held records), and report requests in order. -/
structure SecSt where
  fuses : FuseSt
  fuseOp : Option FuseOp
  vfuseOk : Bool
  ledNext : Nat
  ledChain : List Byte
  ledAck : Nat
  ledLostNow : Nat
  ledHeld : List (List Word)
  ledWait : Bool
  segs : List (List Word)
  suspects : Nat
  openCount : Nat
  reports : List (Fin 4 × BitVec 8 × List Word)
  slotUsed : Option Nat
  deriving DecidableEq, Repr

/-- Power (R575–R591): the reset in force (0 none, 1 full, 2 power-on, as at reset); the state (R579), the entry, or the
wake, under way (true: Park), whether the Park is a thermal one, the tick of the wake source, the resets held for the wake (0 fabric, d domain
d); the governor's setting and working values: whether writes are owed again, the failures in a row of its writes and reads,
the readings of VOUT that disagreed in a row, its place in the 16 periods, whether STATUS_WORD and whether IOUT is due, the
last STATUS_WORD, the largest depth and the missed events of subscribed queues in the period, whether the period's read is used, and the PMBus transactions of the
last period in order: address, command, word (R587). -/
structure PwrSt where
  reset : BitVec 2
  state : BitVec 4
  entering : Option Bool
  thermal : Bool
  wakeAt : Tick
  heldReset : List Nat
  vcore : Nat
  calmRun : Nat
  shortfall : Bool
  pmbFault : Bool
  regFault : Bool
  rewrite : Bool
  wFails : Nat
  rFails : Nat
  mismatch : Nat
  period : Nat
  statusDue : Bool
  ioutDue : Bool
  status : BitVec 16
  lag : Nat
  missed : Nat
  readUsed : Bool
  bus : List (Nat × Nat × Nat)
  deriving DecidableEq, Repr

/-- A counter of the observation block (R605, R606): its count, its snapshot and the tally that its last read saw, none
before the first read of a source (R607). -/
structure ObsCnt where
  count : BitVec 48
  snap : BitVec 48
  base : Option (BitVec 16)
  deriving DecidableEq, Repr

/-- A trace probe: its queue, whether records were lost since the last one, and its last record (R609, R610). -/
structure ProbeSt where
  q : List (List Word)
  lostFlag : Bool
  last : List Word
  deriving DecidableEq, Repr

/-- The observation block: running tallies by source word (R606), counters, probes, the probes that have records waiting in
the order of their forming, the trace writer, the units that wait for TRC and when the last one left, and the TAP. -/
structure ObsSt where
  tally : NMap (BitVec 16)
  cnts : NMap ObsCnt
  probes : NMap ProbeSt
  order : List Nat
  wptr : Nat
  stopAt : Nat
  full : Bool
  trcq : List (List Word)
  trcAt : Tick
  tapIr : BitVec 4
  boundary : BitVec 1263
  deriving DecidableEq, Repr

/-- The status and the data of the operation that completed last (R22, R23). -/
structure Done where
  status : BitVec 4
  data : List Word
  deriving DecidableEq, Repr

end Sys2Proof.Machine
end

