-- ==== Sys2Proof/Machine/Operands.lean ====
section
/-! DEFINITION. Operands: fields of words (R8), ply headers and route words (R121, R122), byte strings (R9) and
physical places. -/
namespace Sys2Proof.Machine

/-- Field [hi:lo] of a word as a number (R8). -/
def fld {n : Nat} (w : BitVec n) (hi lo : Nat) : Nat := w.toNat / 2 ^ lo % 2 ^ (hi + 1 - lo)
/-- Bit `k` of a word (R8). -/
def bitOf {n : Nat} (w : BitVec n) (k : Nat) : Bool := w.getLsbD k
/-- A word of 32 bits from a number. -/
def w32 (n : Nat) : Word := BitVec.ofNat 32 n
/-- A bit as a number. -/
def b2n (b : Bool) : Nat := if b then 1 else 0
/-- A number placed at bit `lo` of a field of `n` bits. -/
def place (lo n v : Nat) : Nat := v % 2 ^ n * 2 ^ lo
/-- The low and high halves of 64 bits. -/
def lo32 (d : BitVec 64) : Word := d.setWidth 32
/-- Bits [63:32]. -/
def hi32 (d : BitVec 64) : Word := (d >>> 32).setWidth 32
/-- 64 bits from two words, low word first. -/
def join32 (lo hi : Word) : DWord := hi ++ lo
/-- Set or clear bit `k`. -/
def putBit {n : Nat} (w : BitVec n) (k : Nat) (b : Bool) : BitVec n :=
  if b then w ||| BitVec.ofNat n (2 ^ k) else w &&& ~~~ (BitVec.ofNat n (2 ^ k))
/-- Write field [hi:lo] of a word. -/
def putFld (w : Word) (hi lo v : Nat) : Word :=
  (w &&& ~~~ (w32 ((2 ^ (hi + 1 - lo) - 1) * 2 ^ lo))) ||| w32 (place lo (hi + 1 - lo) v)

/-- The bytes of a word, low byte first (R9). -/
def bytesOf32 (w : Word) : List Byte := [w.setWidth 8, (w >>> 8).setWidth 8, (w >>> 16).setWidth 8, (w >>> 24).setWidth 8]
/-- The bytes of 64 bits, low byte first. -/
def bytesOf64 (d : DWord) : List Byte := bytesOf32 (lo32 d) ++ bytesOf32 (hi32 d)
/-- The number that a little-endian byte string spells. -/
def leNat : List Byte → Nat
  | [] => 0
  | b :: t => b.toNat + 256 * leNat t
/-- The number that a big-endian byte string spells. -/
def beNat (l : List Byte) : Nat := l.foldl (fun a b => a * 256 + b.toNat) 0
/-- Bytes to words, four at a time, low byte first; a last short group is filled with zeros. -/
def wordsOfBytes : List Byte → List Word
  | [] => []
  | [a] => [w32 a.toNat]
  | [a, b] => [w32 (a.toNat + 256 * b.toNat)]
  | [a, b, c] => [w32 (a.toNat + 256 * b.toNat + 65536 * c.toNat)]
  | a :: b :: c :: d :: t => (d ++ c ++ b ++ a : BitVec 32) :: wordsOfBytes t
/-- The bytes of a list of words. -/
def bytesOfWords (l : List Word) : List Byte := l.flatMap bytesOf32
/-- Two words to 64 bits, the earlier in bits [31:0] (R452); a last odd word is filled with zeros. -/
def dwordsOfWords : List Word → List DWord
  | [] => []
  | [a] => [join32 a 0]
  | a :: b :: t => join32 a b :: dwordsOfWords t
/-- 64-bit words to their halves, low half first. -/
def wordsOfDwords (l : List DWord) : List Word := l.flatMap (fun d => [lo32 d, hi32 d])
/-- The bytes of a list of 64-bit words. -/
def bytesOfDwords (l : List DWord) : List Byte := l.flatMap bytesOf64
/-- Bytes to 64-bit words, low byte first, the last filled with zeros. -/
def dwordsOfBytes (l : List Byte) : List DWord := dwordsOfWords (wordsOfBytes l)

/-- A signed number of `n` bits. -/
def sint (n v : Nat) : Int := if v % 2 ^ n < 2 ^ (n - 1) then (v % 2 ^ n : Nat) else (v % 2 ^ n : Nat) - (2 ^ n : Nat)

/-- A physical tile from its column and row (64 c + r). -/
def tileAt (c r : Nat) : Nat := 64 * c + r
/-- The column of a physical tile. -/
def colOf (t : Nat) : Nat := t / 64
/-- The row of a physical tile. -/
def rowOf (t : Nat) : Nat := t % 64
/-- A physical tile as an ITEM word: [11:6] column, [5:0] row (R467). -/
def tileItem (t : Nat) : Word := w32 (t % 4096)

/-- Whether a stretch `[a, b)` of the tick circle holds `t`: ticks are compared by their signed difference (R267). -/
def tickLt (a b : Tick) : Bool := decide (0 < (b - a).toNat ∧ (b - a).toNat < 2 ^ 63)
/-- At or after. -/
def tickGe (a b : Tick) : Bool := ! tickLt a b

/-- The header word of a packet (R121): [31:16] DEST, [15:11] SLOT, [10:7] OP, [6:0] TAG. -/
def headerWord (p : Packet) : Word :=
  w32 (place 16 16 p.dest.toNat + place 11 5 p.slot.toNat + place 7 4 p.op.toNat + p.tag.toNat)

end Sys2Proof.Machine
end

