-- ==== Sys2Proof/Machine/Init.lean ====
section
/-! DEFINITION. Init: the value of each record before anything has happened to it, which is also what a table's
unlisted entry holds. -/
namespace Sys2Proof.Machine

/-- A router input lane with nothing in it. -/
def PLane.init : PLane := { flits := [], rest := [], out := [] }
/-- An output port that has served nobody (notes/assumptions/12.md: the first turn). -/
def OutArb.init : OutArb := { lastVc := true, left := [], cur := [], last := [], busy := 0, held := 0 }
/-- An empty hold queue (R139). -/
def HoldQ.init : HoldQ := { pkts := [], wait := none }
/-- The network at reset: empty (R146). -/
def PlySt.init : PlySt :=
  { lanes := [], outs := [], hold := [], ring := [], asm := [], inbox := [], epRound := [], util := [], utilMax := 0,
    refusals := 0, arrivals := 0 }
/-- A tile interface with nothing in it (R54). -/
def TileIf.init : TileIf :=
  { txWords := [], txOver := false, reqBuf := [], respBuf := [], resv := [], rx := none, win := none }
/-- Initial user state (R54): every latch null, accumulators and tile RAM zero, queues empty. -/
def TileSt.init : TileSt :=
  { latch := [], ack := [], constIdle := [], acc0 := 0, railBad := [], lastGrant := [], arbFirst := [], arbWait := [], mergeOwe := [], acc1 := 0,
    hbOut := [], ram := [], ramBad := [], q0 := HQ.empty, q1 := HQ.empty, shown0 := false, shown1 := false,
    bLastWin := false, ramOrder := [], ramLong := [], ifc := TileIf.init, ramPerr := false, railErr := false, mergeBoth := false, ramErr := none }
/-- The fabric after reset: configuration clear, frozen (R88). -/
def FabSt.init : FabSt := { cfg := [], cfgErr := [], tiles := [], held := [], heldSince := [], frozen := true, released := false }
/-- Distaff after reset: nothing placed; its runtime retirement list empty (R188). -/
def DstSt.init : DstSt :=
  { insts := [], map := [], retRt := [], mig := none, failing := [], capTimes := [], swapTimes := [],
    temps := List.replicate 64 0, grpAcc := [], grpStall := [], lastStall := [], hot := [], swapAge := 2, test := none,
    testPos := 0, testAt := none }
/-- A channel with an empty queue. -/
def ChanSt.init : ChanSt :=
  { q := HQ.empty, lastTime := none, pend := { }, told := false, lastDel := 0, peak := 0 }
/-- A lane that is OFF (R245, R249). -/
def LaneSt.init : LaneSt :=
  { scr := 0, state := 0, step := 0, cause := 0, attempt := 0, failStep := 0, eyeLow := false, syncRange := false, syncLost := false,
    lock := false, cdr := false, good := 0, errs := [], skip := false, frame := none,
    lostFrame := false, lastBase := none, events := 0, trains := 0, corr := 0, echo := 0, seq := 0, echoes := [],
    noEcho := 0, loadPulse := none, eyeBadH := 0, eyeBadW := 0, eyeGood := 0, trained := false, turn := 0,
    spiSel := none, feOut := [], wq := HQ.empty, wbuf := [], cur := none, slot := false }
/-- A reader slot that has not run. -/
def SlotSt.init : SlotSt :=
  { state := 0, last := 0, laps := 0, pos := 0, run := 0, follow := false, endTime := false, stop := 0, sent := [], pace := 0,
    slot := 0, tile := 0, syn := 0, ready := 0, seg := 0, stops := [], runs := 0 }
/-- A spool without segments. -/
def SpoolSt.init : SpoolSt :=
  { size := 0, segs := [], w := 0, start := 0, run := 0, acc := 0, half := none, marks := [], slots := [], exp := none,
    gap := none, swap := none, resizing := none }
/-- The spool engine without spools. -/
def SplSt.init : SplSt := { spools := [], queue := [], sweep := 0, segWrites := [] }
/-- A bank with no request; system and domains begin a round (notes/assumptions/12.md). -/
def BankSt.init : BankSt := { reqs := [], ptrs := [], lastCapture := false, left := [], debt := [], lastMaster := [] }
/-- Reel memory before its initialisation is done (R343). -/
def MemSt.init : MemSt :=
  { initDone := false, err := [], ops := [], nextOp := 0, banks := [], fixq := [], test := none, bgNext := 0,
    bankTest := none, ret := [], waking := [], woken := [], lastUse := [], spares := [], repaired := [], vret := false,
    conf := [] }
/-- A crossing at rest. -/
def XingSt.init : XingSt := { busy := false, pending := 0, overrun := false, unstable := false, absent := false }
/-- Every crossing at rest, every island clock running. -/
def XngSt.init : XngSt := { xings := [], stopped := [] }
/-- A pin: not driven, its last level low (notes/assumptions/2.md). -/
def PinSt.init : PinSt :=
  { level := false, armed := false, out := false, oe := false, fabOut := false, fabOe := false, conflict := false,
    ovr := false, evLevel := false, resample := false, pulses := 0, oldEvts := [], park := none }
/-- A PWM channel that is off. -/
def PwmSt.init : PwmSt :=
  { period := 0, duty := 0, pending := false, running := false, waitTbsync := false, start := 0 }
/-- A sense pin whose capture does not run. -/
def SenseSt.init : SenseSt := { open_ := none, capture := false }
/-- A quadrature counter at zero (R285). -/
def QdSt.init : QdSt :=
  { count := 0, ab := 0, fresh := true, lastCnt := 0, lastTime := 0, q := HQ.empty, miss := false, err := false,
    idx := false }
/-- The pins after reset: high impedance (R416). -/
def PinsSt.init : PinsSt :=
  { pins := [], viobOk := [], pulldef := 0, asleep := false, pwm := [], spi := [], i2c := [], heldCs := [], spiMode := [], sense := [],
    qd := [] }
/-- The timebase at reset (R266). -/
def TimeSt.init : TimeSt :=
  { count := 0, locked := false, refLost := false, holdover := false, holdStart := 0, wrapNear := false,
    lastCommit := 0, lastPulse := 0, lastSnap := 0, snap := 0, emitted := none }
/-- A mailbox with nothing in it. -/
def Mbox.init : Mbox := { inb := [], reqs := [], resp := [], store := [], late := [] }
/-- A port that is OFF (R448). -/
def PortSt.init : PortSt :=
  { state := 0, cause := 0, step := 0, wait := false, locked := 0, aligned := 0, activeAt := 0, leftAt := none,
    rxSeq := 0, nakOut := false, txSeq := 0, unacked := [], regrant := [], credits := [], reqCredit := 0,
    clearedLayer := true, reqq := HQ.empty, rspq := HQ.empty, ntfq := HQ.empty, ntfBack := [], wins := [], plyq := [],
    mbxTurn := 0, qdiff := [] }
/-- No batch. -/
def BatchSt.init : BatchSt := { staged := [], checking := none }
/-- The host side after reset (R478). -/
def HostSt.init : HostSt := { turn := none, ports := [], mbox := [], batch := [], accepted := [] }
/-- A load that has taken nothing yet. -/
def Load.init : Load :=
  { partial_ := false, port := none, img := [], pos := 0, plain := [], plainOff := 0, nextEpoch := 0, key := [],
    section_ := 0, skeins := [], insts := [], instOffs := [], dirEnd := 0, wregs := [], got := [], lastOp := 0,
    placed := false, slotUsed := none, modHash := [], hash := [] }
/-- The loader in INIT. -/
def LdrSt.init : LdrSt :=
  { state := 0, source := 0, mode := 0, modeRsvd := false, signed := false, encrypted := false, load := none,
    region := none, loadPort := 0, phashPort := 0, flash := 0, header1 := [], fwd := none, chainOut := [], modHash := [], rollback := 0,
    cfgDone := false, cfgErrN := false, image := [] }
/-- The scrubber at rest. -/
def ScrubSt.init : ScrubSt :=
  { state := 0, pos := 0, clean := [], cleanAll := 0, dirty := [], stuck := [], stuckNow := [], opens := [],
    uncorr := [], renewed := [], triples := [], verifying := false }
/-- The fuses as shipped: Open, no owner key, nothing retired (R553; notes/assumptions/2.md). -/
def FuseSt.init : FuseSt :=
  { slots := [], revoked := [], rollback := 0, owned := false, sealed_ := false, retired := [] }
/-- The security engine after reset. -/
def SecSt.init : SecSt :=
  { fuses := FuseSt.init, fuseOp := none, vfuseOk := true, ledNext := 0, ledChain := List.replicate 32 0, ledAck := 0,
    ledLostNow := 0, ledHeld := [], ledWait := false, segs := [], suspects := 0, openCount := 0, reports := [], slotUsed := none }
/-- Power after a power-on reset, held in it: Run, VCORE 900 mV (R579, R589, R601). -/
def PwrSt.init : PwrSt :=
  { reset := 2, state := 0, entering := none, thermal := false, wakeAt := 0, vcore := 900, calmRun := 0, shortfall := false,
    pmbFault := false, regFault := false, rewrite := false, heldReset := [], wFails := 0, rFails := 0, mismatch := 0,
    period := 0, statusDue := false, bus := [], ioutDue := false, status := 0, lag := 0, missed := 0, readUsed := false }
/-- A counter at zero. -/
def ObsCnt.init : ObsCnt := { count := 0, snap := 0, base := none }
/-- A probe with an empty queue. -/
def ProbeSt.init : ProbeSt := { q := [], lostFlag := false, last := [0, 0, 0, 0] }
/-- The observation block after reset. -/
def ObsSt.init : ObsSt :=
  { tally := [], cnts := [], probes := [], order := [], wptr := 0, stopAt := 0, full := false, trcq := [],
    trcAt := 0, tapIr := 1,
    boundary := 0 }
/-- Nothing has completed. -/
def Done.init : Done := { status := 0, data := [] }

end Sys2Proof.Machine
end

