-- ==== Sys2Proof/Machine/RegTable.lean ====
section
/-! DEFINITION. RegTable: the register map (R16, R35, R38 and the register tables of the chapters). One name per
register; for each its first address, its two strides and counts, whether each port holds its own copy (R638 and the
chapters), the bits a write sets (codes RW and LCK), the bits a 1 clears (W1C) and its value after power-on reset.
Fields whose reset the tables give as "cfg" or "fuse" stand at 0 here until an image or a fuse sets them (DESIGN
CHOICE, notes/assumptions/2.md). -/
namespace Sys2Proof.Machine

/-- The registers of the part, in address order. -/
inductive Reg
  | sysId | sysReset | sysResetCause | sysNotifyMask | sysLock | batchStat | batchAddr | batchData
  | batchCmd | batchAtLo | batchAtHi | batchDoneLo | batchDoneHi | batchFail | batchFailAddr | cfgStatus
  | cfgErr | cfgErrOffset | cfgErrAddr | cfgDesign | cfgPdesign | cfgWords | cfgPartials | cfgHash : Reg
  | cfgPhash | cfgLoadCmd | cfgStream | cfgNotifyMask | cfgRegion | scrubStatus | scrubCfg | scrubPassCount
  | scrubCorrCount | scrubEssCount | scrubUncorrCount | scrubVoteCount | scrubLastErr | scrubFaultInfo | scrubBistCmd | scrubBistStat
  | scrubBistCount | scrubRetSel | scrubRetEntry | scrubFuseCmd | scrubFuseStat | scrubNotifyMask | secStatus | secNotifyMask : Reg
  | secCtl | secCmd | secCmdStat | secCmdArg | secSlot | secSlotHash | secLedgerSeqLo | secLedgerSeqHi
  | secLedgerAckLo | secLedgerAckHi | secLedgerLost | secLedgerFree | secLedgerChain | secRecSelLo | secRecSelHi | secRecStat
  | secRec | secDevid | secIdMod | secRpt | pwrStatus | pwrCmd | pwrVlim | pwrGov : Reg
  | pwrTherm | pwrPmb | pwrWakeAtLo | pwrWakeAtHi | pwrShortCount | pwrReg | pwrNotifyMask | pwrWakeSrc
  | pwrTemp | dstStatus | dstPolicy | dstThresh | dstCap | dstCmd | dstCmdArg | dstCmdStat
  | dstInstSel | dstInstStat | dstInstPlace | dstInstPressure | dstTileSel | dstTileMap | dstMigCount | dstAbortCount : Reg
  | dstLastMig | dstSwapCount | plyStatus | plyWeight | plyDeniedCount | plyTornCount | plyRangeCount | plyUnsupCount
  | plyRefuseLost | plyLastRefusal | plyLastRefusalAddr | plyHoldFullCount | plyNotifyMask | fabStatus | fabCollideCount | fabCollideLast
  | fabParityCount | fabRailCount | fabTileSel | fabTileStat | fabTileRamerr | fabQfaultCount | fabQfaultLast | fabXingUnstable : Reg
  | fabXingOverrun | fabXingPeer | fabXingLast | memStatus | memCtl | memTestCmd | memTestStat | memErrAddr
  | memErrInfo | memNotifyMask | memGrpCorr | memGrpUncorr | memGrpRepair | memGrpFailed | memDomArea | memDomDenied
  | memConfLo | memConfHi | splStatus | splCmd | splCmdStat | splCmdArg | splResult | splMtInserts : Reg
  | splMtEvicts | splMtLookups | splMtMisses | splMtSwept | splNotifyMask | splCfg | splStat | splWptrLo
  | splWptrHi | splLiveLo | splLiveHi | splSlot | splGaps | splLappedReq | splResizeLost | laneStatus
  | laneRun | laneCmd | laneCmdArg | laneCmdData | laneCmdStat | laneNotifyMask | laneCfg | laneStat : Reg
  | laneSync | laneEye | laneChEn | laneFeId | laneFeEq | laneBlkErr | laneFrameErr | laneEventErr
  | laneOrder | laneDisabled | laneMissed | laneRefused | laneRetrains | laneSub | laneChMissed | laneChRefused
  | laneChQueue | timeStatus | timeNowLo | timeNowHi | timeTbsync | timeNotifyMask | timeRefCount | timeSenseCfg : Reg
  | timeSenseSub | timeSenseMissed | timeSenseGlitch | timeQdCfg | timeQdCount | timeQdLastCnt | timeQdLastLo | timeQdLastHi
  | timeQdSub | timeQdErrcnt | timeQdCmd | pinStatus | pinNotifyMask | pinBankCfg | pinBankStat | pinIn
  | pinOut | pinSet | pinClr | pinTgl | pinDir | pinPend | pinEvtLost | pinEvtRefused : Reg
  | pinGwIgnored | pwmCfg | pwmPeriod | pwmDuty | pwmStat | spiCfg | spiCmd | spiStat
  | spiData | i2cCfg | i2cCmd | i2cStat | i2cData | pinCfg | pinEvt | pinStat
  | pinArm | hlkStatus | hlkNotifyMask | hlkPortCmd | hlkDomReset | hlkNtfCfg | hlkNtfWptr | hlkNtfRptr : Reg
  | hlkNtfLost | hlkLink | hlkCrcErr | hlkReplays | hlkRetrains | hlkDomCfg | hlkDomQuota | hlkDomPins
  | hlkDomRange | hlkDomSpool | obsStatus | obsNotifyMask | obsCtl | obsTraceCfg | obsTraceWptr | obsTraceDrop
  | obsUtilSel | obsUtil | obsUtilMax | obsProbeSrc | obsProbeStat | obsProbeLast | obsCntSrc | obsCntLo : Reg
  | obsCntHi
  deriving DecidableEq, Repr

/-- Where a register stands and what a write does to its stored bits. -/
structure RegDesc where
  base : Nat
  s1 : Nat
  c1 : Nat
  s2 : Nat
  c2 : Nat
  perPort : Bool
  rw : Nat
  w1c : Nat
  reset : Nat
  deriving DecidableEq, Repr

/-- The register tables of the chapters; each line cites the rule that gives it. -/
def regDesc : Reg → RegDesc
  | .sysId => ⟨0x70000000, 0, 1, 0, 1, false, 0x0, 0x0, 0x40960000⟩ -- R599
  | .sysReset => ⟨0x70000004, 0, 1, 0, 1, false, 0x0, 0x0, 0x0⟩ -- R599
  | .sysResetCause => ⟨0x70000008, 0, 1, 0, 1, false, 0x0, 0x0, 0x1⟩ -- R599
  | .sysNotifyMask => ⟨0x7000000C, 0, 1, 0, 1, true, 0x7, 0x0, 0x0⟩ -- R599
  | .sysLock => ⟨0x70000010, 0, 1, 0, 1, false, 0x0, 0x0, 0x0⟩ -- R599
  | .batchStat => ⟨0x70100000, 0, 1, 0, 1, true, 0x0, 0x0, 0x0⟩ -- R486
  | .batchAddr => ⟨0x70100004, 0, 1, 0, 1, true, 0xFFFFFFFF, 0x0, 0x0⟩ -- R486
  | .batchData => ⟨0x70100008, 0, 1, 0, 1, true, 0x0, 0x0, 0x0⟩ -- R486
  | .batchCmd => ⟨0x7010000C, 0, 1, 0, 1, true, 0x0, 0x0, 0x0⟩ -- R486
  | .batchAtLo => ⟨0x70100010, 0, 1, 0, 1, true, 0xFFFFFFFF, 0x0, 0x0⟩ -- R486
  | .batchAtHi => ⟨0x70100014, 0, 1, 0, 1, true, 0xFFFF, 0x0, 0x0⟩ -- R486
  | .batchDoneLo => ⟨0x70100018, 0, 1, 0, 1, true, 0x0, 0x0, 0x0⟩ -- R486
  | .batchDoneHi => ⟨0x7010001C, 0, 1, 0, 1, true, 0x0, 0x0, 0x0⟩ -- R486
  | .batchFail => ⟨0x70100020, 0, 1, 0, 1, true, 0x0, 0x80000000, 0x0⟩ -- R486
  | .batchFailAddr => ⟨0x70100024, 0, 1, 0, 1, true, 0x0, 0x0, 0x0⟩ -- R486
  | .cfgStatus => ⟨0x70200000, 0, 1, 0, 1, false, 0x0, 0x0, 0x0⟩ -- R529
  | .cfgErr => ⟨0x70200004, 0, 1, 0, 1, false, 0x0, 0x0, 0x0⟩ -- R530
  | .cfgErrOffset => ⟨0x70200008, 0, 1, 0, 1, false, 0x0, 0x0, 0x0⟩ -- R530
  | .cfgErrAddr => ⟨0x7020000C, 0, 1, 0, 1, false, 0x0, 0x0, 0x0⟩ -- R530
  | .cfgDesign => ⟨0x70200010, 0, 1, 0, 1, false, 0x0, 0x0, 0x0⟩ -- R531
  | .cfgPdesign => ⟨0x70200014, 0, 1, 0, 1, false, 0x0, 0x0, 0x0⟩ -- R531
  | .cfgWords => ⟨0x70200018, 0, 1, 0, 1, false, 0x0, 0x0, 0x0⟩ -- R531
  | .cfgPartials => ⟨0x7020001C, 0, 1, 0, 1, false, 0x0, 0x0, 0x0⟩ -- R531
  | .cfgHash => ⟨0x70200020, 4, 8, 0, 1, false, 0x0, 0x0, 0x0⟩ -- R532
  | .cfgPhash => ⟨0x70200040, 4, 8, 0, 1, false, 0x0, 0x0, 0x0⟩ -- R532
  | .cfgLoadCmd => ⟨0x70200060, 0, 1, 0, 1, false, 0x0, 0x0, 0x0⟩ -- R533
  | .cfgStream => ⟨0x70200064, 0, 1, 0, 1, false, 0x0, 0x0, 0x0⟩ -- R533
  | .cfgNotifyMask => ⟨0x70200068, 0, 1, 0, 1, true, 0xFF, 0x0, 0x0⟩ -- R533
  | .cfgRegion => ⟨0x70200070, 4, 8, 0, 1, false, 0x0, 0x0, 0x0⟩ -- R534
  | .scrubStatus => ⟨0x70300000, 0, 1, 0, 1, false, 0x0, 0x0, 0x0⟩ -- R552
  | .scrubCfg => ⟨0x70300004, 0, 1, 0, 1, false, 0x0, 0x0, 0x0⟩ -- R552
  | .scrubPassCount => ⟨0x70300008, 0, 1, 0, 1, false, 0x0, 0x0, 0x0⟩ -- R552
  | .scrubCorrCount => ⟨0x7030000C, 0, 1, 0, 1, false, 0x0, 0x0, 0x0⟩ -- R552
  | .scrubEssCount => ⟨0x70300010, 0, 1, 0, 1, false, 0x0, 0x0, 0x0⟩ -- R552
  | .scrubUncorrCount => ⟨0x70300014, 0, 1, 0, 1, false, 0x0, 0x0, 0x0⟩ -- R552
  | .scrubVoteCount => ⟨0x70300018, 0, 1, 0, 1, false, 0x0, 0x0, 0x0⟩ -- R552
  | .scrubLastErr => ⟨0x7030001C, 0, 1, 0, 1, false, 0x0, 0x80000000, 0x0⟩ -- R552
  | .scrubFaultInfo => ⟨0x70300020, 0, 1, 0, 1, false, 0x0, 0x0, 0x0⟩ -- R552
  | .scrubBistCmd => ⟨0x70300030, 0, 1, 0, 1, false, 0x0, 0x0, 0x0⟩ -- R552
  | .scrubBistStat => ⟨0x70300034, 0, 1, 0, 1, false, 0x0, 0x0, 0x0⟩ -- R552
  | .scrubBistCount => ⟨0x70300038, 0, 1, 0, 1, false, 0x0, 0x0, 0x0⟩ -- R552
  | .scrubRetSel => ⟨0x70300040, 0, 1, 0, 1, true, 0x1FF, 0x0, 0x0⟩ -- R552
  | .scrubRetEntry => ⟨0x70300044, 0, 1, 0, 1, false, 0x0, 0x0, 0x0⟩ -- R552
  | .scrubFuseCmd => ⟨0x70300048, 0, 1, 0, 1, false, 0x0, 0x0, 0x0⟩ -- R552
  | .scrubFuseStat => ⟨0x7030004C, 0, 1, 0, 1, false, 0x0, 0x0, 0x0⟩ -- R552
  | .scrubNotifyMask => ⟨0x70300050, 0, 1, 0, 1, true, 0xFF, 0x0, 0x0⟩ -- R552
  | .secStatus => ⟨0x70400000, 0, 1, 0, 1, false, 0x0, 0x0, 0x0⟩ -- R572
  | .secNotifyMask => ⟨0x70400004, 0, 1, 0, 1, true, 0xFF, 0x0, 0x0⟩ -- R572
  | .secCtl => ⟨0x70400008, 0, 1, 0, 1, false, 0xC0000000, 0x0, 0x0⟩ -- R572
  | .secCmd => ⟨0x70400010, 0, 1, 0, 1, false, 0x0, 0x0, 0x0⟩ -- R572
  | .secCmdStat => ⟨0x70400014, 0, 1, 0, 1, true, 0x0, 0x0, 0x0⟩ -- R572
  | .secCmdArg => ⟨0x70400020, 4, 8, 0, 1, true, 0xFFFFFFFF, 0x0, 0x0⟩ -- R572
  | .secSlot => ⟨0x70400040, 4, 3, 0, 1, false, 0x0, 0x0, 0x0⟩ -- R574
  | .secSlotHash => ⟨0x70400080, 32, 3, 4, 8, false, 0x0, 0x0, 0x0⟩ -- R574
  | .secLedgerSeqLo => ⟨0x70400100, 0, 1, 0, 1, false, 0x0, 0x0, 0x0⟩ -- R574
  | .secLedgerSeqHi => ⟨0x70400104, 0, 1, 0, 1, true, 0x0, 0x0, 0x0⟩ -- R574
  | .secLedgerAckLo => ⟨0x70400108, 0, 1, 0, 1, false, 0xFFFFFFFF, 0x0, 0x0⟩ -- R574
  | .secLedgerAckHi => ⟨0x7040010C, 0, 1, 0, 1, false, 0xFFFFFFFF, 0x0, 0x0⟩ -- R574
  | .secLedgerLost => ⟨0x70400110, 0, 1, 0, 1, false, 0x0, 0x0, 0x0⟩ -- R574
  | .secLedgerFree => ⟨0x70400114, 0, 1, 0, 1, false, 0x0, 0x0, 0x4000⟩ -- R574
  | .secLedgerChain => ⟨0x70400120, 4, 8, 0, 1, true, 0x0, 0x0, 0x0⟩ -- R574
  | .secRecSelLo => ⟨0x70400140, 0, 1, 0, 1, true, 0xFFFFFFFF, 0x0, 0x0⟩ -- R574
  | .secRecSelHi => ⟨0x70400144, 0, 1, 0, 1, true, 0xFFFFFFFF, 0x0, 0x0⟩ -- R574
  | .secRecStat => ⟨0x70400148, 0, 1, 0, 1, true, 0x0, 0x0, 0x0⟩ -- R574
  | .secRec => ⟨0x70400180, 4, 32, 0, 1, true, 0x0, 0x0, 0x0⟩ -- R574
  | .secDevid => ⟨0x70400200, 4, 8, 0, 1, false, 0x0, 0x0, 0x0⟩ -- R574
  | .secIdMod => ⟨0x70400300, 4, 96, 0, 1, false, 0x0, 0x0, 0x0⟩ -- R574
  | .secRpt => ⟨0x70400800, 4, 160, 0, 1, true, 0x0, 0x0, 0x0⟩ -- R574
  | .pwrStatus => ⟨0x70500000, 0, 1, 0, 1, false, 0x0, 0x0, 0x3840000⟩ -- R601
  | .pwrCmd => ⟨0x70500004, 0, 1, 0, 1, false, 0x0, 0x0, 0x0⟩ -- R601
  | .pwrVlim => ⟨0x70500008, 0, 1, 0, 1, false, 0x3FF03FF, 0x0, 0x0⟩ -- R601
  | .pwrGov => ⟨0x7050000C, 0, 1, 0, 1, false, 0xFFFFFFCF, 0x0, 0x808A0F08⟩ -- R601
  | .pwrTherm => ⟨0x70500010, 0, 1, 0, 1, false, 0xFFFF, 0x0, 0x5A6E⟩ -- R601
  | .pwrPmb => ⟨0x70500014, 0, 1, 0, 1, false, 0x7F001F, 0x0, 0x400017⟩ -- R601
  | .pwrWakeAtLo => ⟨0x70500018, 0, 1, 0, 1, false, 0xFFFFFFFF, 0x0, 0x0⟩ -- R601
  | .pwrWakeAtHi => ⟨0x7050001C, 0, 1, 0, 1, false, 0x8000FFFF, 0x0, 0x0⟩ -- R601
  | .pwrShortCount => ⟨0x70500020, 0, 1, 0, 1, false, 0x0, 0x0, 0x0⟩ -- R601
  | .pwrReg => ⟨0x70500024, 0, 1, 0, 1, false, 0x0, 0x0, 0x0⟩ -- R601
  | .pwrNotifyMask => ⟨0x70500028, 0, 1, 0, 1, true, 0x3F, 0x0, 0x0⟩ -- R601
  | .pwrWakeSrc => ⟨0x7050002C, 0, 1, 0, 1, false, 0x0, 0x0, 0x0⟩ -- R601
  | .pwrTemp => ⟨0x70500100, 4, 16, 0, 1, false, 0x0, 0x0, 0x0⟩ -- R601
  | .dstStatus => ⟨0x70600000, 0, 1, 0, 1, false, 0x0, 0x0, 0x0⟩ -- R194
  | .dstPolicy => ⟨0x70600004, 0, 1, 0, 1, false, 0xF8FFFFFF, 0x0, 0xF8102814⟩ -- R195
  | .dstThresh => ⟨0x70600008, 0, 1, 0, 1, false, 0xFFFFFF, 0x0, 0x501020⟩ -- R196
  | .dstCap => ⟨0x7060000C, 0, 1, 0, 1, false, 0xFFFF, 0x0, 0x1008⟩ -- R197
  | .dstCmd => ⟨0x70600010, 0, 1, 0, 1, false, 0x0, 0x0, 0x0⟩ -- R198
  | .dstCmdArg => ⟨0x70600014, 0, 1, 0, 1, true, 0xCFF00FFF, 0x0, 0x80000000⟩ -- R200
  | .dstCmdStat => ⟨0x70600018, 0, 1, 0, 1, true, 0x0, 0x0, 0x0⟩ -- R201
  | .dstInstSel => ⟨0x70600020, 0, 1, 0, 1, true, 0xFFF, 0x0, 0x0⟩ -- R202
  | .dstInstStat => ⟨0x70600024, 0, 1, 0, 1, false, 0x0, 0x0, 0x0⟩ -- R203
  | .dstInstPlace => ⟨0x70600028, 0, 1, 0, 1, false, 0x0, 0x0, 0x0⟩ -- R204
  | .dstInstPressure => ⟨0x7060002C, 0, 1, 0, 1, false, 0x0, 0x0, 0x0⟩ -- R205
  | .dstTileSel => ⟨0x70600030, 0, 1, 0, 1, true, 0xFFF, 0x0, 0x0⟩ -- R206
  | .dstTileMap => ⟨0x70600034, 0, 1, 0, 1, false, 0x0, 0x0, 0x0⟩ -- R207
  | .dstMigCount => ⟨0x70600040, 0, 1, 0, 1, false, 0x0, 0x0, 0x0⟩ -- R208
  | .dstAbortCount => ⟨0x70600044, 0, 1, 0, 1, false, 0x0, 0x0, 0x0⟩ -- R208
  | .dstLastMig => ⟨0x70600048, 0, 1, 0, 1, false, 0x0, 0x0, 0x0⟩ -- R209
  | .dstSwapCount => ⟨0x7060004C, 0, 1, 0, 1, false, 0x0, 0x0, 0x0⟩ -- R208
  | .plyStatus => ⟨0x70700000, 0, 1, 0, 1, false, 0x0, 0x0, 0x0⟩ -- R149
  | .plyWeight => ⟨0x70700004, 0, 1, 0, 1, false, 0x0, 0x0, 0x8421⟩ -- R150
  | .plyDeniedCount => ⟨0x70700010, 4, 4, 0, 1, false, 0x0, 0x0, 0x0⟩ -- R151
  | .plyTornCount => ⟨0x70700020, 0, 1, 0, 1, false, 0x0, 0x0, 0x0⟩ -- R152
  | .plyRangeCount => ⟨0x70700024, 0, 1, 0, 1, false, 0x0, 0x0, 0x0⟩ -- R152
  | .plyUnsupCount => ⟨0x70700028, 0, 1, 0, 1, false, 0x0, 0x0, 0x0⟩ -- R152
  | .plyRefuseLost => ⟨0x7070002C, 0, 1, 0, 1, false, 0x0, 0x0, 0x0⟩ -- R152
  | .plyLastRefusal => ⟨0x70700030, 0, 1, 0, 1, false, 0x0, 0x80000000, 0x0⟩ -- R153
  | .plyLastRefusalAddr => ⟨0x70700034, 0, 1, 0, 1, false, 0x0, 0x0, 0x0⟩ -- R154
  | .plyHoldFullCount => ⟨0x70700038, 0, 1, 0, 1, false, 0x0, 0x0, 0x0⟩ -- R152
  | .plyNotifyMask => ⟨0x70700040, 0, 1, 0, 1, true, 0x3F, 0x0, 0x0⟩ -- R155
  | .fabStatus => ⟨0x70800000, 0, 1, 0, 1, false, 0x0, 0x0, 0x1⟩ -- R93
  | .fabCollideCount => ⟨0x70800004, 0, 1, 0, 1, false, 0x0, 0x0, 0x0⟩ -- R94
  | .fabCollideLast => ⟨0x70800008, 0, 1, 0, 1, false, 0x0, 0x0, 0x0⟩ -- R95
  | .fabParityCount => ⟨0x7080000C, 0, 1, 0, 1, false, 0x0, 0x0, 0x0⟩ -- R96
  | .fabRailCount => ⟨0x70800010, 0, 1, 0, 1, false, 0x0, 0x0, 0x0⟩ -- R97
  | .fabTileSel => ⟨0x70800020, 0, 1, 0, 1, true, 0xFFF, 0x0, 0x0⟩ -- R98
  | .fabTileStat => ⟨0x70800024, 0, 1, 0, 1, false, 0x0, 0x3B0, 0x1800⟩ -- R99
  | .fabTileRamerr => ⟨0x70800028, 0, 1, 0, 1, false, 0x0, 0x80000000, 0x0⟩ -- R100
  | .fabQfaultCount => ⟨0x70800100, 0, 1, 0, 1, false, 0x0, 0x0, 0x0⟩ -- R402
  | .fabQfaultLast => ⟨0x70800104, 0, 1, 0, 1, false, 0x0, 0x80000000, 0x0⟩ -- R403
  | .fabXingUnstable => ⟨0x70800108, 0, 1, 0, 1, false, 0x0, 0x0, 0x0⟩ -- R402
  | .fabXingOverrun => ⟨0x7080010C, 0, 1, 0, 1, false, 0x0, 0x0, 0x0⟩ -- R402
  | .fabXingPeer => ⟨0x70800110, 0, 1, 0, 1, false, 0x0, 0x0, 0x0⟩ -- R402
  | .fabXingLast => ⟨0x70800114, 0, 1, 0, 1, false, 0x0, 0x80000000, 0x0⟩ -- R404
  | .memStatus => ⟨0x70900000, 0, 1, 0, 1, false, 0x0, 0x0, 0x0⟩ -- R368
  | .memCtl => ⟨0x70900004, 0, 1, 0, 1, false, 0x8000FFFF, 0x0, 0x80000000⟩ -- R369
  | .memTestCmd => ⟨0x70900008, 0, 1, 0, 1, false, 0x0, 0x0, 0x0⟩ -- R370
  | .memTestStat => ⟨0x7090000C, 0, 1, 0, 1, false, 0x0, 0x0, 0x0⟩ -- R371
  | .memErrAddr => ⟨0x70900010, 0, 1, 0, 1, false, 0x0, 0x80000000, 0x0⟩ -- R372
  | .memErrInfo => ⟨0x70900014, 0, 1, 0, 1, false, 0x0, 0x0, 0x0⟩ -- R372
  | .memNotifyMask => ⟨0x70900018, 0, 1, 0, 1, true, 0x1F, 0x0, 0x0⟩ -- R373
  | .memGrpCorr => ⟨0x70900100, 16, 16, 0, 1, false, 0x0, 0x0, 0x0⟩ -- R374
  | .memGrpUncorr => ⟨0x70900104, 16, 16, 0, 1, false, 0x0, 0x0, 0x0⟩ -- R374
  | .memGrpRepair => ⟨0x70900108, 16, 16, 0, 1, false, 0x0, 0x0, 0x0⟩ -- R374
  | .memGrpFailed => ⟨0x7090010C, 16, 16, 0, 1, false, 0x0, 0x0, 0x0⟩ -- R374
  | .memDomArea => ⟨0x70900200, 8, 4, 0, 1, false, 0x0, 0x0, 0x0⟩ -- R375
  | .memDomDenied => ⟨0x70900204, 8, 4, 0, 1, false, 0x0, 0x0, 0x0⟩ -- R375
  | .memConfLo => ⟨0x70901000, 8, 88, 0, 1, false, 0x0, 0x0, 0x0⟩ -- R376
  | .memConfHi => ⟨0x70901004, 8, 88, 0, 1, true, 0x0, 0x0, 0x0⟩ -- R376
  | .splStatus => ⟨0x70A00000, 0, 1, 0, 1, false, 0x0, 0x0, 0x0⟩ -- R333
  | .splCmd => ⟨0x70A00010, 0, 1, 0, 1, true, 0x0, 0x0, 0x0⟩ -- R334
  | .splCmdStat => ⟨0x70A00014, 0, 1, 0, 1, true, 0x0, 0x0, 0x0⟩ -- R335
  | .splCmdArg => ⟨0x70A00020, 4, 6, 0, 1, true, 0xFFFFFFFF, 0x0, 0x0⟩ -- R336
  | .splResult => ⟨0x70A00040, 4, 5, 0, 1, true, 0x0, 0x0, 0x0⟩ -- R336
  | .splMtInserts => ⟨0x70A00060, 0, 1, 0, 1, false, 0x0, 0x0, 0x0⟩ -- R337
  | .splMtEvicts => ⟨0x70A00064, 0, 1, 0, 1, false, 0x0, 0x0, 0x0⟩ -- R337
  | .splMtLookups => ⟨0x70A00068, 0, 1, 0, 1, false, 0x0, 0x0, 0x0⟩ -- R337
  | .splMtMisses => ⟨0x70A0006C, 0, 1, 0, 1, false, 0x0, 0x0, 0x0⟩ -- R337
  | .splMtSwept => ⟨0x70A00070, 0, 1, 0, 1, false, 0x0, 0x0, 0x0⟩ -- R337
  | .splNotifyMask => ⟨0x70A00078, 0, 1, 0, 1, true, 0x1F, 0x0, 0x0⟩ -- R338
  | .splCfg => ⟨0x70A10000, 64, 2112, 0, 1, false, 0x0, 0x0, 0x0⟩ -- R339
  | .splStat => ⟨0x70A10004, 64, 2112, 0, 1, false, 0x0, 0x0, 0x0⟩ -- R339
  | .splWptrLo => ⟨0x70A10008, 64, 2112, 0, 1, false, 0x0, 0x0, 0x0⟩ -- R339
  | .splWptrHi => ⟨0x70A1000C, 64, 2112, 0, 1, true, 0x0, 0x0, 0x0⟩ -- R339
  | .splLiveLo => ⟨0x70A10010, 64, 2112, 0, 1, false, 0x0, 0x0, 0x0⟩ -- R339
  | .splLiveHi => ⟨0x70A10014, 64, 2112, 0, 1, true, 0x0, 0x0, 0x0⟩ -- R339
  | .splSlot => ⟨0x70A10018, 64, 2112, 4, 4, false, 0x0, 0x0, 0x0⟩ -- R339
  | .splGaps => ⟨0x70A10028, 64, 2112, 0, 1, false, 0x0, 0x0, 0x0⟩ -- R339
  | .splLappedReq => ⟨0x70A1002C, 64, 2112, 0, 1, false, 0x0, 0x0, 0x0⟩ -- R339
  | .splResizeLost => ⟨0x70A10030, 64, 2112, 0, 1, false, 0x0, 0x0, 0x0⟩ -- R339
  | .laneStatus => ⟨0x70B00000, 0, 1, 0, 1, false, 0x0, 0x0, 0x0⟩ -- R249
  | .laneRun => ⟨0x70B00004, 4, 2, 0, 1, false, 0x0, 0x0, 0x0⟩ -- R250
  | .laneCmd => ⟨0x70B00010, 0, 1, 0, 1, false, 0x0, 0x0, 0x0⟩ -- R251
  | .laneCmdArg => ⟨0x70B00014, 0, 1, 0, 1, true, 0xFFFF, 0x0, 0x0⟩ -- R252
  | .laneCmdData => ⟨0x70B00018, 0, 1, 0, 1, true, 0xFFFFFFFF, 0x0, 0x0⟩ -- R252
  | .laneCmdStat => ⟨0x70B0001C, 0, 1, 0, 1, true, 0x0, 0x0, 0x0⟩ -- R252
  | .laneNotifyMask => ⟨0x70B00020, 0, 1, 0, 1, true, 0x7FF, 0x0, 0x0⟩ -- R253
  | .laneCfg => ⟨0x70B01000, 64, 64, 0, 1, false, 0xFFFF1FFF, 0x0, 0x60080000⟩ -- R254
  | .laneStat => ⟨0x70B01004, 64, 64, 0, 1, false, 0x0, 0x0, 0x0⟩ -- R255
  | .laneSync => ⟨0x70B01008, 64, 64, 0, 1, false, 0x0, 0x0, 0x0⟩ -- R256
  | .laneEye => ⟨0x70B0100C, 64, 64, 0, 1, false, 0xFFFF, 0x0, 0xA20⟩ -- R257
  | .laneChEn => ⟨0x70B01010, 64, 64, 0, 1, false, 0xFFFFFFFF, 0x0, 0x0⟩ -- R258
  | .laneFeId => ⟨0x70B01014, 64, 64, 0, 1, false, 0x0, 0x0, 0x0⟩ -- R259
  | .laneFeEq => ⟨0x70B01018, 64, 64, 0, 1, false, 0xFFF, 0x0, 0x0⟩ -- R259
  | .laneBlkErr => ⟨0x70B01020, 64, 64, 0, 1, false, 0x0, 0x0, 0x0⟩ -- R260
  | .laneFrameErr => ⟨0x70B01024, 64, 64, 0, 1, false, 0x0, 0x0, 0x0⟩ -- R260
  | .laneEventErr => ⟨0x70B01028, 64, 64, 0, 1, false, 0x0, 0x0, 0x0⟩ -- R260
  | .laneOrder => ⟨0x70B0102C, 64, 64, 0, 1, false, 0x0, 0x0, 0x0⟩ -- R260
  | .laneDisabled => ⟨0x70B01030, 64, 64, 0, 1, false, 0x0, 0x0, 0x0⟩ -- R260
  | .laneMissed => ⟨0x70B01034, 64, 64, 0, 1, false, 0x0, 0x0, 0x0⟩ -- R260
  | .laneRefused => ⟨0x70B01038, 64, 64, 0, 1, false, 0x0, 0x0, 0x0⟩ -- R260
  | .laneRetrains => ⟨0x70B0103C, 64, 64, 0, 1, false, 0x0, 0x0, 0x0⟩ -- R260
  | .laneSub => ⟨0x70B40000, 16, 2048, 0, 1, false, 0xFFE00FFF, 0x0, 0x0⟩ -- R261
  | .laneChMissed => ⟨0x70B40004, 16, 2048, 0, 1, false, 0x0, 0x0, 0x0⟩ -- R262
  | .laneChRefused => ⟨0x70B40008, 16, 2048, 0, 1, false, 0x0, 0x0, 0x0⟩ -- R262
  | .laneChQueue => ⟨0x70B4000C, 16, 2048, 0, 1, false, 0x0, 0x0, 0x0⟩ -- R263
  | .timeStatus => ⟨0x70C00000, 0, 1, 0, 1, false, 0x0, 0x0, 0x0⟩ -- R288
  | .timeNowLo => ⟨0x70C00004, 0, 1, 0, 1, false, 0x0, 0x0, 0x0⟩ -- R289
  | .timeNowHi => ⟨0x70C00008, 0, 1, 0, 1, true, 0x0, 0x0, 0x0⟩ -- R289
  | .timeTbsync => ⟨0x70C0000C, 0, 1, 0, 1, false, 0x80000000, 0x0, 0x80000000⟩ -- R290
  | .timeNotifyMask => ⟨0x70C00010, 0, 1, 0, 1, true, 0x7F, 0x0, 0x0⟩ -- R290
  | .timeRefCount => ⟨0x70C00014, 0, 1, 0, 1, false, 0x0, 0x0, 0x0⟩ -- R290
  | .timeSenseCfg => ⟨0x70C00100, 16, 64, 0, 1, false, 0xFFDF, 0x0, 0x200⟩ -- R291
  | .timeSenseSub => ⟨0x70C00104, 16, 64, 0, 1, false, 0xFFE00FFF, 0x0, 0x0⟩ -- R291
  | .timeSenseMissed => ⟨0x70C00108, 16, 64, 0, 1, false, 0x0, 0x0, 0x0⟩ -- R291
  | .timeSenseGlitch => ⟨0x70C0010C, 16, 64, 0, 1, false, 0x0, 0x0, 0x0⟩ -- R291
  | .timeQdCfg => ⟨0x70C00800, 32, 16, 0, 1, false, 0xFFBF0000, 0x0, 0x0⟩ -- R292
  | .timeQdCount => ⟨0x70C00804, 32, 16, 0, 1, false, 0x0, 0x0, 0x0⟩ -- R292
  | .timeQdLastCnt => ⟨0x70C00808, 32, 16, 0, 1, false, 0x0, 0x0, 0x0⟩ -- R292
  | .timeQdLastLo => ⟨0x70C0080C, 32, 16, 0, 1, true, 0x0, 0x0, 0x0⟩ -- R292
  | .timeQdLastHi => ⟨0x70C00810, 32, 16, 0, 1, true, 0x0, 0x0, 0x0⟩ -- R292
  | .timeQdSub => ⟨0x70C00814, 32, 16, 0, 1, false, 0x83E00FFF, 0x0, 0x0⟩ -- R292
  | .timeQdErrcnt => ⟨0x70C00818, 32, 16, 0, 1, false, 0x0, 0x0, 0x0⟩ -- R292
  | .timeQdCmd => ⟨0x70C0081C, 32, 16, 0, 1, false, 0x0, 0x0, 0x0⟩ -- R292
  | .pinStatus => ⟨0x70D00000, 0, 1, 0, 1, false, 0x0, 0x0, 0x0⟩ -- R439
  | .pinNotifyMask => ⟨0x70D00004, 0, 1, 0, 1, true, 0x1F, 0x0, 0x0⟩ -- R439
  | .pinBankCfg => ⟨0x70D00100, 64, 8, 0, 1, false, 0xE0FFFFFF, 0x0, 0x0⟩ -- R440
  | .pinBankStat => ⟨0x70D00104, 64, 8, 0, 1, false, 0x0, 0x0, 0x0⟩ -- R440
  | .pinIn => ⟨0x70D00108, 64, 8, 4, 2, false, 0x0, 0x0, 0x0⟩ -- R440
  | .pinOut => ⟨0x70D00110, 64, 8, 4, 2, false, 0xFFFFFFFF, 0x0, 0x0⟩ -- R440
  | .pinSet => ⟨0x70D00118, 64, 8, 4, 2, false, 0x0, 0x0, 0x0⟩ -- R440
  | .pinClr => ⟨0x70D00120, 64, 8, 4, 2, false, 0x0, 0x0, 0x0⟩ -- R440
  | .pinTgl => ⟨0x70D00128, 64, 8, 4, 2, false, 0x0, 0x0, 0x0⟩ -- R440
  | .pinDir => ⟨0x70D00130, 64, 8, 4, 2, false, 0xFFFFFFFF, 0x0, 0x0⟩ -- R440
  | .pinPend => ⟨0x70D00138, 64, 8, 4, 2, false, 0x0, 0xFFFFFFFF, 0x0⟩ -- R440
  | .pinEvtLost => ⟨0x70D00300, 16, 8, 0, 1, false, 0x0, 0x0, 0x0⟩ -- R441
  | .pinEvtRefused => ⟨0x70D00304, 16, 8, 0, 1, false, 0x0, 0x0, 0x0⟩ -- R441
  | .pinGwIgnored => ⟨0x70D00308, 16, 8, 0, 1, false, 0x0, 0x0, 0x0⟩ -- R441
  | .pwmCfg => ⟨0x70D00400, 16, 16, 0, 1, false, 0xF0000000, 0x0, 0x0⟩ -- R443
  | .pwmPeriod => ⟨0x70D00404, 16, 16, 0, 1, false, 0xFFFFFF, 0x0, 0x0⟩ -- R443
  | .pwmDuty => ⟨0x70D00408, 16, 16, 0, 1, false, 0xFFFFFF, 0x0, 0x0⟩ -- R443
  | .pwmStat => ⟨0x70D0040C, 16, 16, 0, 1, false, 0x0, 0x0, 0x0⟩ -- R443
  | .spiCfg => ⟨0x70D00800, 128, 8, 0, 1, false, 0xB80000FF, 0x0, 0x0⟩ -- R444
  | .spiCmd => ⟨0x70D00804, 128, 8, 0, 1, false, 0x0, 0x0, 0x0⟩ -- R444
  | .spiStat => ⟨0x70D00808, 128, 8, 0, 1, false, 0x0, 0x0, 0x0⟩ -- R444
  | .spiData => ⟨0x70D00840, 128, 8, 4, 16, false, 0xFFFFFFFF, 0x0, 0x0⟩ -- R444
  | .i2cCfg => ⟨0x70D00C00, 128, 4, 0, 1, false, 0x8C000000, 0x0, 0x0⟩ -- R444
  | .i2cCmd => ⟨0x70D00C04, 128, 4, 0, 1, false, 0x0, 0x0, 0x0⟩ -- R444
  | .i2cStat => ⟨0x70D00C08, 128, 4, 0, 1, false, 0x0, 0x0, 0x0⟩ -- R444
  | .i2cData => ⟨0x70D00C40, 128, 4, 4, 8, false, 0xFFFFFFFF, 0x0, 0x0⟩ -- R444
  | .pinCfg => ⟨0x70D01000, 16, 384, 0, 1, false, 0xFFFFF000, 0x0, 0x0⟩ -- R442
  | .pinEvt => ⟨0x70D01004, 16, 384, 0, 1, false, 0xFFFE0FFF, 0x0, 0x0⟩ -- R442
  | .pinStat => ⟨0x70D01008, 16, 384, 0, 1, false, 0x0, 0x10, 0x0⟩ -- R442
  | .pinArm => ⟨0x70D0100C, 16, 384, 0, 1, false, 0x0, 0x0, 0x0⟩ -- R442
  | .hlkStatus => ⟨0x70E00000, 0, 1, 0, 1, false, 0x0, 0x0, 0x0⟩ -- R481
  | .hlkNotifyMask => ⟨0x70E00004, 0, 1, 0, 1, true, 0xFF, 0x0, 0x0⟩ -- R482
  | .hlkPortCmd => ⟨0x70E00008, 0, 1, 0, 1, false, 0x0, 0x0, 0x0⟩ -- R482
  | .hlkDomReset => ⟨0x70E0000C, 0, 1, 0, 1, false, 0x0, 0x0, 0x0⟩ -- R482
  | .hlkNtfCfg => ⟨0x70E00010, 0, 1, 0, 1, true, 0xE0000000, 0x0, 0x0⟩ -- R483
  | .hlkNtfWptr => ⟨0x70E00014, 0, 1, 0, 1, true, 0x0, 0x0, 0x0⟩ -- R483
  | .hlkNtfRptr => ⟨0x70E00018, 0, 1, 0, 1, true, 0xFFFFFFFF, 0x0, 0x0⟩ -- R483
  | .hlkNtfLost => ⟨0x70E0001C, 0, 1, 0, 1, true, 0x0, 0x0, 0x0⟩ -- R483
  | .hlkLink => ⟨0x70E00100, 32, 4, 0, 1, false, 0x0, 0x0, 0x0⟩ -- R484
  | .hlkCrcErr => ⟨0x70E00104, 32, 4, 0, 1, false, 0x0, 0x0, 0x0⟩ -- R484
  | .hlkReplays => ⟨0x70E00108, 32, 4, 0, 1, false, 0x0, 0x0, 0x0⟩ -- R484
  | .hlkRetrains => ⟨0x70E0010C, 32, 4, 0, 1, false, 0x0, 0x0, 0x0⟩ -- R484
  | .hlkDomCfg => ⟨0x70E01000, 512, 4, 0, 1, false, 0x0, 0x0, 0x0⟩ -- R485
  | .hlkDomQuota => ⟨0x70E01004, 512, 4, 0, 1, false, 0x0, 0x0, 0x0⟩ -- R485
  | .hlkDomPins => ⟨0x70E01008, 512, 4, 0, 1, false, 0x0, 0x0, 0x0⟩ -- R485
  | .hlkDomRange => ⟨0x70E01010, 512, 4, 4, 8, false, 0x0, 0x0, 0x0⟩ -- R485
  | .hlkDomSpool => ⟨0x70E01080, 512, 4, 4, 66, false, 0x0, 0x0, 0x0⟩ -- R485
  | .obsStatus => ⟨0x70F00000, 0, 1, 0, 1, false, 0x0, 0x0, 0x0⟩ -- R617
  | .obsNotifyMask => ⟨0x70F00004, 0, 1, 0, 1, true, 0xF, 0x0, 0x0⟩ -- R617
  | .obsCtl => ⟨0x70F00008, 0, 1, 0, 1, true, 0x40000000, 0x0, 0x0⟩ -- R617
  | .obsTraceCfg => ⟨0x70F00010, 0, 1, 0, 1, false, 0xE0000000, 0x0, 0x0⟩ -- R617
  | .obsTraceWptr => ⟨0x70F00014, 0, 1, 0, 1, false, 0x0, 0x0, 0x0⟩ -- R617
  | .obsTraceDrop => ⟨0x70F00018, 0, 1, 0, 1, false, 0x0, 0x0, 0x0⟩ -- R617
  | .obsUtilSel => ⟨0x70F00020, 0, 1, 0, 1, true, 0xFFF, 0x0, 0x0⟩ -- R617
  | .obsUtil => ⟨0x70F00024, 0, 1, 0, 1, false, 0x0, 0x0, 0x0⟩ -- R617
  | .obsUtilMax => ⟨0x70F00028, 0, 1, 0, 1, false, 0x0, 0x0, 0x0⟩ -- R617
  | .obsProbeSrc => ⟨0x70F00100, 32, 16, 0, 1, false, 0xFFFFFFFF, 0x0, 0x0⟩ -- R617
  | .obsProbeStat => ⟨0x70F00104, 32, 16, 0, 1, false, 0x0, 0x0, 0x0⟩ -- R617
  | .obsProbeLast => ⟨0x70F00108, 32, 16, 4, 4, false, 0x0, 0x0, 0x0⟩ -- R617
  | .obsCntSrc => ⟨0x70F01000, 16, 512, 0, 1, false, 0xFFFFFFFF, 0x0, 0x0⟩ -- R617
  | .obsCntLo => ⟨0x70F01004, 16, 512, 0, 1, false, 0x0, 0x0, 0x0⟩ -- R617
  | .obsCntHi => ⟨0x70F01008, 16, 512, 0, 1, true, 0x0, 0x0, 0x0⟩ -- R617

/-- The registers of block SYS. -/
def regsSys : List Reg :=
  [.sysId, .sysReset, .sysResetCause, .sysNotifyMask, .sysLock]

/-- The registers of block BATCH. -/
def regsBatch : List Reg :=
  [.batchStat, .batchAddr, .batchData, .batchCmd, .batchAtLo, .batchAtHi,
   .batchDoneLo, .batchDoneHi, .batchFail, .batchFailAddr]

/-- The registers of block CFG. -/
def regsCfg : List Reg :=
  [.cfgStatus, .cfgErr, .cfgErrOffset, .cfgErrAddr, .cfgDesign, .cfgPdesign,
   .cfgWords, .cfgPartials, .cfgHash, .cfgPhash, .cfgLoadCmd, .cfgStream,
   .cfgNotifyMask, .cfgRegion]

/-- The registers of block SCRUB. -/
def regsScrub : List Reg :=
  [.scrubStatus, .scrubCfg, .scrubPassCount, .scrubCorrCount, .scrubEssCount, .scrubUncorrCount,
   .scrubVoteCount, .scrubLastErr, .scrubFaultInfo, .scrubBistCmd, .scrubBistStat, .scrubBistCount,
   .scrubRetSel, .scrubRetEntry, .scrubFuseCmd, .scrubFuseStat, .scrubNotifyMask]

/-- The registers of block SEC. -/
def regsSec : List Reg :=
  [.secStatus, .secNotifyMask, .secCtl, .secCmd, .secCmdStat, .secCmdArg,
   .secSlot, .secSlotHash, .secLedgerSeqLo, .secLedgerSeqHi, .secLedgerAckLo, .secLedgerAckHi,
   .secLedgerLost, .secLedgerFree, .secLedgerChain, .secRecSelLo, .secRecSelHi, .secRecStat,
   .secRec, .secDevid, .secIdMod, .secRpt]

/-- The registers of block PWR. -/
def regsPwr : List Reg :=
  [.pwrStatus, .pwrCmd, .pwrVlim, .pwrGov, .pwrTherm, .pwrPmb,
   .pwrWakeAtLo, .pwrWakeAtHi, .pwrShortCount, .pwrReg, .pwrNotifyMask, .pwrWakeSrc,
   .pwrTemp]

/-- The registers of block DST. -/
def regsDst : List Reg :=
  [.dstStatus, .dstPolicy, .dstThresh, .dstCap, .dstCmd, .dstCmdArg,
   .dstCmdStat, .dstInstSel, .dstInstStat, .dstInstPlace, .dstInstPressure, .dstTileSel,
   .dstTileMap, .dstMigCount, .dstAbortCount, .dstLastMig, .dstSwapCount]

/-- The registers of block PLY. -/
def regsPly : List Reg :=
  [.plyStatus, .plyWeight, .plyDeniedCount, .plyTornCount, .plyRangeCount, .plyUnsupCount,
   .plyRefuseLost, .plyLastRefusal, .plyLastRefusalAddr, .plyHoldFullCount, .plyNotifyMask]

/-- The registers of block FAB. -/
def regsFab : List Reg :=
  [.fabStatus, .fabCollideCount, .fabCollideLast, .fabParityCount, .fabRailCount, .fabTileSel,
   .fabTileStat, .fabTileRamerr, .fabQfaultCount, .fabQfaultLast, .fabXingUnstable, .fabXingOverrun,
   .fabXingPeer, .fabXingLast]

/-- The registers of block MEM. -/
def regsMem : List Reg :=
  [.memStatus, .memCtl, .memTestCmd, .memTestStat, .memErrAddr, .memErrInfo,
   .memNotifyMask, .memGrpCorr, .memGrpUncorr, .memGrpRepair, .memGrpFailed, .memDomArea,
   .memDomDenied, .memConfLo, .memConfHi]

/-- The registers of block SPL. -/
def regsSpl : List Reg :=
  [.splStatus, .splCmd, .splCmdStat, .splCmdArg, .splResult, .splMtInserts,
   .splMtEvicts, .splMtLookups, .splMtMisses, .splMtSwept, .splNotifyMask, .splCfg,
   .splStat, .splWptrLo, .splWptrHi, .splLiveLo, .splLiveHi, .splSlot,
   .splGaps, .splLappedReq, .splResizeLost]

/-- The registers of block LANE. -/
def regsLane : List Reg :=
  [.laneStatus, .laneRun, .laneCmd, .laneCmdArg, .laneCmdData, .laneCmdStat,
   .laneNotifyMask, .laneCfg, .laneStat, .laneSync, .laneEye, .laneChEn,
   .laneFeId, .laneFeEq, .laneBlkErr, .laneFrameErr, .laneEventErr, .laneOrder,
   .laneDisabled, .laneMissed, .laneRefused, .laneRetrains] ++
  [.laneSub, .laneChMissed, .laneChRefused, .laneChQueue]

/-- The registers of block TIME. -/
def regsTime : List Reg :=
  [.timeStatus, .timeNowLo, .timeNowHi, .timeTbsync, .timeNotifyMask, .timeRefCount,
   .timeSenseCfg, .timeSenseSub, .timeSenseMissed, .timeSenseGlitch, .timeQdCfg, .timeQdCount,
   .timeQdLastCnt, .timeQdLastLo, .timeQdLastHi, .timeQdSub, .timeQdErrcnt, .timeQdCmd]

/-- The registers of block PIN. -/
def regsPin : List Reg :=
  [.pinStatus, .pinNotifyMask, .pinBankCfg, .pinBankStat, .pinIn, .pinOut,
   .pinSet, .pinClr, .pinTgl, .pinDir, .pinPend, .pinEvtLost,
   .pinEvtRefused, .pinGwIgnored] ++
  [.pwmCfg, .pwmPeriod, .pwmDuty, .pwmStat, .spiCfg, .spiCmd, .spiStat, .spiData, .i2cCfg, .i2cCmd,
   .i2cStat, .i2cData] ++
  [.pinCfg, .pinEvt, .pinStat, .pinArm]

/-- The registers of block HLK. -/
def regsHlk : List Reg :=
  [.hlkStatus, .hlkNotifyMask, .hlkPortCmd, .hlkDomReset, .hlkNtfCfg, .hlkNtfWptr,
   .hlkNtfRptr, .hlkNtfLost, .hlkLink, .hlkCrcErr, .hlkReplays, .hlkRetrains,
   .hlkDomCfg, .hlkDomQuota, .hlkDomPins, .hlkDomRange, .hlkDomSpool]

/-- The registers of block OBS. -/
def regsObs : List Reg :=
  [.obsStatus, .obsNotifyMask, .obsCtl, .obsTraceCfg, .obsTraceWptr, .obsTraceDrop,
   .obsUtilSel, .obsUtil, .obsUtilMax, .obsProbeSrc, .obsProbeStat, .obsProbeLast,
   .obsCntSrc, .obsCntLo, .obsCntHi]

/-- The registers of block `b` in the order of R38. -/
def regsOf (b : Nat) : List Reg :=
  [regsSys, regsBatch, regsCfg, regsScrub, regsSec, regsPwr, regsDst, regsPly, regsFab, regsMem, regsSpl, regsLane, regsTime,
    regsPin, regsHlk, regsObs].getD b []

/-- The indexes of the instance of a register that an address names, if it names one. -/
def RegDesc.idx (d : RegDesc) (a : Nat) : Option (Nat × Nat) :=
  if a < d.base then none
  else
    let off := a - d.base
    let i := if d.s1 = 0 then 0 else off / d.s1
    let rest := if d.s1 = 0 then off else off % d.s1
    let j := if d.s2 = 0 then 0 else rest / d.s2
    let left := if d.s2 = 0 then rest else rest % d.s2
    if i < d.c1 ∧ j < d.c2 ∧ left = 0 then some (i, j) else none

/-- Find the register of a list that an address names. -/
def findReg : List Reg → Nat → Option (Reg × Nat × Nat)
  | [], _ => none
  | r :: t, a =>
    match (regDesc r).idx a with
    | some (i, j) => some (r, i, j)
    | none => findReg t a

/-- The register at an address of the register space (R38); none at an offset that no chapter assigns. -/
def regAt (a : Nat) : Option (Reg × Nat × Nat) := findReg (regsOf (a / 0x100000 % 16)) a

/-- The address of instance (i, j) of a register. -/
def Reg.addr (r : Reg) (i j : Nat) : Nat := (regDesc r).base + i * (regDesc r).s1 + j * (regDesc r).s2

/-- The block of a register, in the order of R38. -/
def Reg.block (r : Reg) : Nat := (regDesc r).base / 0x100000 % 16

/-- The value of a register after power-on reset. -/
def Reg.reset (r : Reg) : BitVec 32 := BitVec.ofNat 32 (regDesc r).reset

/-- The bits of a register whose reset the tables give as "cfg": what an image sets (R17, R500). -/
def cfgMask : Reg → Nat
  | .dstInstStat => 0x50FC0FFF
  | .dstInstPlace => 0xFF0FFF
  | .laneCfg => 0x8FC01FFF
  | .laneFeEq => 0xFFF
  | .timeSenseCfg => 0xDF
  | .timeQdCfg => 0xFC000000
  | .timeQdSub => 0x83E00FFF
  | .splStatus => 0x1FFF0000
  | .splStat => 0xC0000000
  | .laneChEn | .pinOut | .pinDir | .hlkDomSpool | .cfgDesign | .cfgHash => 0xFFFFFFFF
  | .memDomArea => 0x1FFF1FFF
  | .pinBankCfg => 0xE0FFFFFF
  | .pinCfg => 0xFFFFF000
  | .pinEvt => 0xFEFE0FFF
  | .pwmCfg => 0xF0000000
  | .spiCfg => 0xB80000FF
  | .i2cCfg => 0x8C000000
  | .hlkDomCfg => 0x1F
  | .hlkDomPins => 0xFF
  | .laneSub | .timeSenseSub => 0xFFE00FFF
  | .hlkDomRange => 0x80FFFFFF
  | .scrubCfg => 0xFF000000
  | .secStatus => 0xE000000
  | .pwrVlim => 0x3FF03FF
  | .splCfg | .hlkDomQuota => 0x1FFF
  | .pwmPeriod | .pwmDuty => 0xFFFFFF
  | _ => 0

end Sys2Proof.Machine
end

