-- ==== Sys2Proof/Machine/State.lean ====
section
/-! DEFINITION. State: everything the spec gives the machine, as plain data, and the machine right after power-on
reset. The stored registers stand in `regs`; a register that is a view of structured state is computed where it is
read (Machine/Read.lean). -/
namespace Sys2Proof.Machine

/-- The reasons a step could stop with a fault. None does: every error of this part is a completion status, a counter
or a notification (R22, R24), so a step goes on. -/
inductive Fault
  /-- Raised by nobody; kept so that the type has a name to show. Safe. -/
  | never
  deriving DecidableEq, Repr

/-- The reasons a step could have no meaning. -/
inductive Refusal
  /-- A command that the dispatch table does not model yet; raised only by Machine/Dispatch.lean. Safe: the machine
  stops where the part goes on. -/
  | notModelled (mnemonic : String)
  deriving DecidableEq, Repr

/-- A notification that waits for reel memory: its port, code, domain, the tick at which it was raised and its items. -/
structure EarlyNtf where
  port : Nat
  code : Nat
  dom : Nat
  time : Tick
  items : List Word
  deriving DecidableEq, Repr

/-- The bookkeeping of notifications (R468): codes issued in this TBSYNC interval with their subjects; the occurrences
held back for the next interval, as count, domain and items; the records each port has lost since its last overflow record; and the
records raised while reel memory takes no writes, in order (R269, R343). -/
structure NtfSt where
  sent : List Nat
  held : NMap (Nat × Nat × List Word)
  owed : NMap Nat
  early : List EarlyNtf
  deriving DecidableEq, Repr

/-- The part. -/
structure State where
  regs : NMap Word
  done : Done
  fresh : Nat
  mem : List Host.Cell
  fab : FabSt
  ply : PlySt
  dst : DstSt
  lanes : NMap LaneSt
  chans : NMap ChanSt
  fe : NMap FeTxn
  spl : SplSt
  memory : MemSt
  xng : XngSt
  pins : PinsSt
  time : TimeSt
  host : HostSt
  ldr : LdrSt
  scrub : ScrubSt
  sec : SecSt
  pwr : PwrSt
  obs : ObsSt
  ntf : NtfSt
  pending : List Instr
  deriving DecidableEq, Repr

/-- The part right after a power-on reset has taken effect, PORST_N still asserted (R577, R592, R593): every register
at the value of its table, memory zero (R343), the fabric clear and frozen (R88), every port OFF (R448), nothing
queued. -/
def State.reset : State :=
  { fab := FabSt.init, ply := PlySt.init, dst := DstSt.init, lanes := [], spl := SplSt.init, chans := [], memory := MemSt.init,
    fe := [], xng := XngSt.init, pins := PinsSt.init, ntf := { sent := [], held := [], owed := [], early := [] },
    time := TimeSt.init, host := HostSt.init, pending := [], ldr := LdrSt.init, scrub := ScrubSt.init, regs := [],
    sec := SecSt.init, pwr := PwrSt.init, mem := [], obs := ObsSt.init, done := Done.init, fresh := 0 }

end Sys2Proof.Machine
end

