-- ==== Sys2Proof/Machine/Ops.lean ====
section
/-! DEFINITION. Ops: the named operations over registers, memory and hard queues that every meaning goes through. -/
namespace Sys2Proof.Machine

/-! ## Registers -/

/-- The key of a stored register: its address, and the port's number above it where each port holds its own copy. -/
def regKey (r : Reg) (i j p : Nat) : Nat := r.addr i j + (if (regDesc r).perPort then p * 2 ^ 32 else 0)

/-- A stored register (instance `i`, `j`) as port `p` sees it. -/
def State.regP (s : State) (p : Nat) (r : Reg) (i j : Nat) : Word := NMap.get r.reset s.regs (regKey r i j p)
/-- A stored register that all ports share. -/
def State.reg (s : State) (r : Reg) (i : Nat) : Word := s.regP 0 r i 0
/-- Store a register for port `p`. -/
def State.setRegP (s : State) (p : Nat) (r : Reg) (i j : Nat) (v : Word) : State :=
  { s with regs := NMap.set r.reset s.regs (regKey r i j p) v }
/-- Store a register that all ports share. -/
def State.setReg (s : State) (r : Reg) (i : Nat) (v : Word) : State := s.setRegP 0 r i 0 v

/-- Add to a 32-bit count that saturates (R92 and the access rules of every block). -/
def satAdd (w : Word) (n : Nat) : Word := w32 (min (w.toNat + n) (2 ^ 32 - 1))
/-- Add to a counter register. -/
def State.bump (s : State) (r : Reg) (i n : Nat) : State := s.setReg r i (satAdd (s.reg r i) n)
/-- Add to a port's own counter register. -/
def State.bumpP (s : State) (p : Nat) (r : Reg) (n : Nat) : State := s.setRegP p r 0 0 (satAdd (s.regP p r 0 0) n)

/-- Record the status and the data of the operation that completes (R22, R23). -/
def State.finish (s : State) (st : Status) (data : List Word) : State := { s with done := { status := st, data := data } }
/-- Complete with a status and no data. -/
def State.stat (s : State) (st : Status) : State := s.finish st []

/-- The `k`-th free value of this moment (notes/assumptions/4.md). -/
def State.freeAt (s : State) (k : Nat) : BitVec 64 := Config.freeValue (512 * s.fresh + k)
/-- The first of them. -/
def State.free (s : State) : BitVec 64 := s.freeAt 0
/-- Move on to the next free value. -/
def State.nextFree (s : State) : State := { s with fresh := s.fresh + 1 }

/-- The present timebase value. -/
def State.now (s : State) : Tick := s.time.count

/-! ## Domains -/

/-- Whether range `r` of tenant `d` holds logical tile `t` (R458, R485). -/
def inRange (s : State) (d t r : Nat) : Bool :=
  let w := s.regP 0 .hlkDomRange d r
  bitOf w 31 && decide (fld w 23 12 ≤ t ∧ t < fld w 23 12 + fld w 11 0)
/-- The domain of a logical tile: the tenant whose ranges hold it, else domain 0 (R142, R458). -/
def tileDom (s : State) (t : Nat) : Fin 4 :=
  if (List.range 8).any (inRange s 1 t) then 1
  else if (List.range 8).any (inRange s 2 t) then 2
  else if (List.range 8).any (inRange s 3 t) then 3 else 0
/-- Whether tenant `d`'s bitmap holds spool `n`. -/
def spoolBit (s : State) (d n : Nat) : Bool := bitOf (s.regP 0 .hlkDomSpool d (n / 32)) (n % 32)
/-- The domain of a spool (R294, R458). -/
def spoolDom (s : State) (n : Nat) : Fin 4 :=
  if spoolBit s 1 n then 1 else if spoolBit s 2 n then 2 else if spoolBit s 3 n then 3 else 0
/-- Whether tenant `d`'s bitmap holds pin bank `b`. -/
def bankBit (s : State) (d b : Nat) : Bool := bitOf (s.reg .hlkDomPins d) b
/-- The domain of a pin bank (R458). -/
def bankDom (s : State) (b : Nat) : Fin 4 :=
  if bankBit s 1 b then 1 else if bankBit s 2 b then 2 else if bankBit s 3 b then 3 else 0
/-- The arbitration weight of a domain in force: at least 1 (R150). -/
def weightOf (s : State) (d : Nat) : Nat := max 1 (fld (s.reg .hlkDomCfg d) 4 0)

/-! ## Reel memory bytes -/

/-- The byte at a reel address; a byte that nothing has written reads 0 (R343). -/
def memByte (s : State) (a : Nat) : Byte := NMap.get 0 s.mem a
/-- Write a byte. -/
def State.putByte (s : State) (a : Nat) (b : Byte) : State := { s with mem := NMap.set 0 s.mem a b }
/-- Write bytes from an address up. -/
def State.putBytes (s : State) (a : Nat) : List Byte → State
  | [] => s
  | b :: t => (s.putByte a b).putBytes (a + 1) t
/-- `n` bytes from an address up. -/
def memBytes (s : State) (a : Nat) : Nat → List Byte
  | 0 => []
  | n + 1 => memByte s a :: memBytes s (a + 1) n
/-- The 32-bit word at an address (R9). -/
def memWord (s : State) (a : Nat) : Word := w32 (leNat (memBytes s a 4))
/-- The reel word `n` (64 data bits, R7). -/
def reelWord (s : State) (n : Nat) : DWord := BitVec.ofNat 64 (leNat (memBytes s (8 * n) 8))
/-- Give reel words `n`, `n + 1`, … fresh check bits: a word that is written whole has none flipped (R347). -/
def State.freshCheck (s : State) (n : Nat) : Nat → State
  | 0 => s
  | k + 1 => ({ s with memory := { s.memory with err := s.memory.err.erase n } }).freshCheck (n + 1) k
/-- The part writes 32-bit words at an 8-byte-aligned address, with fresh check bits. -/
def State.putWords (s : State) (a : Nat) (ws : List Word) : State :=
  (s.putBytes a (bytesOfWords ws)).freshCheck (a / 8) ((ws.length + 1) / 2)

/-! ## Hard queues -/

/-- Both copies of each pointer agree (R399). -/
def HQ.ok {α : Type} (q : HQ α) : Bool := q.rd == q.rd2 && q.wr == q.wr2
/-- Enter an item: both copies of the write pointer move. -/
def HQ.push {α : Type} (cap : Nat) (q : HQ α) (x : α) : HQ α :=
  { q with items := q.items ++ [x], wr := (q.wr + 1) % cap, wr2 := (q.wr2 + 1) % cap }
/-- Take the oldest item: both copies of the read pointer move. -/
def HQ.pop {α : Type} (cap : Nat) (q : HQ α) : HQ α :=
  match q.items with
  | [] => q
  | _ :: t => { q with items := t, rd := (q.rd + 1) % cap, rd2 := (q.rd2 + 1) % cap }
/-- Reset to empty, both copies equal (R399). -/
def HQ.clear {α : Type} (q : HQ α) : HQ α := { items := [], rd := q.rd, rd2 := q.rd, wr := q.rd, wr2 := q.rd, ovr := q.ovr }

/-! ## Tallies -/

/-- Add to the running 16-bit tally of an event source (R603, R606). -/
def tallyN (cls idx ev n : Nat) (s : State) : State :=
  let key := place 28 4 cls + place 16 12 idx + place 12 4 ev
  { s with obs := { s.obs with tally := s.obs.tally.modify 0 key (· + BitVec.ofNat 16 n) } }
/-- One occurrence at an event source. -/
def tally (cls idx ev : Nat) (s : State) : State := tallyN cls idx ev 1 s

/-! ## Rounds of weighted turns -/

/-- A round of weighted turns over classes 0 to n − 1 (R134, R353): the first in order that is ready and has turns left,
in a new round where none has; a class that is not ready gives up its turns. The result is the class served and the
turns left; `cost` turns are spent. -/
def roundPickN (n : Nat) (weight left : Nat → Nat) (ready : Nat → Bool) (cost : Nat → Nat) :
    Option (Nat × (Nat → Nat)) :=
  let after (l : Nat → Nat) (d : Nat) : Nat → Nat := fun e => if ready e then (if e = d then l e - cost e else l e) else 0
  match (List.range n).find? (fun d => ready d && decide (0 < left d)) with
  | some d => some (d, after left d)
  | none =>
    match (List.range n).find? ready with
    | some d => some (d, after weight d)
    | none => none
/-- Store the turns of n classes of a round under keys n·b to n·b + n − 1. -/
def putTurnsN (n : Nat) (m : NMap Nat) (b : Nat) (f : Nat → Nat) : NMap Nat :=
  (List.range n).foldl (fun m d => m.set 0 (n * b + d) (f d)) m
/-- Rotation: of the numbers in `l`, the smallest above `last`, else the smallest. -/
def nextInTurn (l : List Nat) (last : Option Nat) : Option Nat :=
  let low (l : List Nat) : Option Nat := l.foldl (fun a x => match a with
    | some y => some (min y x)
    | none => some x) none
  match last with
  | some k =>
    match low (l.filter (fun x => decide (k < x))) with
    | some x => some x
    | none => low l
  | none => low l

/-! ## Lists -/

/-- Apply `f` for each element in turn. -/
def forEach {α : Type} (l : List α) (f : α → State → State) (s : State) : State := l.foldl (fun s x => f x s) s
/-- Replace the element at index `k`. -/
def setAt {α : Type} (l : List α) (k : Nat) (x : α) : List α := l.set k x

end Sys2Proof.Machine
end

