-- ==== Sys2Proof/Machine/Banks.lean ====
section
/-! DEFINITION. Banks: the banks of reel memory, who waits at them and what a slot costs the others (R341, R345, R353,
R354, R357, R359), and who has the next slot (R353, R356). How a request is performed stands in Memory.lean. -/
namespace Sys2Proof.Machine

/-! ## Places -/

/-- The bank, 16 × group + bank, of a reel word (R341). -/
def bankOf (w : Nat) : Nat := 16 * (w / 2 ^ 22) + w % 16
/-- A bank's state. -/
def bank (s : State) (b : Nat) : BankSt := s.memory.banks.get BankSt.init b
/-- Change the memory's own state. -/
def State.onMem (s : State) (f : MemSt → MemSt) : State := { s with memory := f s.memory }
/-- Store a bank's state. -/
def State.setBank (s : State) (b : Nat) (x : BankSt) : State :=
  s.onMem (fun m => { m with banks := m.banks.set BankSt.init b x })
/-- Whether reel memory takes accesses: initialised, at its Run level (R343, R365). -/
def memLive (s : State) : Bool := s.memory.initDone && !s.memory.vret

/-! ## Spools in reel memory -/

/-- A spool. -/
def spoolOf (s : State) (n : Nat) : SpoolSt := s.spl.spools.get SpoolSt.init n
/-- Store a spool. -/
def State.setSpool (s : State) (n : Nat) (x : SpoolSt) : State :=
  { s with spl := { s.spl with spools := s.spl.spools.set SpoolSt.init n x } }
/-- The size of a spool's ring in bytes (R293). -/
def ringSize (x : SpoolSt) : Nat := 65536 * x.size
/-- The segment of an offset. -/
def segOf (x : SpoolSt) (o : Nat) : Nat := o % ringSize x / 65536
/-- The 64 KiB position that holds an offset (R190): during a swap the new one for what has been written since the
writer entered it. -/
def posOf (x : SpoolSt) (o : Nat) : Nat :=
  match x.swap with
  | some w => if segOf x o = w.seg ∧ o < w.since then w.old else x.segs.getD (segOf x o) 0
  | none => x.segs.getD (segOf x o) 0
/-- The byte address of an offset (R295). -/
def offAddr (x : SpoolSt) (o : Nat) : Nat := 65536 * posOf x o + o % 65536
/-- The offset at which the next record word goes. -/
def appendAt (x : SpoolSt) : Nat := if x.half.isSome ∧ x.w % 8 = 0 then x.w + 4 else x.w
/-- The reel word that the next record word completes; none where a first half comes next, which waits in the spool
buffer (R345). -/
def halfWord (x : SpoolSt) : Option Nat :=
  if x.size ≠ 0 ∧ appendAt x % 8 = 4 then some (offAddr x (appendAt x - 4) / 8) else none

/-- Whether a bank group is in retention (R363). -/
def retained (s : State) (g : Nat) : Bool := s.memory.ret.contains g
/-- An access wakes a group that is in retention (R364). -/
def askWake (g : Nat) (s : State) : State := if retained s g then s.onMem (fun m => { m with waking := insertNat g m.waking }) else s
/-- The bank groups that hold a spool's segments. -/
def spoolGroups (x : SpoolSt) : List Nat :=
  (x.segs ++ (match x.swap with
    | some w => [w.old]
    | none => [])).foldl (fun l u => insertNat (u / 512) l) []
/-- An access to a spool: while a group that holds it is in retention, it wakes the group and waits (R364). -/
def whenAwake (n : Nat) (act : State → State) (s : State) : State :=
  let l := (spoolGroups (spoolOf s n)).filter (retained s)
  if l.isEmpty then act s else forEach l askWake s

/-! ## Lane writers -/

/-- A lane. -/
def lane (s : State) (n : Nat) : LaneSt := s.lanes.get LaneSt.init n
/-- Store a lane. -/
def State.setLane (s : State) (n : Nat) (x : LaneSt) : State := { s with lanes := s.lanes.set LaneSt.init n x }
/-- The spool of a buffered record. -/
def recSpool : WRec → Nat
  | .event n _ _ _ => n
  | .gap n _ _ _ _ _ => n
/-- The spool of the record that a lane writer writes now or next. -/
def writerSpool (x : LaneSt) : Option Nat :=
  match x.cur, x.wbuf, x.wq.items with
  | some c, _, _ => some c.spool
  | none, r :: _, _ => some (recSpool r)
  | none, [], (r :: _) :: _ => some (recSpool r)
  | _, _, _ => none
/-- The reel word for which a lane writer waits at its bank (R42, R353). -/
def writerWord (s : State) (x : LaneSt) : Option Nat :=
  match writerSpool x with
  | some n => if x.slot then none else halfWord (spoolOf s n)
  | none => none
/-- The lane writers that wait at a bank, in ascending order. -/
def writersAt (s : State) (b : Nat) : List Nat :=
  s.lanes.filterMap (fun e => match writerWord s e.2 with
    | some w => if bankOf w = b then some e.1 else none
    | none => none)

/-! ## Slots (R353, R354, R357) -/

/-- The masters that wait at a bank, each once. -/
def waitingMasters (s : State) (b : Nat) : List Nat :=
  (bank s b).reqs.foldl (fun l e => insertNat e.2.1 l) (writersAt s b)
/-- Add stalled cycles to a master's conflict counter, which saturates (R354). -/
def stall (m n : Nat) (s : State) : State :=
  s.onMem (fun x =>
    let c := BitVec.ofNat 48 (min ((x.conf.get 0 m).toNat + n) (2 ^ 48 - 1))
    { x with conf := x.conf.set 0 m c })
/-- Masters stall for a slot, two cycles, at a bank of a group; Distaff and observation see the same (R354, R190). -/
def stallSlot (g : Nat) (ms : List Nat) (s : State) : State :=
  let s := tallyN 4 g 1 (2 * ms.length) (forEach ms (fun m => stall m 2) s)
  { s with dst := { s.dst with grpStall := s.dst.grpStall.modify 0 g (· + 2 * ms.length) } }
/-- Whether a reel word lies in the region under test: its shadow serves it (R359). -/
def inTest (s : State) (w : Nat) : Bool :=
  s.memory.test.any (fun t => bankOf w == 16 * t.group + t.bank && w % 2 ^ 22 / 512 == t.region)
/-- The next slot of a bank is the tester's (R357): the slots 0, 2 and 4 of every five, of the 320 of a region test. -/
def testerNext (s : State) (b : Nat) : Bool :=
  s.memory.test.any (fun t => 16 * t.group + t.bank == b && decide (t.slot < 320 ∧ t.slot % 5 % 2 = 0))
/-- A slot of a bank passes; the region test that runs in it counts it. -/
def slotPassed (b : Nat) (s : State) : State :=
  s.onMem (fun m => { m with test := m.test.map (fun t => if 16 * t.group + t.bank = b then { t with slot := t.slot + 1 } else t) })
/-- The tester's slots go by, at most two in a row; all who wait stall, `also` among them. -/
def testerSlots (b : Nat) (also : List Nat) : Nat → State → State
  | 0, s => s
  | k + 1, s =>
    if testerNext s b then
      testerSlots b also k (slotPassed b (stallSlot (b / 16) (also.foldl (fun l m => insertNat m l) (waitingMasters s b)) s))
    else s
/-- A master takes `n` slots of a bank, with the tester's between them (R344); all others that wait stall, `also` among
them. -/
def takeSlots (b master : Nat) (also : List Nat) : Nat → State → State
  | 0, s => s
  | k + 1, s =>
    let s := testerSlots b (master :: also) 2 s
    takeSlots b master also k
      (slotPassed b (stallSlot (b / 16) (removeNat master (also.foldl (fun l m => insertNat m l) (waitingMasters s b))) s))
/-- An island's clock runs again (R390). -/
def wakeIsl (isl idx : Nat) (s : State) : State := { s with xng := { s.xng with stopped := removeNat (64 * isl + idx) s.xng.stopped } }
/-- A master accesses a reel word in `n` slots of its bank, while others wait there, `also` among them; a word under test uses
none (R359). The group counts the access; a stopped memory island wakes for it (R390). -/
def takeSlot (w master : Nat) (also : List Nat) (n : Nat) (s : State) : State :=
  let b := bankOf w
  let s := wakeIsl 3 0 s
  let s :=
    if inTest s w then s
    else
      let s := takeSlots b master also n s
      s.setBank b { bank s b with lastCapture := decide (master < 64) }
  let s := tally 4 (b / 16) 0 (s.onMem (fun m => { m with lastUse := m.lastUse.set 0 (b / 16) s.now }))
  { s with dst := { s.dst with grpAcc := s.dst.grpAcc.modify 0 (b / 16) (· + 1) } }

/-! ## Bank arbitration (R352, R353, R356) -/

/-- The word requests of an operation on bytes [a, a + n) with data `bs` (empty for a read). -/
def wordReqs (op a n : Nat) (bs : List Byte) : List WordReq :=
  let first := a / 8
  let last := (a + n - 1) / 8
  (List.range (last + 1 - first)).map (fun i =>
    let w := first + i
    let at_ (k : Nat) : Option Nat := if a ≤ 8 * w + k ∧ 8 * w + k < a + n then some (8 * w + k - a) else none
    let mask := (List.range 8).foldl (fun m k => if (at_ k).isSome then m + 2 ^ k else m) 0
    let data := (List.range 8).foldl (fun d k => match at_ k with
      | some j => d + (bs.getD j 0).toNat * 2 ^ (8 * k)
      | none => d) 0
    { op := op, word := w, mask := BitVec.ofNat 8 mask, data := BitVec.ofNat 64 data })
/-- Whether a request is a read-modify-write of two slots (R344). -/
def isRmw (kind : MemKind) (mask : Byte) : Bool :=
  match kind with
  | .rd => false
  | .wr => mask != 0xFF
  | _ => true
/-- The turns of a class in a round: one for the system class, the domain's weight for a domain (R353). -/
def classWeight (s : State) (c : Nat) : Nat := if c = 0 then 1 else weightOf s (c - 1)
/-- The oldest request of a master and class at a bank. -/
def oldestOf (x : BankSt) (master cls : Nat) : Option WordReq :=
  (x.reqs.find? (fun e => e.2.1 == master && e.2.2 == cls)).map (·.1)
/-- Who is served in a slot of a bank (R353): its class (none: capture) and master, and the turns as they stand then. -/
structure Turn where
  cls : Option Nat
  master : Nat
  left : Nat → Nat
  debt : Nat → Nat
/-- The slots that a request takes: a read-modify-write two (R344). -/
def reqCost (s : State) (r : WordReq) : Nat :=
  match s.memory.ops.find r.op with
  | some o => if isRmw o.kind r.mask then 2 else 1
  | none => 1
/-- The class that has a bank's next turn (R353): in order, the first that waits and has turns left; in a new round where
none has. A class that does not wait gives up its turns. A read-modify-write that finds one turn left has the other in
advance, and the next round is shorter by it (R356). -/
def pickTurn (weight : Nat → Nat) (ready : Nat → Bool) (cost : Nat → Nat) :
    Nat → (Nat → Nat) → (Nat → Nat) → Option (Nat × (Nat → Nat) × (Nat → Nat))
  | 0, _, _ => none
  | k + 1, left, debt =>
    match (List.range 5).find? (fun c => ready c && decide (0 < left c)) with
    | some c =>
      some (c, fun e => if ready e then (if e = c then left e - cost e else left e) else 0,
        fun e => if e = c then debt e + (cost e - left e) else debt e)
    | none =>
      if (List.range 5).any ready then pickTurn weight ready cost k (fun c => weight c - debt c) (fun c => debt c - weight c) else none
/-- Who comes first by R353 of lane writers and of requests at a bank, and where one asks a master of a class: a capture
request unless capture had the slot before and another class waits; else a class by rounds; masters in rotation. -/
def pickAmong (s : State) (b : Nat) (writers : List Nat) (reqs : List (WordReq × Nat × Nat)) (ask : Option (Option Nat × Nat)) :
    Option Turn :=
  let x := bank s b
  let asker (c : Option Nat) : List Nat := match ask with
    | some (d, m) => if d = c then [m] else []
    | none => []
  let writers := writers ++ asker none
  let masters (c : Nat) : List Nat := (reqs.filter (fun e => e.2.2 == c)).map (·.2.1) ++ asker (some c)
  let next (c : Nat) : Option Nat := nextInTurn (masters c) (x.lastMaster.find c)
  let others := (List.range 5).any (fun c => !(masters c).isEmpty)
  if !writers.isEmpty && !(x.lastCapture && others) then
    (nextInTurn writers (x.lastMaster.find 5)).map (fun m =>
      { cls := none, master := m, left := fun c => x.left.get 0 c, debt := fun c => x.debt.get 0 c })
  else
    let cost (c : Nat) : Nat := match (next c).bind (fun m => oldestOf x m c) with
      | some r => reqCost s r
      | none => 1
    match pickTurn (classWeight s) (fun c => !(masters c).isEmpty) cost 4 (fun c => x.left.get 0 c) (fun c => x.debt.get 0 c) with
    | some (c, left, debt) => (next c).map (fun m => { cls := some c, master := m, left := left, debt := debt })
    | none => none
/-- Who has the next slot of a bank (R353): one of those that wait there or, where one asks, a master of a class. -/
def pickSlot (s : State) (b : Nat) (ask : Option (Option Nat × Nat)) : Option Turn :=
  pickAmong s b (writersAt s b) (bank s b).reqs ask
/-- The bank records who was served. -/
def BankSt.served (x : BankSt) (t : Turn) : BankSt :=
  { x with left := putTurnsN 5 x.left 0 t.left, debt := putTurnsN 5 x.debt 0 t.debt,
           lastMaster := x.lastMaster.put (t.cls.getD 5) t.master }

/-! ## Words -/

/-- Write a reel word whole, with fresh check bits; a write-back that waits for it is cancelled (R344, R347). -/
def putReel (w : Nat) (d : DWord) (s : State) : State :=
  let s := s.putBytes (8 * w) (bytesOf64 d)
  s.onMem (fun m => { m with err := m.err.erase w, fixq := m.fixq.set [] (bankOf w) (removeNat w (m.fixq.get [] (bankOf w))) })

end Sys2Proof.Machine
end

