-- ==== Sys2Proof/Machine/Notify.lean ====
section
/-! DEFINITION. Notify: notifications — masks, records and their queues (R467, R468, R638), once in an interval (R147) — and
queue faults (R399, R401). -/
namespace Sys2Proof.Machine

/-- The NOTIFY_MASK register of a class (R638). Class 6 is masked by the ply network's alone, and class 5 (Distaff) by none:
the chapters of DST and FAB raise notifications and give no NOTIFY_MASK. DESIGN CHOICE, notes/assumptions/72.md: they are never
withheld (unsafe). -/
def maskReg (cls : Nat) : Option Reg :=
  [some .sysNotifyMask, some .cfgNotifyMask, some .scrubNotifyMask, some .secNotifyMask, some .pwrNotifyMask, none,
    some .plyNotifyMask, some .memNotifyMask, some .splNotifyMask, some .laneNotifyMask, some .timeNotifyMask,
    some .pinNotifyMask, some .hlkNotifyMask, some .obsNotifyMask].getD cls none
/-- Whether port `p` withholds code `c` from its queue. -/
def masked (s : State) (p c : Nat) : Bool :=
  match maskReg (c / 16) with
  | some r => bitOf (s.regP p r 0 0) (c % 16)
  | none => false

/-- The record of R467: code, domain concerned, the port's record number, the tick, the items. -/
def ntfRecord (code dom seq : Nat) (t : Tick) (items : List Word) : List Word :=
  [w32 (place 24 8 code + place 22 2 dom + place 0 16 seq), lo32 t, hi32 t] ++
    ((items ++ [0, 0, 0, 0, 0]).take 5)

/-- The byte address of record `n` in port `p`'s queue (R468). -/
def ntfAddr (p n : Nat) : Nat := 0x1FD00000 + p * 0x40000 + n % 8192 * 32

/-- The state of port `p`. -/
def port (s : State) (p : Nat) : PortSt := NMap.get PortSt.init s.host.ports p
/-- Store the state of port `p`. -/
def State.setPort (s : State) (p : Nat) (x : PortSt) : State :=
  { s with host := { s.host with ports := NMap.set PortSt.init s.host.ports p x } }

/-- The records of port `p` on their way to their banks. -/
def goingOf (s : State) (p : Nat) : Nat := (s.memory.ops.filter (fun e => e.2.src == .notice p)).length
/-- The records of port `p` that are not in its queue yet: on their way, or waiting for reel memory. -/
def earlyOf (s : State) (p : Nat) : Nat := goingOf s p + (s.ntf.early.filter (fun e => e.port == p)).length
/-- Whether port `p`'s queue of 8,192 records is full (R468). -/
def ntfFull (s : State) (p : Nat) : Bool :=
  decide (8192 ≤ (s.regP p .hlkNtfWptr 0 0 - s.regP p .hlkNtfRptr 0 0).toNat + earlyOf s p)
/-- A record of port `p` is in its queue (R468): WPTR counts it, and with PUSH it is also to be sent as an NTF packet. -/
def noticeWritten (p : Nat) (s : State) : State :=
  let w := s.regP p .hlkNtfWptr 0 0
  let s := s.setRegP p .hlkNtfWptr 0 0 (w + 1)
  if bitOf (s.regP p .hlkNtfCfg 0 0) 31 then
    s.setPort p { port s p with ntfBack := (port s p).ntfBack ++ [w.toNat] }
  else s
/-- Master 80 + p has the next slot of a word's bank at once, for nobody else waits there. -/
def soleSlot (p w : Nat) (s : State) : State :=
  let b := bankOf w
  takeSlot w (80 + p) [] 1 (match pickSlot s b (some (some (1 + p), 80 + p)) with
    | some t => if inTest s w then s else s.setBank b ((bank s b).served t)
    | none => s)
/-- Nobody waits at the banks of a record's words. -/
def noticeFree (s : State) (rs : List WordReq) : Bool :=
  rs.all (fun r => inTest s r.word || (waitingMasters s (bankOf r.word)).isEmpty)
/-- Write the record of a notification raised at `t` into port `p`'s queue, on master 80 + p in the class of domain p (R42, R43,
R352, R468): in the next slots of its banks where nobody waits there; else its words wait at them and are served by R353. -/
def writeNotice (p code dom : Nat) (t : Tick) (items : List Word) (s : State) : State :=
  let id := s.memory.nextOp
  let w := s.regP p .hlkNtfWptr 0 0 + w32 (goingOf s p)
  let a := ntfAddr p w.toNat
  let rs := wordReqs id a 32 (bytesOfWords (ntfRecord code dom w.toNat t items))
  if goingOf s p = 0 ∧ noticeFree s rs then
    noticeWritten p (forEach rs (fun r s => putReel r.word r.data (soleSlot p r.word s)) s)
  else
    let o : MemOp := { kind := .wr, master := 80 + p, dom := Fin.ofNat 4 p, src := .notice p, addr := a, count := 32, left := 4, got := [],
                       status := 0, refused := false }
    forEach rs (fun r s => let b := bankOf r.word
                           s.setBank b { bank s b with reqs := (bank s b).reqs ++ [(r, 80 + p, 1 + p)] })
      (s.onMem (fun m => { m with nextOp := id + 1, ops := m.ops.put id o }))
/-- Write a record into port `p`'s queue, or count it lost when the queue is full (R468); while reel memory takes no writes it
waits (R269, R343). -/
def queueRecord (p code dom : Nat) (items : List Word) (s : State) : State :=
  if ntfFull s p then
    let s := s.bumpP p .hlkNtfLost 1
    { s with ntf := { s.ntf with owed := s.ntf.owed.modify 0 p (· + 1) } }
  else if memLive s then writeNotice p code dom s.now items s
  else { s with ntf := { s.ntf with early := s.ntf.early ++ [{ port := p, code := code, dom := dom, time := s.now, items := items }] } }
/-- Reel memory takes writes again: the records that waited are written (R269). -/
def writeEarly (s : State) : State :=
  forEach s.ntf.early (fun e => writeNotice e.port e.code e.dom e.time e.items) { s with ntf := { s.ntf with early := [] } }

/-- Deliver a notification to each port named that does not mask it. -/
def notifyPorts (code dom : Nat) (items : List Word) : List Nat → State → State
  | [], s => s
  | p :: t, s => notifyPorts code dom items t (if masked s p code then s else queueRecord p code dom items s)

/-- The ports a notification reaches: the owner, and tenant `d` where the domain concerned is a tenant's. -/
def toDom (d : Nat) : List Nat := if d = 0 then [0] else [0, d]
/-- Deliver to the owner and to the domain concerned. -/
def notify (code dom : Nat) (items : List Word) (s : State) : State := notifyPorts code dom items (toDom dom) s
/-- Deliver to the owner alone. -/
def notifyOwner (code dom : Nat) (items : List Word) (s : State) : State := notifyPorts code dom items [0] s

/-- A notification raised at most once per subject in each TBSYNC interval, with the count of occurrences after its items (R147,
R467): further occurrences of the interval are held back for the next one. -/
def notifyOnce (code subj dom n : Nat) (items : List Word) (s : State) : State :=
  let key := code * 2 ^ 20 + subj
  if key ∈ s.ntf.sent then
    let c := ((s.ntf.held.find key).map (·.1)).getD 0
    { s with ntf := { s.ntf with held := s.ntf.held.put key (c + n, dom, items) } }
  else notify code dom (items ++ [w32 n]) { s with ntf := { s.ntf with sent := insertNat key s.ntf.sent } }
/-- A TBSYNC interval begins: what was held back is raised, one notification per subject. -/
def newInterval (s : State) : State :=
  let l := s.ntf.held
  l.foldl (fun s e => notify (e.1 / 2 ^ 20) e.2.2.1 (e.2.2.2 ++ [w32 e.2.1]) s)
    { s with ntf := { s.ntf with sent := l.map (·.1), held := [] } }

/-- QUEUE_FAULT (R399, R401): counted, recorded and raised to the owner and the queue's domain. -/
def queueFault (cls idx dom : Nat) (s : State) : State :=
  let s := s.bump .fabQfaultCount 0 1
  let s := s.setReg .fabQfaultLast 0 (w32 (place 31 1 1 + place 13 4 cls + place 0 13 idx))
  notify 0x66 dom [w32 cls, w32 idx, 1] s

end Sys2Proof.Machine
end

