-- ==== Sys2Proof/Machine/Tile.lean ====
section
/-! DEFINITION. Tile: how a tile reads its configuration (R51–R67, R86), which tokens its inputs see (R46–R62,
R79–R85), and how acknowledges fall once a handshake is over (R47, R49). Tiles are physical: 64 × column + row. -/
namespace Sys2Proof.Machine

/-! ## Places -/

/-- The key of a configuration word: 64 × frame + word, frame = 40 × tile + minor (R495). -/
def cfgKey (tile minor word : Nat) : Nat := 64 * (40 * tile + minor) + word
/-- A configuration word. -/
def cfgWord (s : State) (tile minor word : Nat) : Word := s.fab.cfg.get 0 (cfgKey tile minor word)
/-- The user state of a tile. -/
def tileSt (s : State) (t : Nat) : TileSt := s.fab.tiles.get TileSt.init t
/-- Store the user state of a tile. -/
def State.setTile (s : State) (t : Nat) (x : TileSt) : State :=
  { s with fab := { s.fab with tiles := s.fab.tiles.set TileSt.init t x } }
/-- Change the user state of a tile. -/
def State.onTile (s : State) (t : Nat) (f : TileSt → TileSt) : State := s.setTile t (f (tileSt s t))

/-- The tile-map entry of a logical tile (R163). -/
def mapEnt (s : State) (t : Nat) : Word := s.dst.map.get 0 t
/-- Whether a logical tile is mapped, which is to say used by the loaded image. -/
def mapped (s : State) (t : Nat) : Bool := bitOf (mapEnt s t) 31
/-- Whether a logical tile's instance is fenced. -/
def fenced (s : State) (t : Nat) : Bool := bitOf (mapEnt s t) 30
/-- The physical tile of a mapped logical tile. -/
def physOf (s : State) (t : Nat) : Nat := fld (mapEnt s t) 11 0
/-- The logical tile that a physical tile runs, if it runs one. -/
def logicalAt (s : State) (p : Nat) : Option Nat :=
  (s.dst.map.find? (fun e => bitOf e.2 31 && decide (fld e.2 11 0 = p))).map (·.1)
/-- Whether a logical tile lies in the region that a partial load has frozen or left torn (R89, R520, R522). -/
def tileFrozen (s : State) (t : Nat) : Bool :=
  match s.ldr.region with
  | some r => r.ranges.any (fun e => decide (e.1 ≤ t ∧ t < e.1 + e.2))
  | none => false
/-- VCORE holds its Run level: Run, Idle, or an entry that has not reached the clamps (R576, R580, R584). -/
def coreLive (s : State) : Bool := s.pwr.state == 0 || s.pwr.state == 1 || s.pwr.state == 4
/-- Whether a physical tile is a source of the migration whose copy is being made: its tokens stand still from step 3
to step 5 (R175). -/
def copying (s : State) (p : Nat) : Bool :=
  match s.dst.mig with
  | some m =>
    m.step == 4 &&
      (match s.dst.insts.find? (fun i => i.base == m.base) with
       | some i => decide (i.col ≤ colOf p ∧ colOf p < i.col + i.w ∧ i.row ≤ rowOf p ∧ rowOf p < i.row + i.h)
       | none => false)
  | none => false
/-- Whether a port is the local port of such a tile. -/
def copyingPort (s : State) (port : Nat) : Bool := port % 5 == 4 && copying s (port / 5)
/-- Whether handshakes move in a physical tile (R88, R89, R175): released, mapped, not frozen, not being copied. -/
def running (s : State) (p : Nat) : Bool :=
  s.fab.released && !s.fab.frozen && coreLive s && !copying s p &&
    match logicalAt s p with
    | some t => !tileFrozen s t
    | none => false

/-- The instance that holds a logical tile (R156). -/
def instOf (s : State) (t : Nat) : Option Inst :=
  s.dst.insts.find? (fun i => decide (i.base ≤ t ∧ t < i.base + i.w * i.h))
/-- The physical tiles of an instance, by shape index (R156, R157). -/
def instTiles (i : Inst) : List Nat :=
  (List.range (i.w * i.h)).map (fun k => tileAt (i.col + k % i.w) (i.row + k / i.w))
/-- The tiles whose edge wires can join tile `p`: those of its instance (R80), or the tile alone. -/
def shapeOf (s : State) (p : Nat) : List Nat :=
  match (logicalAt s p).bind (instOf s) with
  | some i => instTiles i
  | none => [p]

/-! ## Cells and selects -/

/-- CELL_CTL of a cell (R52). -/
def cellCtl (s : State) (t c : Nat) : Word := cfgWord s t (c / 16) (4 * (c % 16) + 2)
/-- The mode of a cell (R51). -/
def cellMode (s : State) (t c : Nat) : Nat := fld (cellCtl s t c) 2 0
/-- Whether a cell uses input `i`. -/
def cellUses (s : State) (t c i : Nat) : Bool := bitOf (cellCtl s t c) (5 + i)
/-- Bit `k` of a cell's TABLE. -/
def cellTable (s : State) (t c k : Nat) : Bool :=
  bitOf (cfgWord s t (c / 16) (4 * (c % 16) + k / 32)) (k % 32)
/-- The used inputs of a cell, as sinks (R59). -/
def usedSinks (s : State) (t c : Nat) : List Nat :=
  ((List.range 6).filter (cellUses s t c)).map (fun i => 6 * c + i)

/-- The configuration words that hold the selects of sinks 4w to 4w + 3 (R86). -/
def selWord (s : State) (t w : Nat) : Word := cfgWord s t (4 + w / 64) (w % 64)
/-- The 8-bit select of a sink (R60, R86). -/
def selOf (s : State) (t k : Nat) : Nat := fld (selWord s t (k / 4)) (8 * (k % 4) + 7) (8 * (k % 4))
/-- The sinks of a tile that select a code. -/
def selecting (s : State) (t code : Nat) : List Nat :=
  (List.range 136).flatMap (fun w =>
    let v := selWord s t w
    (List.range 4).filterMap (fun j => if fld v (8 * j + 7) (8 * j) = code then some (4 * w + j) else none))
/-- A code that names a source or a constant. -/
def selects (code : Nat) : Bool := decide (code < 0xC0 ∨ code = 0xFD ∨ code = 0xFE)

/-! ## Block map -/

/-- The block-map entry of a sink slot (R63, R86). -/
def sinkSlot (s : State) (t j : Nat) : Nat :=
  let w := if j < 112 then cfgWord s t 6 (8 + j / 2) else cfgWord s t 7 ((j - 112) / 2)
  fld w (16 * (j % 2) + 15) (16 * (j % 2))
/-- The block-map entry of a source slot. -/
def srcSlot (s : State) (t k : Nat) : Nat :=
  let w := cfgWord s t 7 (8 + k / 2)
  fld w (16 * (k % 2) + 15) (16 * (k % 2))
/-- EN and PIN of a block-map entry. -/
def slotPin (e : Nat) : Option Nat := if e / 32768 = 1 then some (e % 512) else none
/-- The mapped input pins in [lo, lo + n), each with its sink. -/
def inPins (s : State) (t lo n : Nat) : List (Nat × Nat) :=
  (List.range 128).filterMap (fun j =>
    match slotPin (sinkSlot s t j) with
    | some p => if lo ≤ p ∧ p < lo + n then some (p, 416 + j) else none
    | none => none)
/-- The mapped output pins in [lo, lo + n), each with its source slot. -/
def outPins (s : State) (t lo n : Nat) : List (Nat × Nat) :=
  (List.range 96).filterMap (fun k =>
    match slotPin (srcSlot s t k) with
    | some p => if lo ≤ p ∧ p < lo + n then some (p, k) else none
    | none => none)
/-- HB_MODE (R67). -/
def hbMode (s : State) (t : Nat) : Word := cfgWord s t 7 56
/-- Whether Q0 and Q1 are chained (R71). -/
def chained (s : State) (t : Nat) : Bool := bitOf (hbMode s t) 2

/-! ## Edge wires -/

/-- The tile across edge wire `e` and the wire's number there (R79). -/
def across (t e : Nat) : Option (Nat × Nat) :=
  let c := colOf t
  let r := rowOf t
  match e / 8 with
  | 0 => if r < 63 then some (tileAt c (r + 1), e + 16) else none
  | 1 => if c < 63 then some (tileAt (c + 1) r, e + 16) else none
  | 2 => if 0 < r then some (tileAt c (r - 1), e - 16) else none
  | _ => if 0 < c then some (tileAt (c - 1) r, e - 16) else none
/-- The number of a shared wire: 16 × recording tile + 8 for its east side + position; the recording tile is the
south or west one (R95). -/
def wireId (t e : Nat) : Nat :=
  match e / 8 with
  | 0 => 16 * t + e % 8
  | 1 => 16 * t + 8 + e % 8
  | 2 => 16 * (t - 1) + e % 8
  | _ => 16 * (t - 64) + 8 + e % 8
/-- Bit `e` of EDGE_EN of a tile (R80). -/
def edgeEn (s : State) (t e : Nat) : Bool := bitOf (cfgWord s t 7 57) e
/-- Whether the wire is connected: EDGE_EN at both ends (R80). -/
def edgeJoined (s : State) (t e : Nat) : Bool :=
  match across t e with
  | some (t', e') => edgeEn s t e && edgeEn s t' e'
  | none => false
/-- Whether the wire is held by its collision detector (R83). -/
def edgeHeld (s : State) (t e : Nat) : Bool := s.fab.held.contains (wireId t e)
/-- Whether some wire of the tile is held (FAB_TILE_STAT.COLLIDE). -/
def collides (s : State) (t : Nat) : Bool :=
  (List.range 32).any (fun e => (across t e).isSome && edgeHeld s t e)

/-! ## Tokens -/

/-- The token that a source of a tile carries (R46, R59): a cell's latch, an edge wire's driver across the wire, or a
hard-block result. `fuel` bounds the wires a signal passes through. -/
def sourceTok : Nat → State → Nat → Nat → Option Bool
  | 0, _, _, _ => none
  | n + 1, s, t, src =>
    if src < 64 then (tileSt s t).latch.find src
    else if src < 96 then
      let e := src - 64
      match across t e with
      | some (t', e') =>
        if edgeJoined s t e && !edgeHeld s t e then
          let code := selOf s t' (384 + e')
          if code < 192 then sourceTok n s t' code
          else if (tileSt s t').constIdle.contains (384 + e') then none
          else if code = 0xFD then some true
          else if code = 0xFE then some false
          else none
        else none
      | none => none
    else (tileSt s t).hbOut.find (src - 96)

/-- More wires than one signal can pass through: an instance has at most 16 tiles (R156), whose 24 inner sides have 8 wires
each. -/
def wireFuel : Nat := 200

/-- The token at the far end of a sink's select, acknowledged or not. -/
def selTok (s : State) (t k : Nat) : Option Bool :=
  let code := selOf s t k
  if code < 192 then sourceTok wireFuel s t code
  else if code = 0xFD then (if (tileSt s t).constIdle.contains k then none else some true)
  else if code = 0xFE then (if (tileSt s t).constIdle.contains k then none else some false)
  else none

/-- The token that a sink has to take (R47, R50): none while it has acknowledged, or sees a rail error. -/
def tokenOn (s : State) (t k : Nat) : Option Bool :=
  if (tileSt s t).ack.contains k || (tileSt s t).railBad.contains k then none else selTok s t k

/-- The receivers of a source: the sinks that select it, followed through edge wires (R49); `none` in the list marks an
edge-wire output that never acknowledges (R81, R83). A connected wire that the far tile selects nowhere adds none (DESIGN
CHOICE; notes/assumptions/78.md). `past` follows held wires too: what stands behind one keeps the
phase that the detector recorded (R83, R84). -/
def leaves (past : Bool) : Nat → State → Nat → Nat → List (Option (Nat × Nat))
  | 0, _, _, _ => [none]
  | n + 1, s, t, src =>
    (selecting s t src).flatMap (fun k =>
      if k < 384 ∨ 416 ≤ k then [some (t, k)]
      else
        match across t (k - 384) with
        | some (t', e') =>
          if edgeJoined s t (k - 384) && (past || !edgeHeld s t (k - 384)) then leaves past n s t' (64 + e') else [none]
        | none => [none])

/-- Whether a leaf has raised its acknowledge. -/
def leafAck (s : State) : Option (Nat × Nat) → Bool
  | some (t, k) => (tileSt s t).ack.contains k
  | none => false
/-- The joined acknowledge of a source is high (R49): every receiver has acknowledged; a source that no sink selects has
none to wait for, so its token is consumed at once (DEDUCED; log 26). -/
def ackHigh (s : State) (t src : Nat) : Bool := (leaves false wireFuel s t src).all (leafAck s)
/-- The joined acknowledge is low: no receiver acknowledges, not even behind a held wire, whose recorded phase comes back
(R84). -/
def ackLow (s : State) (t src : Nat) : Bool := !(leaves true wireFuel s t src).any (leafAck s)
/-- Whether edge-wire output `e` of a tile carries a constant over a wire that joins (R59, R62). -/
def constWire (s : State) (t e : Nat) : Bool :=
  let code := selOf s t (384 + e)
  (code == 0xFD || code == 0xFE) && edgeJoined s t e
/-- The receivers of what edge-wire output `e` of a tile carries. -/
def wireLeaves (past : Bool) (s : State) (t e : Nat) : List (Option (Nat × Nat)) :=
  match across t e with
  | some (t', e') => if past || !edgeHeld s t e then leaves past wireFuel s t' (64 + e') else [none]
  | none => [none]
/-- The edge-wire outputs whose constant every receiver has acknowledged (R62). -/
def constTaken (s : State) (t : Nat) : List Nat :=
  if cfgWord s t 7 57 = 0 then []
  else (List.range 32).filter (fun e => constWire s t e && (wireLeaves false s t e).all (leafAck s))

/-- Raise the acknowledges of sinks; a constant select is null from then on until it presents again (R62). -/
def raiseAcks (s : State) (t : Nat) (ks : List Nat) : State :=
  s.onTile t (fun x =>
    { x with
      ack := ks.foldl (fun l k => insertNat k l) x.ack,
      constIdle := ks.foldl (fun l k => if selOf s t k = 0xFD ∨ selOf s t k = 0xFE then insertNat k l else l)
        x.constIdle })

/-! ## Hard-block results -/

/-- No result token of pins [lo, lo + n) stands, and no receiver of one still acknowledges. -/
def resultFree (s : State) (t lo n : Nat) : Bool :=
  (outPins s t lo n).all (fun e => ((tileSt s t).hbOut.find e.2).isNone && ackLow s t (96 + e.2))
/-- No result token of pins [lo, lo + n) stands. -/
def resultNull (s : State) (t lo n : Nat) : Bool :=
  (outPins s t lo n).all (fun e => ((tileSt s t).hbOut.find e.2).isNone)
/-- Put a result on its mapped pins (R66): pin lo + i carries bit i of `v`. -/
def emit (s : State) (t lo n v : Nat) : State :=
  let ps := outPins s t lo n
  s.onTile t (fun x => { x with hbOut := ps.foldl (fun m e => m.put e.2 (decide (v / 2 ^ (e.1 - lo) % 2 = 1))) x.hbOut })

/-- The block that an input pin feeds: 0, 1 RAM ports A and B; 2, 3 MACs; 4, 5 queues; 6 ply send (R64). -/
def blockOfPin (p : Nat) : Nat :=
  if p < 44 then 0 else if p < 88 then 1 else if p < 127 then 2 else if p < 166 then 3
  else if p < 202 then 4 else if p < 238 then 5 else 6
/-- Whether a receiver has released its own output, so that its acknowledge may fall (R47). -/
def released (s : State) (t k : Nat) : Bool :=
  if k < 384 then ((tileSt s t).latch.find (k / 6)).isNone
  else if 416 ≤ k then
    match slotPin (sinkSlot s t (k - 416)) with
    | some p =>
      match blockOfPin p with
      | 0 => resultNull s t 0 32
      | 1 => resultNull s t 32 32
      | 2 => resultNull s t 64 48
      | 3 => resultNull s t 112 48
      | _ => true
    | none => true
  else true
/-- Whether a held wire lies on the way to a sink; its handshake then stands still (R83, R84). -/
def behindHeld : Nat → State → Nat → Nat → Bool
  | 0, _, _, _ => false
  | n + 1, s, t, code =>
    if 64 ≤ code ∧ code < 96 then
      match across t (code - 64) with
      | some (t', e') => edgeHeld s t (code - 64) || behindHeld n s t' (selOf s t' (384 + e'))
      | none => false
    else false

/-! ## Settling -/

/-- The source slots that name the same pin as slot `k`. -/
def sisterSlots (s : State) (t k : Nat) : List Nat :=
  match slotPin (srcSlot s t k) with
  | some p => (outPins s t p 1).map (·.2)
  | none => [k]
/-- Withdraw the tokens whose joined acknowledge is high (R47): cells, result pins over all their slots, constants on edge
wires (R62). -/
def withdraw (s : State) (t : Nat) : State :=
  let x := tileSt s t
  let latch := x.latch.filter (fun e => !ackHigh s t e.1)
  let out := x.hbOut.filter (fun e => !(sisterSlots s t e.1).all (fun k => ackHigh s t (96 + k)))
  let idle := (constTaken s t).foldl (fun l e => insertNat (384 + e) l) x.constIdle
  s.setTile t { x with latch := latch, hbOut := out, constIdle := idle }
/-- Lower the acknowledges whose token is withdrawn and whose receiver has released (R47). -/
def lowerAcks (s : State) (t : Nat) : State :=
  let x := tileSt s t
  s.setTile t { x with ack := x.ack.filter (fun k =>
    (selTok s t k).isSome || !released s t k || behindHeld wireFuel s t (selOf s t k)) }
/-- Let a queue present its oldest entry (R70): its pins free, the head not yet shown. -/
def presentQ (s : State) (t q : Nat) : State :=
  let x := tileSt s t
  let qs := if q = 0 then x.q0 else x.q1
  let shown := if q = 0 then x.shown0 else x.shown1
  match qs.items with
  | [] => s
  | v :: _ =>
    if shown || !resultFree s t (160 + 36 * q) 36 || (chained s t && q == 0) then s
    else
      let s := emit s t (160 + 36 * q) 36 v.toNat
      s.onTile t (fun x => if q = 0 then { x with shown0 := true } else { x with shown1 := true })
/-- In a chained pair Q0's head moves into Q1 while Q1 has room (R71). -/
def chainMove : Nat → State → Nat → State
  | 0, s, _ => s
  | n + 1, s, t =>
    let x := tileSt s t
    match x.q0.items with
    | [] => s
    | v :: _ =>
      if chained s t && decide (x.q1.items.length < 32) then
        chainMove n (s.setTile t { x with q0 := x.q0.pop 32, q1 := x.q1.push 32 v }) t
      else s
/-- One tile's automatic moves after a handshake. -/
def settleTile (s : State) (t : Nat) : State := presentQ (presentQ (chainMove 32 s t) t 0) t 1
/-- Whether a cell may take its next token into its latch: empty, and the acknowledge of the last one low (R47). -/
def latchReady (s : State) (t c : Nat) : Bool := ((tileSt s t).latch.find c).isNone && ackLow s t c
/-- The inputs of a tile's arbiter cells, as sinks, each with the other input of its cell. -/
def arbInputs (s : State) (t : Nat) : List (Nat × Nat) :=
  ((List.range 64).filter (fun c => cellMode s t c == 2)).flatMap (fun c => [(6 * c, 6 * c + 1), (6 * c + 1, 6 * c)])
/-- The requests at a tile's arbiter cells are noted (R56): one that stands alone has come first; one whose cell is not free
to grant it waits. -/
def noteArb (s : State) (t : Nat) : State :=
  match (arbInputs s t).filter (fun k => (tokenOn s t k.1).isSome) with
  | [] => s.onTile t (fun x => { x with arbFirst := [], arbWait := [] })
  | l =>
    let holds (k : Nat) : Bool := l.any (fun e => e.1 == k)
    let x := tileSt s t
    s.setTile t { x with
      arbFirst := (l.filter (fun e => x.arbFirst.contains e.1 || !holds e.2)).map (·.1),
      arbWait := (l.filter (fun e => x.arbWait.contains e.1 || !latchReady s t (e.1 / 6))).map (·.1) }
/-- The value on a bundle of pins [lo, lo + n): none until every mapped pin holds a token, or where none is mapped; an
unmapped pin counts as 0 (R66). -/
def bundle (s : State) (t lo n : Nat) : Option Nat :=
  match inPins s t lo n with
  | [] => none
  | ps =>
    if ps.all (fun e => (tokenOn s t e.2).isSome) then
      some (ps.foldl (fun a e => a + (if tokenOn s t e.2 == some true then 2 ^ (e.1 - lo) else 0)) 0)
    else none
/-- The sinks of a bundle. -/
def bundleSinks (s : State) (t lo n : Nat) : List Nat := (inPins s t lo n).map (·.2)
/-- A window word that waits at port B (R74, R76): its address and whether it writes. -/
def winWaiting (s : State) (t : Nat) : Option (Nat × Bool) :=
  let w : Option (Packet × Nat) := match (tileSt s t).ifc.win with
    | some w => some (w.pkt, w.idx)
    | none => ((tileSt s t).ifc.reqBuf.find? (fun (p : Packet) => p.slot == 31)).map (fun p => (p, 0))
  w.map (fun e => (fld (e.1.words.getD 0 0) 10 0 + e.2, e.1.op != 2))
/-- The requesters of a tile's RAM whose bundle is complete: 0 port A, 1 port B, 2 the window. -/
def ramAsks (s : State) (t : Nat) : List Nat :=
  (if (bundle s t 0 44).isSome then [0] else []) ++ (if (bundle s t 44 44).isSome then [1] else []) ++
    (if (winWaiting s t).isSome then [2] else [])
/-- Those of a list that still ask, each group in its place, and after them the new ones (R75). -/
def ramRank (asks : List Nat) (old : List (List Nat)) : List (List Nat) :=
  let kept := (old.map (fun g => g.filter asks.contains)).filter (fun g => !g.isEmpty)
  match asks.filter (fun k => !kept.any (fun g => g.contains k)) with
  | [] => kept
  | g => kept ++ [g]
/-- The order in which the bundles at a tile's RAM became complete is noted (R75). -/
def noteRam (s : State) (t : Nat) : State :=
  let asks := ramAsks s t
  s.onTile t (fun x => { x with ramOrder := ramRank asks x.ramOrder, ramLong := x.ramLong.filter asks.contains })
/-- After an operation in tile `t`: tokens are withdrawn, acknowledges fall, queues present, in every tile that shares
wires with it; then the requests that stand at arbiters and at the RAM are noted. -/
def settle (t : Nat) (s : State) : State :=
  let ts := shapeOf s t
  let s := ts.foldl withdraw s
  let s := ts.foldl lowerAcks s
  let s := ts.foldl settleTile s
  let s := ts.foldl noteArb s
  ts.foldl noteRam s
/-- Settle a tile whose handshakes move. -/
def settleRunning (t : Nat) (s : State) : State := if running s t then settle t s else s

end Sys2Proof.Machine
end

