-- ==== Sys2Proof/Machine/Fabric.lean ====
section
/-! DEFINITION. Fabric: logic cells, constants, rail errors, tile RAM ports, multiply-accumulate units and tile queues
(R46–R78, R397–R399). Each event happens where its condition holds; where it does not, the event waits and the state
stays as it is. -/
namespace Sys2Proof.Machine

/-- Put a token in a cell's latch and acknowledge inputs (R53, R55). -/
def fireCell (t c : Nat) (v : Bool) (inputs : List Nat) (s : State) : State :=
  settle t (raiseAcks (s.onTile t (fun x => { x with latch := x.latch.put c v })) t inputs)

/-! ## Cells -/

/-- The index of R53: bit i is the token of used input i; an unused input counts as 0. -/
def cellIndex (s : State) (t c : Nat) : Nat :=
  (List.range 6).foldl (fun a i =>
    a + (if cellUses s t c i && (tokenOn s t (6 * c + i) == some true) then 2 ^ i else 0)) 0
/-- Whether every used input of a cell holds a token, and there is one: a cell that uses no input has no input set to
complete (R51: one token for each), so it never acts (DESIGN CHOICE; notes/assumptions/64.md). -/
def inputsReady (s : State) (t c : Nat) : Bool :=
  match usedSinks s t c with
  | [] => false
  | l => l.all (fun k => (tokenOn s t k).isSome)
/-- Whether a function cell can evaluate now (R53). -/
def canEval (s : State) (t c : Nat) : Bool :=
  running s t && cellMode s t c == 0 && inputsReady s t c && latchReady s t c

/-- FUNCTION_CELL_EVALUATE (R53). -/
def evalCell (t c : Nat) (s : State) : State :=
  if canEval s t c then fireCell t c (cellTable s t c (cellIndex s t c)) (usedSinks s t c) s else s
def execFunctionCellEvaluate (tile : Fin 4096) (cell : Fin 64) (s : State) : Host.Outcome State Fault Refusal :=
  .next (evalCell tile cell s)

/-- The output of a merge or arbiter cell for a token of value `v` on `side` (R55). -/
def sideOut (s : State) (t c side : Nat) (v : Bool) : Bool := cellTable s t c (2 * side + b2n v)
/-- Forward the token `v` that stands on one side of a merge or arbiter cell. -/
def forward (t c side : Nat) (v : Bool) (s : State) : State := fireCell t c (sideOut s t c side v) [6 * c + side] s

/-- The side a merge cell serves next, with its token (R55, R58): the token there is; input 0 before input 1 when both hold
one, and then input 1 as owed. -/
def mergeSide (s : State) (t c : Nat) : Option (Nat × Bool) :=
  match tokenOn s t (6 * c), tokenOn s t (6 * c + 1) with
  | none, none => none
  | some v, none => some (0, v)
  | none, some v => some (1, v)
  | some v, some w => some (if (tileSt s t).mergeOwe.contains c then (1, w) else (0, v))
/-- Both inputs of a cell hold tokens. -/
def bothHold (s : State) (t c : Nat) : Bool := (tokenOn s t (6 * c)).isSome && (tokenOn s t (6 * c + 1)).isSome
/-- MERGE_FORWARD (R55, R58). -/
def mergeCell (t c : Nat) (s : State) : State :=
  if running s t && cellMode s t c == 1 && latchReady s t c then
    match mergeSide s t c with
    | some (side, v) =>
      let both := bothHold s t c
      forward t c side v (s.onTile t (fun x =>
        { x with mergeBoth := x.mergeBoth || both, mergeOwe := putNat c (both && side == 0) x.mergeOwe }))
    | none => s
  else s
def execMergeForward (tile : Fin 4096) (cell : Fin 64) (s : State) : Host.Outcome State Fault Refusal :=
  .next (mergeCell tile cell s)

/-- The side an arbiter cell grants of two requests that both hold (R56, R58): the one that has waited, where the other has
not; where both have, the other than the one granted last, input 0 where none has been granted; where neither has, in a tie
exactly one, which the spec does not name (a free value), else the one that came first. Two that became valid in one step outside a tie,
of which neither order is known, go as two that have waited (DESIGN CHOICE; notes/assumptions/12.md). -/
def arbOrder (s : State) (t c : Nat) (tie : Bool) : Nat :=
  let x := tileSt s t
  let w0 := x.arbWait.contains (6 * c)
  let w1 := x.arbWait.contains (6 * c + 1)
  if w0 && !w1 then 0
  else if w1 && !w0 then 1
  else if !w0 && tie then b2n (bitOf s.free 0)
  else if !w0 && x.arbFirst.contains (6 * c) then 0
  else if !w0 && x.arbFirst.contains (6 * c + 1) then 1
  else if x.lastGrant.find c = some false then 1 else 0
/-- The side an arbiter cell grants, with its token. -/
def arbSide (s : State) (t c : Nat) (tie : Bool) : Option (Nat × Bool) :=
  match tokenOn s t (6 * c), tokenOn s t (6 * c + 1) with
  | none, none => none
  | some v, none => some (0, v)
  | none, some v => some (1, v)
  | some v, some w => some (if arbOrder s t c tie = 0 then (0, v) else (1, w))
/-- ARBITER_GRANT (R56, R58): the request that is not granted waits from then on. -/
def arbCell (t c : Nat) (tie : Bool) (s : State) : State :=
  if running s t && cellMode s t c == 2 && latchReady s t c then
    match arbSide s t c tie with
    | some (side, v) =>
      let both := bothHold s t c
      let s1 := if tie && both then s.nextFree else s
      forward t c side v (s1.onTile t (fun x => { x with
        lastGrant := x.lastGrant.put c (side == 1),
        arbWait := if both then insertNat (6 * c + (1 - side)) x.arbWait else x.arbWait }))
    | none => s
  else s
def execArbiterGrant (tile : Fin 4096) (cell : Fin 64) (tie : Bool) (s : State) : Host.Outcome State Fault Refusal :=
  .next (arbCell tile cell tie s)

/-- SOURCE_REFILL (R57). -/
def refillCell (t c : Nat) (s : State) : State :=
  if running s t && cellMode s t c == 3 && latchReady s t c then
    fireCell t c (bitOf (cellCtl s t c) 11) [] s
  else s
def execSourceRefill (tile : Fin 4096) (cell : Fin 64) (s : State) : Host.Outcome State Fault Refusal :=
  .next (refillCell tile cell s)

/-- SINK_ACKNOWLEDGE (R57). -/
def sinkCell (t c : Nat) (s : State) : State :=
  if running s t && cellMode s t c == 4 && inputsReady s t c then
    settle t (raiseAcks s t (usedSinks s t c))
  else s
def execSinkAcknowledge (tile : Fin 4096) (cell : Fin 64) (s : State) : Host.Outcome State Fault Refusal :=
  .next (sinkCell tile cell s)

/-- A constant select that has been acknowledged and released (R62): at an input of the tile, or by every receiver of an edge
wire that it drives. -/
def constDue (s : State) (t k : Nat) : Bool :=
  (tileSt s t).constIdle.contains k &&
    (if 384 ≤ k ∧ k < 416 then !(wireLeaves true s t (k - 384)).any (leafAck s) else !(tileSt s t).ack.contains k)
/-- CONSTANT_SELECT_REPEAT (R62). -/
def repeatConst (t k : Nat) (s : State) : State :=
  if running s t && constDue s t k then settle t (s.onTile t (fun x => { x with constIdle := removeNat k x.constIdle })) else s
def execConstantSelectRepeat (tile : Fin 4096) (sink : Fin 544) (s : State) : Host.Outcome State Fault Refusal :=
  .next (repeatConst tile sink s)

/-- The input that a sink is, as FAB_RAIL_ERR names it (R50, R91): input i of cell c as 6c + i, hard-block pin n as 512 + n
(DESIGN CHOICE; notes/assumptions/65.md). An edge-wire output and an empty slot are no input. -/
def inputName (s : State) (t k : Nat) : Option Nat :=
  if k < 384 then some k else if k < 416 then none else (slotPin (sinkSlot s t (k - 416))).map (· + 512)
/-- RAIL_ERROR (R50): the input waits; the first in the tile sets RAIL_ERR; each is counted and raised. -/
def railFault (t k : Nat) (s : State) : State :=
  match logicalAt s t, inputName s t k with
  | some l, some n =>
    if running s t && selOf s t k != 0xFF && !(tileSt s t).railBad.contains k then
      let s := s.onTile t (fun x => { x with railBad := insertNat k x.railBad, railErr := true })
      let s := s.bump .fabRailCount 0 1
      notify 0x6B (tileDom s l) [w32 l, w32 n] s
    else s
  | _, _ => s
def execRailError (tile : Fin 4096) (sink : Fin 544) (s : State) : Host.Outcome State Fault Refusal :=
  .next (railFault tile sink s)

/-! ## Hard blocks -/

/-- A RAM operation (R68): address, data, and whether it writes. -/
def ramOp (v : Nat) : Nat × Word × Bool := (v % 2 ^ 11, w32 (v / 2 ^ 11), decide (v / 2 ^ 43 % 2 = 1))
/-- The operation that waits at RAM port A or B, once the port's last result is gone (R68). -/
def ramWaiting (s : State) (t : Nat) (portB : Bool) : Option (Nat × Word × Bool) :=
  if resultFree s t (32 * b2n portB) 32 then (bundle s t (44 * b2n portB) 44).map ramOp else none

/-- Two operations name one word and the second alone writes, so it goes first in one window (R75, R77). -/
def laterFirst (a b : Nat × Bool) : Bool := a.1 == b.1 && !a.2 && b.2

/-- Write a tile RAM word, with fresh parity (R78). -/
def ramPut (t a : Nat) (w : Word) (s : State) : State :=
  s.onTile t (fun x => { x with ram := x.ram.set 0 a w, ramBad := removeNat a x.ramBad })
/-- Read a tile RAM word: bad parity is recorded, counted and raised; the stored bits are returned (R78). -/
def ramGet (t a : Nat) (s : State) : Word × State :=
  let w := (tileSt s t).ram.get 0 a
  if (tileSt s t).ramBad.contains a then
    let s := s.onTile t (fun x => { x with ramPerr := true, ramErr := some (BitVec.ofNat 11 a) })
    let s := s.bump .fabParityCount 0 1
    let l := (logicalAt s t).getD 0
    (w, notify 0x6A (tileDom s l) [w32 l, w32 a] s)
  else (w, s)

/-- Whether requester `a` of the RAM was complete before `b`. -/
def cameFirst (s : State) (t a b : Nat) : Bool :=
  ((tileSt s t).ramOrder.find? (fun g => g.contains a || g.contains b)).any (fun g => !g.contains b)
/-- Whether requester `k`, with its operation `you`, goes before requester `j` with its operation `me` (R75): in one window as the
order of the ports and the writes says; outside one, for one word, where its bundle was complete first. -/
def ramYields (s : State) (t : Nat) (met : Bool) (k j : Nat) (you me : Nat × Bool) : Bool :=
  if met then (if j == 0 then laterFirst me you else !laterFirst you me) else you.1 == me.1 && cameFirst s t k j
/-- Whether the window's word goes before a user operation at port B where both wait (R76): they take turns; a user operation goes
first where both arrived in one window, which one that has waited through a turn of the other has not. -/
def winTurn (x : TileSt) (met : Bool) : Bool :=
  x.ramLong.contains 2 || (!x.ramLong.contains 1 && !met && !x.bLastWin)
/-- Whether a user operation on a port is due now, against the other port and the window, under R75 and R76: `met` says
that the other one's bundle became complete within the same 120 ps window. -/
def ramDue (s : State) (t : Nat) (portB met : Bool) (op : Nat × Word × Bool) : Bool :=
  let me := (op.1, op.2.2)
  let otherFirst := (ramWaiting s t (!portB)).any (fun o => ramYields s t met (b2n !portB) (b2n portB) (o.1, o.2.2) me)
  let winFirst := (winWaiting s t).any (fun w => if portB then winTurn (tileSt s t) met else ramYields s t met 2 0 w me)
  !otherFirst && !winFirst
/-- A user operation has been served at port B: a window word that waits has waited through its turn. -/
def userServed (winWaits : Bool) (x : TileSt) : TileSt :=
  { x with bLastWin := false, ramLong := if winWaits then insertNat 2 x.ramLong else x.ramLong }

/-- RAM_PORT_OPERATION (R68, R75–R78). -/
def ramPort (t : Nat) (portB met : Bool) (s : State) : State :=
  if running s t then
    match ramWaiting s t portB with
    | some op =>
      if ramDue s t portB met op then
        let ks := bundleSinks s t (44 * b2n portB) 44
        let (w, s1) := if op.2.2 then (op.2.1, ramPut t op.1 op.2.1 s) else ramGet t op.1 s
        let s2 := emit s1 t (32 * b2n portB) 32 w.toNat
        let s3 := if portB then s2.onTile t (userServed (winWaiting s t).isSome) else s2
        settle t (raiseAcks s3 t ks)
      else s
    | none => s
  else s
def execRamPortOperation (tile : Fin 4096) (portB met : Bool) (s : State) : Host.Outcome State Fault Refusal :=
  .next (ramPort tile portB met s)

/-- The product of a MAC operation modulo 2^48 (R69). -/
def macProduct (uns : Bool) (a b : Nat) : BitVec 48 :=
  if uns then BitVec.ofNat 48 (a * b) else BitVec.ofInt 48 (sint 18 a * sint 18 b)
/-- The accumulator after a MAC operation (R69). -/
def macNext (ctl : Nat) (acc p : BitVec 48) : BitVec 48 :=
  match ctl % 4 with
  | 0 => p
  | 1 => acc + p
  | 2 => 0 - p
  | _ => acc - p
/-- MAC_OPERATION (R69). -/
def macUnit (t u : Nat) (s : State) : State :=
  if running s t then
    match bundle s t (88 + 39 * u) 39 with
    | some v =>
      let ctl := v / 2 ^ 36 % 8
      let wants := decide (4 ≤ ctl)
      if wants && !resultFree s t (64 + 48 * u) 48 then s
      else
        let ks := bundleSinks s t (88 + 39 * u) 39
        let p := macProduct (bitOf (hbMode s t) (3 + u)) (v % 2 ^ 18) (v / 2 ^ 18 % 2 ^ 18)
        let acc := macNext ctl (if u = 0 then (tileSt s t).acc0 else (tileSt s t).acc1) p
        let s := s.onTile t (fun x => if u = 0 then { x with acc0 := acc } else { x with acc1 := acc })
        let s := if wants then emit s t (64 + 48 * u) 48 acc.toNat else s
        settle t (raiseAcks s t ks)
    | none => s
  else s
def execMacOperation (tile : Fin 4096) (unit : Fin 2) (s : State) : Host.Outcome State Fault Refusal :=
  .next (macUnit tile unit s)

/-! ## Tile queues -/

/-- A tile queue. -/
def tileQ (s : State) (t q : Nat) : HQ (BitVec 36) := if q = 0 then (tileSt s t).q0 else (tileSt s t).q1
/-- Store a tile queue. -/
def State.setTileQ (s : State) (t q : Nat) (x : HQ (BitVec 36)) : State :=
  s.onTile t (fun y => if q = 0 then { y with q0 := x } else { y with q1 := x })
/-- QUEUE_FAULT of a tile queue, both halves of a chained pair (R399): emptied; a head token already presented stands
until it is taken. -/
def tileQFault (t q : Nat) (s : State) : State :=
  let l := (logicalAt s t).getD 0
  let ch := chained s t
  let s := s.onTile t (fun x =>
    { x with q0 := if ch || q == 0 then x.q0.clear else x.q0, q1 := if ch || q == 1 then x.q1.clear else x.q1,
             shown0 := if ch || q == 0 then false else x.shown0, shown1 := if ch || q == 1 then false else x.shown1 })
  queueFault 1 (2 * l + (if ch then 0 else q)) (tileDom s l) s
/-- Both copies of the pointers of a queue agree; of both halves where they are chained. -/
def tileQOk (s : State) (t q : Nat) : Bool :=
  (tileQ s t q).ok && (!chained s t || (tileQ s t (1 - q)).ok)
/-- Whether the head of a queue has been taken: presented and acknowledged on every mapped pin, or no pin mapped
(R66, R70). -/
def headTaken (s : State) (t q : Nat) : Bool :=
  let shown := if q = 0 then (tileSt s t).shown0 else (tileSt s t).shown1
  shown && resultNull s t (160 + 36 * q) 36
/-- QUEUE_POP (R70, R397–R399). -/
def popTileQ (t q : Nat) (s : State) : State :=
  if running s t && !(tileQ s t q).items.isEmpty && headTaken s t q then
    if !tileQOk s t q then settle t (tileQFault t q s)
    else
      let s := s.setTileQ t q ((tileQ s t q).pop 32)
      settle t (s.onTile t (fun x => if q = 0 then { x with shown0 := false } else { x with shown1 := false }))
  else s
def execQueuePop (tile : Fin 4096) (q : Fin 2) (s : State) : Host.Outcome State Fault Refusal :=
  .next (popTileQ tile q s)
/-- The queue from which a push's items leave: Q1 of a chained pair. -/
def outQ (s : State) (t q : Nat) : Nat := if chained s t then 1 else q
/-- A push takes its item: into the queue, or at full in drop mode nowhere; else it waits (R70, R71). -/
def takePush (t q : Nat) (s : State) : State :=
  if running s t then
    match bundle s t (166 + 36 * q) 36 with
    | some v =>
      let ks := bundleSinks s t (166 + 36 * q) 36
      if !tileQOk s t q then settle t (raiseAcks (tileQFault t q s) t ks)
      else if (tileQ s t q).items.length < 32 then
        settle t (raiseAcks (s.setTileQ t q ((tileQ s t q).push 32 (BitVec.ofNat 36 v))) t ks)
      else if bitOf (hbMode s t) q then
        settle t (raiseAcks (s.setTileQ t q { tileQ s t q with ovr := true }) t ks)
      else s
    | none => s
  else s
/-- QUEUE_PUSH (R70, R71, R397–R399): a pop that is presented beside it at full is granted first; where the pointers disagree, both
are discarded with the contents. -/
def pushTileQ (t q : Nat) (s : State) : State :=
  takePush t q (if (tileQ s t q).items.length < 32 || !tileQOk s t q then s else popTileQ t (outQ s t q) s)
def execQueuePush (tile : Fin 4096) (q : Fin 2) (s : State) : Host.Outcome State Fault Refusal :=
  .next (pushTileQ tile q s)

/-! ## Quiescence -/

/-- No cell of the tile can act (R90). -/
def cellsQuiet (s : State) (t : Nat) : Bool :=
  (List.range 64).all (fun c =>
    match cellMode s t c with
    | 0 => !(inputsReady s t c && latchReady s t c)
    | 1 => !((mergeSide s t c).isSome && latchReady s t c)
    | 2 => !((mergeSide s t c).isSome && latchReady s t c)
    | 3 => !latchReady s t c
    | 4 => !inputsReady s t c
    | _ => true)
/-- No hard block of the tile can act. -/
def blocksQuiet (s : State) (t : Nat) : Bool :=
  (ramWaiting s t false).isNone && (ramWaiting s t true).isNone && (winWaiting s t).isNone &&
    (List.range 2).all (fun u => match bundle s t (88 + 39 * u) 39 with
      | some v => decide (4 ≤ v / 2 ^ 36 % 8) && !resultFree s t (64 + 48 * u) 48
      | none => true) &&
    (List.range 2).all (fun q => (match bundle s t (166 + 36 * q) 36 with
      | some _ => decide (32 ≤ (tileQ s t q).items.length) && !bitOf (hbMode s t) q
      | none => true) && ((tileQ s t q).items.isEmpty || !headTaken s t q))
/-- No constant of the tile is due to present again. -/
def constsQuiet (s : State) (t : Nat) : Bool := (tileSt s t).constIdle.all (fun k => !constDue s t k)

end Sys2Proof.Machine
end

