-- ==== Sys2Proof/Machine/Ply.lean ====
section
/-! DEFINITION. Ply: packets, addresses and authority, injection with its checks, parking and refusals, routing and
arbitration flit by flit, delivery at tiles and endpoints, tile RAM windows (R114–R146, R72–R74, R379). -/
namespace Sys2Proof.Machine

/-! ## Packets -/

/-- The flits of a packet (R123). -/
def flitCount (p : Packet) : Nat := 1 + (p.words.length + 1) / 2
/-- The route word (R122). -/
def routeWord (p : Packet) : Word :=
  w32 (place 16 16 p.src.toNat + place 12 4 p.status.toNat + place 7 5 p.words.length + place 5 2 p.dom.val +
    place 4 1 (b2n p.vc) + place 3 1 (b2n p.isSeal))
/-- The packet that a header word and payload words make (R72, R121). -/
def packetOf (hdr : Word) (src : Nat) (dom : Fin 4) (ws : List Word) : Packet :=
  { dest := BitVec.ofNat 16 (fld hdr 31 16), slot := BitVec.ofNat 5 (fld hdr 15 11), op := BitVec.ofNat 4 (fld hdr 10 7),
    tag := BitVec.ofNat 7 (fld hdr 6 0), src := BitVec.ofNat 16 src, status := 0, dom := dom, vc := false, words := ws }
/-- Payload words as flits, two to a flit (R123). -/
def payloadFlits (exit : Nat) (src : BitVec 16) : Nat → List Word → List Flit
  | _, [] => []
  | k, [a] => [{ bits := join32 a 0, idx := k, tail := true, exit := exit, src := src }]
  | k, a :: b :: t =>
    { bits := join32 a b, idx := k, tail := t.isEmpty, exit := exit, src := src } :: payloadFlits exit src (k + 1) t
/-- The flits of a packet that leaves the network at `exit`. -/
def flitsOf (p : Packet) (exit : Nat) : List Flit :=
  { bits := join32 (headerWord p) (routeWord p), idx := 0, tail := p.words.isEmpty, exit := exit, src := p.src, refuses := p.refuses, room := p.room }
    :: (payloadFlits exit p.src 1 p.words).map (fun f => if f.idx = 1 then { f with rep := p.rep } else f)
/-- The packet that a whole list of flits spells. -/
def packetFrom (l : List Flit) : Option Packet :=
  match l with
  | [] => none
  | h :: t =>
    let hw := lo32 h.bits
    let rw := hi32 h.bits
    some { packetOf hw (fld rw 31 16) (Fin.ofNat 4 (fld rw 6 5)) ((wordsOfDwords (t.map (·.bits))).take (fld rw 11 7)) with
      status := BitVec.ofNat 4 (fld rw 15 12), vc := bitOf rw 4, isSeal := bitOf rw 3, refuses := h.refuses, room := h.room,
      rep := (t.head?.map (·.rep)).getD { } }

/-- Whether an OP is a request that awaits a response (R124). -/
def hasResponse (op : BitVec 4) : Bool := op == 1 || op == 2 || op == 3 || op == 5 || op == 6
/-- Whether an OP is a response (R124). -/
def isResponse (op : BitVec 4) : Bool := op == 8 || op == 9

/-! ## Addresses and attachments (R117–R119) -/

/-- What stands at a ply address. -/
inductive Target
  | tile (t : Nat)
  | lane (n : Nat)
  | mem (g : Nat)
  | pin (b : Nat)
  | spool
  | obs
  | mbox (d m : Nat)
  | reserved
  deriving DecidableEq, Repr

/-- The destination of a ply address (R119). -/
def target (a : Nat) : Target :=
  if a < 0xF80 then .tile a
  else if a < 0x1000 then .reserved
  else if a < 0x1040 then .lane (a - 0x1000)
  else if a < 0x1050 then .mem (a - 0x1040)
  else if a < 0x1058 then .pin (a - 0x1050)
  else if a = 0x1058 then .spool
  else if a = 0x1059 then .obs
  else if 0x1080 ≤ a ∧ a < 0x10C0 then .mbox ((a - 0x1080) / 16) (a % 16)
  else .reserved

/-- The port (5 × router + side) of attachment `k` of an endpoint (R117); of a tile, the local port of the router it
stands at. -/
def portOf (s : State) (t : Target) (k : Nat) : Nat :=
  match t with
  | .tile l => 5 * physOf s l + 4
  | .lane n => 5 * tileAt 0 n + 3
  | .mem g => 5 * tileAt (4 * g + k % 4) 0 + 2
  | .pin b => 5 * tileAt (8 * b + 4) 63
  | .spool => 5 * tileAt 63 (16 * (k % 4) + 6) + 1
  | .obs => 5 * tileAt 63 63 + 1
  | .mbox d _ => 5 * tileAt 63 (16 * d + 2 + 8 * (k % 2)) + 1
  | .reserved => 0
/-- The attachment that stands at a boundary port, if one does: the endpoint and its attachment index. -/
def attachedAt (port : Nat) : Option (Target × Nat) :=
  let r := port / 5
  let c := colOf r
  let w := rowOf r
  match port % 5 with
  | 0 => if w = 63 ∧ c % 8 = 4 then some (.pin (c / 8), 0) else none
  | 1 =>
    if c ≠ 63 then none
    else if w = 63 then some (.obs, 0)
    else if w % 16 = 6 then some (.spool, w / 16)
    else if w % 16 = 2 then some (.mbox (w / 16) 0, 0)
    else if w % 16 = 10 then some (.mbox (w / 16) 0, 1)
    else none
  | 2 => if w = 0 then some (.mem (c / 4), c % 4) else none
  | 3 => if c = 0 then some (.lane w, 0) else none
  | _ => none
/-- The port at which a packet leaves the network (R118, R132): at attachment SRC mod n of the destination. -/
def exitOf (s : State) (p : Packet) : Nat := portOf s (target p.dest.toNat) p.src.toNat
/-- The port at which an endpoint injects a packet (R118): attachment DEST mod n. -/
def entryOf (s : State) (p : Packet) : Nat := portOf s (target p.src.toNat) p.dest.toNat

/-! ## Network state -/

/-- The key of an input lane or inbox: port, VC, domain. -/
def laneKey (port : Nat) (vc : Bool) (dom : Nat) : Nat := (port * 2 + b2n vc) * 4 + dom
/-- An input lane. -/
def plane (s : State) (k : Nat) : PLane := s.ply.lanes.get PLane.init k
/-- Store an input lane. -/
def State.setPlane (s : State) (k : Nat) (x : PLane) : State :=
  { s with ply := { s.ply with lanes := s.ply.lanes.set PLane.init k x } }
/-- The key of a hold queue (R139): a boundary port has one for each domain, a local port one. -/
def holdKey (port dom : Nat) : Nat := port * 4 + (if port % 5 = 4 then 0 else dom)
/-- A hold queue (R139): port and domain. -/
def holdQ (s : State) (port dom : Nat) : HoldQ := s.ply.hold.get HoldQ.init (holdKey port dom)
/-- Store a hold queue. -/
def State.setHold (s : State) (port dom : Nat) (x : HoldQ) : State :=
  { s with ply := { s.ply with hold := s.ply.hold.set HoldQ.init (holdKey port dom) x } }
/-- The packets received at an attachment for a VC and domain. -/
def inbox (s : State) (k : Nat) : List Packet := s.ply.inbox.get [] k
/-- Store an inbox. -/
def State.setInbox (s : State) (k : Nat) (l : List Packet) : State :=
  { s with ply := { s.ply with inbox := s.ply.inbox.set [] k l } }

/-- Hand an assembled packet to its injection port; it waits there for PACKET_INJECTION. -/
def queueOut (port : Nat) (p : Packet) (s : State) : State :=
  let k := laneKey port p.vc p.dom.val
  s.setPlane k { plane s k with out := (plane s k).out ++ [p] }
/-- A key that names a crossing (R378). -/
def xkey (isl idx kind : Nat) (out : Bool) (sub : Nat) : Nat := (((isl * 64 + idx) * 3 + kind) * 2 + b2n out) * 128 + sub
/-- A crossing. -/
def xing (s : State) (k : Nat) : XingSt := s.xng.xings.get XingSt.init k
/-- Store a crossing. -/
def State.setXing (s : State) (k : Nat) (x : XingSt) : State :=
  { s with xng := { s.xng with xings := s.xng.xings.set XingSt.init k x } }
/-- Whether the crossing by which a packet leaves the island of its host port is absent (R392). -/
def outAbsent (s : State) (p : Packet) : Bool :=
  match target p.src.toNat with
  | .mbox d _ => (xing s (xkey 2 d 0 true (p.dest.toNat % 2))).absent
  | _ => false
/-- An endpoint or interface sends a packet from its own attachment; one that a host port offers to an absent crossing is discarded
(R392, R393). -/
def send (p : Packet) (s : State) : State := if outAbsent s p then s else queueOut (entryOf s p) p s
/-- The flits to reserve for the response of a request (R127). One whose stated reply exceeds the 64
flits of a response buffer never fits (notes/assumptions/80.md). -/
def respFlits (p : Packet) : Nat :=
  if p.op == 2 then
    match target p.dest.toNat with
    | .tile _ => if p.slot == 31 then 1 + (fld (p.words.getD 0 0) 20 16 + 1) / 2 else 1
    | .mem _ => 1 + ((fld (p.words.getD 1 0) 6 0 + 3) / 4 + 1) / 2
    | .obs => 1 + fld (p.words.getD 1 0) 31 0
    | .pin _ => 10
    | .spool => 4
    | _ => 1
  else 1

/-- The response of an endpoint to a request, from the attachment where the request entered (R118): RESP_DATA for an RD that
is not refused, RESP_STAT else (R124). -/
def respond (req : Packet) (status : Status) (ws : List Word) (s : State) : State :=
  let rp : Packet := { dest := req.src, slot := req.slot, op := if req.op = 2 ∧ (status = stOk ∨ ws ≠ []) then 8 else 9, tag := req.tag,
                       src := req.dest, status := status, dom := req.dom, vc := true, words := ws, room := respFlits req }
  send rp s
/-- Answer a request that awaits an answer; a MSG or WRP gets none unless it is refused (R124). -/
def answer (req : Packet) (status : Status) (ws : List Word) (s : State) : State :=
  if hasResponse req.op then respond req status ws s else s

/-! ## The spool engine's answers and slot packets (R308, R311, R322, R325) -/

/-- Answer a spool command: a host's in SPL_RESULT and SPL_CMD_STAT, a packet's with RESP_DATA for an RD that has result
words or none, where it is not refused, and RESP_STAT else (R322, R325, R336). -/
def splAnswer (c : SplCmd) (st : Status) (ws : List Word) (s : State) : State :=
  match c.pkt with
  | some req => (respond req st (if req.op = 2 ∧ st = stOk then ws else []) s).finish st ws
  | none =>
    let p := c.dom.val
    let s := (List.range 5).foldl (fun s i => s.setRegP p .splResult i 0 (ws.getD i 0)) s
    (s.setRegP p .splCmdStat 0 0 (w32 (place 30 1 1 + place 4 8 (fld (c.words.headD 0) 31 24) + st.toNat))).finish st ws
/-- A reader slot of a spool: 0 A, 1 B, 2 C, 3 D. -/
def slotOf (s : State) (n i : Nat) : SlotSt := (spoolOf s n).slots.get SlotSt.init i
/-- Store a reader slot. -/
def State.setSlot (s : State) (n i : Nat) (x : SlotSt) : State :=
  s.setSpool n { spoolOf s n with slots := (spoolOf s n).slots.set SlotSt.init i x }
/-- The spool, the slot and the gateway of a slot packet (R308). -/
def slotPacket (p : Packet) : Option (Nat × Nat × Nat) :=
  match target p.src.toNat with
  | .mem g => if p.vc then none else some (fld (p.words.getD 0 0) 11 0, b2n (bitOf (p.words.getD 0 0) 31), g)
  | _ => none
/-- Change the first entry of a gateway at stage `a` to `b`, or drop it where `b` is none. -/
def moveSent (g : Nat) (is : Nat → Bool) (b : Option Nat) : List (Nat × Nat) → List (Nat × Nat)
  | [] => []
  | (h, k) :: t =>
    if h = g ∧ is k then (match b with
      | some v => (h, v) :: t
      | none => t)
    else (h, k) :: moveSent g is b t
/-- A slot packet moves on (R171): 0 it waits at its gateway, 1 it is in the network, 2 it is parked; none of them once it
has landed. -/
def noteSent (p : Packet) (is : Nat → Bool) (b : Option Nat) (s : State) : State :=
  match slotPacket p with
  | some (n, i, g) => s.setSlot n i { slotOf s n i with sent := moveSent g is b (slotOf s n i).sent }
  | none => s
/-- The SLOT_STOPs of a run are answered with the position at the stop (R311). -/
def answerStops (n i run : Nat) (s : State) : State :=
  let x := slotOf s n i
  forEach (x.stops.filter (fun e => e.run == run)) (fun e => splAnswer e.cmd stOk [w32 e.pos, w32 (e.pos / 2 ^ 32)])
    (s.setSlot n i { x with stops := x.stops.filter (fun e => e.run != run) })
/-- The run of a slot stops where it is: what its SLOT_STOPs will answer. -/
def fixStops (x : SlotSt) : SlotSt :=
  { x with stops := x.stops.map (fun e => if e.run = x.runs then { e with pos := x.pos } else e) }
/-- The LAST packet of a run has landed: the SLOT_STOPs of that run are answered (R311). -/
def noteLast (p : Packet) (s : State) : State :=
  match slotPacket p with
  | some (n, i, _) => if bitOf (p.words.getD 0 0) 30 then answerStops n i p.rep.run s else s
  | none => s
/-- A packet enters the network. -/
def slotEntered (p : Packet) (s : State) : State := noteSent p (· == 0) (some 1) s
/-- A packet is parked: it has landed in the sense of R171. -/
def slotParked (p : Packet) (s : State) : State := noteLast p (noteSent p (· == 0) (some 2) s)
/-- A packet is taken or refused at its destination. -/
def slotLanded (p : Packet) (s : State) : State := noteLast p (noteSent p (· != 0) none s)
/-- A packet is refused where it would enter, from its gateway (0) or from a hold queue (2). -/
def slotRefused (stage : Nat) (p : Packet) (s : State) : State := noteLast p (noteSent p (· == stage) none s)

/-! ## Tile interfaces -/

/-- Change a tile's interface. -/
def State.onIfc (s : State) (t : Nat) (f : TileIf → TileIf) : State := s.onTile t (fun x => { x with ifc := f x.ifc })
/-- The flits a tile's response buffer has promised or holds (R127). -/
def respUsed (x : TileIf) : Nat := x.resv.foldl (fun a r => a + r.flits) 0
/-- The flits in a tile's request receive buffer (R127): a request that is being delivered, or whose window words are being served,
stands in it until it is done. -/
def reqUsed (x : TileIf) : Nat :=
  x.reqBuf.foldl (fun a p => a + flitCount p) 0 +
    (x.rx.map (fun r => if r.pkt.vc then 0 else flitCount r.pkt)).getD 0 + (x.win.map (fun w => flitCount w.pkt)).getD 0
/-- The refusals of MSG and WRP that a tile's store holds (R127). -/
def storeUsed (x : TileIf) : Nat := (x.respBuf.filter (fun e => !e.2)).length
/-- Whether PLY_RX_END of a tile is mapped (R73). -/
def rxEnabled (s : State) (t : Nat) : Bool := !(outPins s t 264 1).isEmpty
/-- Whether PLY_TX_END of a tile is mapped (R73). -/
def txEnabled (s : State) (t : Nat) : Bool := !(inPins s t 270 1).isEmpty

/-! ## Mailboxes -/

/-- A mailbox of domain `d`. -/
def mbox (s : State) (d m : Nat) : Mbox := s.host.mbox.get Mbox.init (16 * d + m)
/-- Store a mailbox. -/
def State.setMbox (s : State) (d m : Nat) (x : Mbox) : State :=
  { s with host := { s.host with mbox := s.host.mbox.set Mbox.init (16 * d + m) x } }

/-! ## Refusals (R143) -/

/-- A channel's record: 0–2047 lane channels, 2048–2111 sense pins. -/
def chan (s : State) (c : Nat) : ChanSt := s.chans.get ChanSt.init c
/-- Store a channel's record. -/
def State.setChan (s : State) (c : Nat) (x : ChanSt) : State := { s with chans := s.chans.set ChanSt.init c x }
/-- Two reports as one: the earlier first time, the sum of the counts. -/
def Report.join (a b : Report) : Report :=
  { a with
    gap := a.gap || b.gap, miss := min (a.miss + b.miss) 0xFFFFFFFF,
    first := if a.miss = 0 then b.first else if b.miss = 0 then a.first else if tickLt b.first a.first then b.first else a.first }
/-- What is reported before the oldest event of a queue goes to it. -/
def headRep (r : Report) : List ChEnt → List ChEnt
  | [] => []
  | e :: t => { e with rep := r.join e.rep } :: t
/-- What a packet that was not delivered reports goes to the channel's next event (R231): the oldest in its queue, or the next
that enters it. -/
def giveBack (c : Nat) (r : Report) (s : State) : State :=
  let x := chan s c
  match x.q.items with
  | [] => s.setChan c { x with pend := r.join x.pend }
  | l => s.setChan c { x with q := { x.q with items := headRep r l } }
/-- A refused lane packet: the channel's and the lane's refused counts rise and LANE_REFUSED is raised (R232, R247). -/
def laneRefused (c : Nat) (st : Status) (s : State) : State :=
  let s := (s.bump .laneChRefused c 1).bump .laneRefused (c / 32) 1
  notifyOnce 0x9A (c / 32) (spoolDom s c) 1 [w32 c, w32 st.toNat] s
/-- A refused sense event: the pin's missed count rises, with the status in LAST_REFUSE (R278, R291). -/
def senseRefused (k : Nat) (st : Status) (s : State) : State :=
  let s := s.bump .timeSenseMissed k 1
  s.setReg .timeSenseCfg k (putFld (s.reg .timeSenseCfg k) 19 16 st.toNat)
/-- Add to a 16-bit field that saturates. -/
def satFld (w : Word) (hi lo n : Nat) : Word := putFld w hi lo (min (fld w hi lo + n) (2 ^ (hi + 1 - lo) - 1))
/-- A quadrature counter. -/
def qd (s : State) (q : Nat) : QdSt := s.pins.qd.get QdSt.init q
/-- Store it. -/
def State.setQd (s : State) (q : Nat) (x : QdSt) : State :=
  { s with pins := { s.pins with qd := s.pins.qd.set QdSt.init q x } }
/-- A counter's sample is missed: the missed field rises, and the next packet carries MISS (R284). -/
def sampleMissed (q : Nat) (s : State) : State :=
  (s.setReg .timeQdErrcnt q (satFld (s.reg .timeQdErrcnt q) 31 16 1)).setQd q { qd s q with miss := true }
/-- A sample that was sent is not delivered: the next packet carries MISS, and ERR and IDX as this one did (R284). -/
def sampleLost (w : Word) (s : State) : State :=
  let q := fld w 3 0
  s.setQd q { qd s q with miss := true, err := (qd s q).err || bitOf w 25, idx := (qd s q).idx || bitOf w 24 }
/-- A general-purpose pin, 48 b + n. -/
def pinSt (s : State) (p : Nat) : PinSt := s.pins.pins.get PinSt.init p
/-- Store a pin. -/
def State.setPin (s : State) (p : Nat) (x : PinSt) : State :=
  { s with pins := { s.pins with pins := s.pins.pins.set PinSt.init p x } }
/-- A refused pin event: PIN_EVT_REFUSED of the bank rises, and the pin's next packet carries OVR (R426). -/
def pinRefused (b : Nat) (w : Word) (s : State) : State :=
  let s := s.bump .pinEvtRefused b 1
  let p := fld w 8 0
  s.setPin p { pinSt s p with ovr := true, resample := true }
/-- Whether a slot is in a run (R340). -/
def inRun (x : SlotSt) : Bool := x.state == 1 || x.state == 2 || x.state == 3 || x.state == 4 || x.state == 7
/-- A refused slot packet: its run ends at once with the refusal status, and the SLOT_STOPs that wait for it are answered
(R311). Of a run that has assembled its LAST packet, the refusal stands in place of OK. -/
def slotPacketRefused (n i run : Nat) (st : Status) (s : State) : State :=
  let x := slotOf s n i
  if (inRun x || ((x.state == 5 || x.state == 6) && x.last == stOk)) && x.runs == run then
    let s := s.setSlot n i { fixStops (slotOf s n i) with state := 6, last := st }
    answerStops n i run (notify 0x81 (spoolDom s n) [w32 n, w32 i, w32 st.toNat] s)
  else s
/-- What a hard endpoint does with the refusal of a packet of its own (R232, R278, R284, R311, R426). -/
def endpointRefused (p : Packet) (st : Status) (s : State) : State :=
  let w := p.words.getD 0 0
  match target p.src.toNat with
  | .lane _ => laneRefused (fld w 11 0) st (giveBack (fld w 11 0) p.rep s)
  | .pin b =>
    if p.words.length = 1 then pinRefused b w s
    else if bitOf w 11 then senseRefused (fld w 11 0 - 2048) st (giveBack (fld w 11 0) p.rep s)
    else sampleMissed (fld w 3 0) (sampleLost w s)
  | .mem _ => if p.vc then s else slotPacketRefused (fld w 11 0) (b2n (bitOf w 31)) p.rep.run st s
  | _ => s

/-- The notification and counter of a refusal status; BUSY and the rest have none (R147, R151, R152). -/
def refusalCode (st : Status) : Option (Nat × Reg) :=
  if st = stDenied then some (0x60, .plyDeniedCount)
  else if st = stRange then some (0x61, .plyRangeCount)
  else if st = stUnsupported then some (0x62, .plyUnsupCount)
  else if st = stTorn then some (0x63, .plyTornCount)
  else none
/-- Count and record a refusal (R143, R151–R154). -/
def recordRefusal (p : Packet) (st : Status) (isLocal : Bool) (s : State) : State :=
  let s := match refusalCode st with
    | some (c, r) =>
      notifyOnce c p.dom.val p.dom.val 1 [] (s.bump r (if st = stDenied then p.dom.val else 0) 1)
    | none => s
  let s := s.setReg .plyLastRefusal 0
    (w32 (place 31 1 1 + place 8 4 st.toNat + place 4 4 p.op.toNat + place 2 2 p.dom.val + place 0 1 (b2n isLocal)))
  let s := s.setReg .plyLastRefusalAddr 0 (w32 (place 16 16 p.src.toNat + place 0 16 p.dest.toNat))
  { s with ply := { s.ply with refusals := s.ply.refusals + 1 } }
/-- A refusal that finds its store full is dropped, counted and raised (R143); PLY_LAST_REFUSAL says so where it still records
that refusal (R153). -/
def refusalLost (p : Packet) (dom : Nat) (s : State) : State :=
  let s := s.bump .plyRefuseLost 0 1
  let v := s.reg .plyLastRefusal 0
  let s := if bitOf v 31 && p.refuses.any (fun r => r.num == s.ply.refusals) then s.setReg .plyLastRefusal 0 (putBit v 1 true) else s
  notifyOnce 0x64 dom dom 1 [] s
/-- The refusal packet: a RESP_STAT with the status, the TAG and the SLOT of the refused packet (R143); `num` is the refusal's
number. -/
def refusalOf (num : Nat) (p : Packet) (st : Status) : Packet :=
  { dest := p.src, slot := p.slot, op := 9, tag := p.tag, src := p.dest, status := st, dom := p.dom, vc := true,
    words := [], refuses := some { posted := !hasResponse p.op, num := num }, room := respFlits p }
/-- Whether a response refuses a MSG or a WRP, which has no space reserved (R143). -/
def posted (p : Packet) : Bool := p.refuses.any (·.posted)

/-- Whether a response answers the request of a reservation (R127). -/
def Resv.answers (p : Packet) (r : Resv) : Bool := r.dest == p.src && r.slot == p.slot && r.tag == p.tag && r.flits == p.room
/-- Whether two responses answer requests of one kind. -/
def sameAnswer (p q : Packet) : Bool := q.src == p.src && q.slot == p.slot && q.tag == p.tag && q.room == p.room
/-- A response or refusal reaches a tile's interface (R127, R143): into its reserved space, or as a refusal of a MSG or WRP
into the store of four. -/
def respToTile (t : Nat) (p : Packet) (s : State) : State :=
  let x := (tileSt s t).ifc
  let answered := (x.respBuf.filter (fun e => e.2 && sameAnswer p e.1)).length
  let held := (x.resv.filter (Resv.answers p)).length
  if !posted p && decide (answered < held) then s.onIfc t (fun x => { x with respBuf := x.respBuf ++ [(p, true)] })
  else if storeUsed x < 4 then s.onIfc t (fun x => { x with respBuf := x.respBuf ++ [(p, false)] })
  else refusalLost p p.dom.val s
/-- A response or refusal reaches a host mailbox (R465): into its reserved space or its refusal store of four. The
response of a request that a reset has answered with STALE is discarded (R466). -/
def respToMbox (d m : Nat) (p : Packet) (s : State) : State :=
  let x := mbox s d m
  let held := (x.reqs.filter (Resv.answers p)).length
  let answered := (x.resp.filter (fun e => sameAnswer p e.pkt)).length
  if posted p = false ∧ answered < held then s.setMbox d m { x with resp := x.resp ++ [{ pkt := p, exit := 0, sent := none }] }
  else if !posted p && x.late.any (Resv.answers p) then s.setMbox d m { x with late := x.late.eraseP (Resv.answers p) }
  else if x.store.length < 4 then s.setMbox d m { x with store := x.store ++ [{ pkt := p, exit := 0, sent := none }] }
  else refusalLost p p.dom.val s
/-- Refuse a packet at its injection port (R142, R143): it does not enter the network; its sender has the refusal at
once. A response that is refused is counted and recorded, and no refusal of it is sent (DESIGN CHOICE; notes/assumptions/80.md). -/
def refuseAtEntry (p : Packet) (st : Status) (s : State) : State :=
  let s := recordRefusal p st false s
  if isResponse p.op then s
  else
    match target p.src.toNat with
    | .tile l => if mapped s l then respToTile (physOf s l) (refusalOf s.ply.refusals p st) s else s
    | .mbox d m => respToMbox d m (refusalOf s.ply.refusals p st) s
    | _ => endpointRefused p st s
/-- Refuse a packet at its destination (R142): the refusal travels back as a response packet; a hard endpoint's own
packet is accounted at its gateway. -/
def refuseAtExit (p : Packet) (st : Status) (s : State) : State :=
  let s := recordRefusal p st false s
  if isResponse p.op then s
  else
    match target p.src.toNat with
    | .tile _ => send (refusalOf s.ply.refusals p st) s
    | .mbox _ _ => send (refusalOf s.ply.refusals p st) s
    | _ => slotLanded p (endpointRefused p st s)

/-! ## Responses to hosts -/

/-- An RSP enters a port's response queue. A pointer fault completes every request that the queue held with FAULT (R399, R455). -/
def queueRsp (p : Nat) (r : Rsp) (s : State) : State :=
  let x := port s p
  if x.rspq.ok then s.setPort p { x with rspq := x.rspq.push 64 r }
  else
    let held := (x.rspq.items ++ [r]).map (fun r => { r with status := stFault, words := [] })
    queueFault 8 (16 * p + 1) p (s.setPort p { x with rspq := { x.rspq.clear with items := held } })
/-- A host request completes: its RSP is formed and waits for credit (R460), or is discarded where the packet layer has
been cleared since the request (R476). -/
def formRsp (p : Nat) (tag : Option Byte) (st : Status) (ws : List DWord) (s : State) : State :=
  match tag with
  | some t => queueRsp p { tag := t, status := st, words := ws } s
  | none => s
/-- A host's PLY packet leaves its mailbox: its RSP is OK (R465). -/
def hostInjected (p : Packet) (s : State) : State :=
  match target p.src.toNat with
  | .mbox d _ =>
    let x := port s d
    match x.plyq.find? (fun e => decide (e.1 = p)) with
    | some e => formRsp d e.2 stOk [] (s.setPort d { x with plyq := x.plyq.erase e })
    | none => s
  | _ => s

/-! ## Checks at injection (R142) -/

/-- The domain of a request's sender now (R142, R144): a tile's, a channel's or a run's spool's, a bank's. A counter sample of no
bank stays domain 0's; a response carries the domain of its request. -/
def senderDom (s : State) (p : Packet) : Fin 4 :=
  let w := p.words.getD 0 0
  if p.vc then p.dom
  else
    match target p.src.toNat with
    | .tile l => tileDom s l
    | .lane _ => spoolDom s (fld w 11 0)
    | .mem _ => spoolDom s (fld w 11 0)
    | .pin b =>
      if p.words.length = 1 then bankDom s b
      else if bitOf w 11 then spoolDom s (fld w 11 0)
      else if p.dom = 0 then 0 else bankDom s b
    | _ => p.dom
/-- Check 2: whether domain `d` may address a destination. -/
def mayAddress (s : State) (d : Nat) (t : Target) : Bool :=
  if d = 0 then true
  else
    match t with
    | .tile l => (tileDom s l).val == d
    | .mbox e _ => e == d
    | .pin b => bankBit s d b
    | .mem _ => true
    | .spool => true
    | _ => false
/-- Check 3: whether a destination accepts an OP from a sender (R128, R129). -/
def opAccepted (p : Packet) : Bool :=
  let srcT := target p.src.toNat
  let fromTile := match srcT with
    | .tile _ => true
    | _ => false
  let fromMbox := match srcT with
    | .mbox _ _ => true
    | _ => false
  match target p.dest.toNat with
  | .tile _ =>
    if isResponse p.op then true
    else if p.slot == 31 then p.op == 2 || p.op == 3 || p.op == 4
    else p.op == 0 || p.op == 1
  | .mem _ => (fromTile || fromMbox) && (p.op == 2 || p.op == 3 || p.op == 4 || p.op == 5 || p.op == 6)
  | .pin _ => (fromTile || fromMbox) && (p.op == 2 || p.op == 3 || p.op == 4)
  | .spool => (fromTile || fromMbox) && (p.op == 2 || p.op == 1)
  | .obs => (fromTile || fromMbox) && p.op == 2
  | .mbox _ _ => isResponse p.op || (fromTile && (p.op == 0 || p.op == 1))
  | .lane _ => false
  | .reserved => false
/-- The status with which a packet is refused at injection; none where it passes checks 1 to 5 (R142). A tile of a frozen
region counts as used, so that packets to it are refused with TORN (R520). -/
def injectStatus (s : State) (p : Packet) : Option Status :=
  let t := target p.dest.toNat
  if t = .reserved then some stRange
  else if !mayAddress s p.dom.val t then some stDenied
  else if !opAccepted p then some stUnsupported
  else
    match t with
    | .tile l =>
      if tileFrozen s l then some stTorn
      else if !mapped s l then some stRange
      else if p.slot != 31 && !rxEnabled s (physOf s l) then some stRange
      else none
    | _ => none

/-- The base tile of a packet's destination instance. -/
def destInst (s : State) (p : Packet) : Option Nat :=
  match target p.dest.toNat with
  | .tile l => (instOf s l).map (·.base)
  | _ => none
/-- Whether a packet has to park: its destination is fenced, or parked packets for the same instance still wait at the
port (R139, R140). -/
def mustPark (s : State) (port : Nat) (p : Packet) : Bool :=
  match target p.dest.toNat with
  | .tile l => fenced s l || ((holdQ s port p.dom.val).pkts.any (fun q => destInst s q == destInst s p))
  | _ => false
/-- Whether a hold queue has room for a packet: 64 flits, 16 of them kept for the response VC (R139). -/
def holdRoom (h : HoldQ) (p : Packet) : Bool :=
  let used := h.pkts.foldl (fun a q => a + flitCount q) 0
  let reqs := (h.pkts.filter (fun q => !q.vc)).foldl (fun a q => a + flitCount q) 0
  if p.vc then decide (used + flitCount p ≤ 64)
  else decide (used + flitCount p ≤ 64 ∧ reqs + flitCount p ≤ 48)

/-- Move waiting flits of a packet into its lane of 8 (R133). -/
def fillLane (x : PLane) : PLane :=
  let n := 8 - x.flits.length
  { x with flits := x.flits ++ x.rest.take n, rest := x.rest.drop n }
/-- Enter a packet into the lane of its port, to leave at its destination's port. -/
def enterLane (port : Nat) (p : Packet) (s : State) : State :=
  let k := laneKey port p.vc p.dom.val
  let x := plane s k
  s.setPlane k (fillLane { x with rest := x.rest ++ flitsOf p (exitOf s p) })
/-- The distance between two routers. -/
def hops (a b : Nat) : Nat :=
  (colOf a - colOf b) + (colOf b - colOf a) + ((rowOf a - rowOf b) + (rowOf b - rowOf a))
/-- The router of a peer as tile `l` sees it: its mapped tile, or the attachment that R118 selects (R181). -/
def peerRouter (s : State) (l peer : Nat) : Nat := portOf s (target peer) l / 5
/-- Distaff looks at a packet injected or delivered at the local port of tile `l`: one header in 64 of an instance's is
sampled, its hops counted and its peer tallied (R181; notes/assumptions/16.md: each 64th). -/
def sampleHop (l peer : Nat) (s : State) : State :=
  match instOf s l with
  | none => s
  | some i =>
    let x :=
      if i.seen + 1 = 64 then
        { i with seen := 0, hopCnt := i.hopCnt + 1, hopSum := i.hopSum + hops (physOf s l) (peerRouter s l peer),
                 peers := i.peers.modify 0 peer (· + 1) }
      else { i with seen := i.seen + 1 }
    { s with dst := { s.dst with insts := s.dst.insts.map (fun j => if j.base = i.base then x else j) } }
/-- Tally a packet that a logical tile's interface injects (R603), and let Distaff see it. -/
def tallyInject (p : Packet) (s : State) : State :=
  match target p.src.toNat with
  | .tile l => tally 6 l 0 (sampleHop l p.dest.toNat s)
  | _ => s

/-- Reserve the response space of a tile's request (R127): `none` where it does not fit yet. -/
def reserve (p : Packet) (s : State) : Option State :=
  match target p.src.toNat with
  | .tile l =>
    if p.vc || !hasResponse p.op then some s
    else
      let t := physOf s l
      if respUsed (tileSt s t).ifc + respFlits p ≤ 64 then
        some (s.onIfc t (fun x => { x with resv := x.resv ++ [{ dest := p.dest, slot := p.slot, tag := p.tag,
                                                                flits := respFlits p }] }))
      else none
  | _ => some s

/-- PACKET_INJECTION (R127, R139, R142, R143): the oldest assembled packet of a port's VC and domain is checked with its
sender's present domain and routed, parked or refused; it waits for its response space, for the lane, or for room in the
hold queue, and behind a packet of its domain that waits there for room. -/
def inject (port : Nat) (vc : Bool) (dom : Nat) (s : State) : State :=
  let k := laneKey port vc dom
  match (plane s k).out with
  | [] => s
  | p0 :: t =>
    let p := { p0 with dom := senderDom s p0 }
    let d := p.dom.val
    let h := holdQ s port d
    if !coreLive s || copyingPort s port || h.wait.any (· != vc) then s
    else
      match reserve p s with
      | none => s
      | some s1 =>
        let s2 := (s1.setPlane k { plane s1 k with out := t }).setHold port d { h with wait := none }
        match injectStatus s p with
        | some st => hostInjected p (slotRefused 0 p (refuseAtEntry p st s2))
        | none =>
          if mustPark s port p then
            if holdRoom h p then hostInjected p <| slotParked p (tallyInject p (s2.setHold port d { pkts := h.pkts ++ [p], wait := none }))
            else if h.wait.isSome then s
            else notifyOnce 0x65 d d 1 [] ((s.setHold port d { h with wait := some vc }).bump .plyHoldFullCount 0 1)
          else if (plane s (laneKey port vc d)).rest.isEmpty then hostInjected p (slotEntered p (tallyInject p (enterLane port p s2)))
          else s
def execPacketInjection (router : Fin 4096) (side : Fin 5) (vc : Bool) (dom : Fin 4) (s : State) :
    Host.Outcome State Fault Refusal := .next (inject (5 * router + side) vc dom s)

/-- HOLD_QUEUE_FORWARD (R140, R141): the first parked packet whose instance is no longer fenced, and that no earlier
packet for the same destination precedes, is translated anew and injected, or refused under checks 4 and 5. -/
def forwardHeld (port dom : Nat) (s : State) : State :=
  let h := holdQ s port dom
  let free (p : Packet) : Bool :=
    match target p.dest.toNat with
    | .tile l => !fenced s l
    | _ => true
  match h.pkts.find? free with
  | none => s
  | some p =>
    if !coreLive s || !(plane s (laneKey port p.vc p.dom.val)).rest.isEmpty then s
    else
      let s1 := s.setHold port dom { h with pkts := h.pkts.erase p }
      match injectStatus s p with
      | some st => if st = stDenied ∨ st = stUnsupported then enterLane port p s1 else slotRefused 2 p (refuseAtEntry p st s1)
      | none => enterLane port p s1
def execHoldQueueForward (router : Fin 4096) (side : Fin 5) (dom : Fin 4) (s : State) :
    Host.Outcome State Fault Refusal := .next (forwardHeld (5 * router + side) dom s)

/-! ## Routing and arbitration -/

/-- The output a flit takes at a router (R132): along the row to the exit column, along the column to the exit row,
then the exit's side. -/
def nextSide (router exit : Nat) : Nat :=
  let d := exit / 5
  if colOf router < colOf d then 1
  else if colOf d < colOf router then 3
  else if rowOf router < rowOf d then 0
  else if rowOf d < rowOf router then 2
  else exit % 5
/-- The neighbour of a router on a side. -/
def neighbour (router side : Nat) : Nat :=
  match side with
  | 0 => router + 1
  | 1 => router + 64
  | 2 => router - 1
  | _ => router - 64
/-- Whether an output leads to the local port or off the network at a boundary attachment. -/
def leaves? (router out : Nat) : Bool :=
  out == 4 || (out == 0 && rowOf router == 63) || (out == 1 && colOf router == 63) || (out == 2 && rowOf router == 0) ||
    (out == 3 && colOf router == 0)

/-- The bundle crossing of an attachment into its island (R378, R393). -/
def attachXing (t : Target) (k : Nat) : Nat :=
  match t with
  | .lane n => xkey 1 n 0 false 0
  | .mem g => xkey 3 0 0 false (4 * g + k)
  | .pin b => xkey 4 b 0 false 0
  | .spool => xkey 3 0 0 false (64 + k)
  | .obs => xkey 7 0 0 false 0
  | .mbox d _ => xkey 2 d 0 false k
  | _ => 0
/-- The island of an attachment, as 64 × code + index (R377). -/
def attachIsland (t : Target) : Nat :=
  match t with
  | .lane n => 64 + n
  | .mem _ => 192
  | .pin b => 256 + b
  | .spool => 192
  | .obs => 448
  | .mbox d _ => 128 + d
  | _ => 0

/-- The bundle ring at an attachment's port (R379). -/
def ring (s : State) (port : Nat) : List RingEnt := s.ply.ring.get [] port
/-- Flits of a packet that is being put together behind a local port or a ring. -/
def asmOf (s : State) (k : Nat) : List Flit := s.ply.asm.get [] k
/-- Store them. -/
def State.setAsm (s : State) (k : Nat) (l : List Flit) : State :=
  { s with ply := { s.ply with asm := s.ply.asm.set [] k l } }

/-- Whether the place after an output has a free slot for a flit of a VC and domain (R133, R379, R127). -/
def roomAfter (s : State) (router out : Nat) (vc : Bool) (dom : Nat) : Bool :=
  if out == 4 then
    vc || decide (reqUsed (tileSt s router).ifc +
      (List.range 4).foldl (fun a d => a + (asmOf s (laneKey (5 * router + 4) false d)).length) 0 < 32)
  else if leaves? router out then
    match attachedAt (5 * router + out) with
    | some (t, k) => (xing s (attachXing t k)).absent || decide ((ring s (5 * router + out)).length < 8)
    | none => true
  else decide ((plane s (laneKey (5 * neighbour router out + (out + 2) % 4) vc dom)).flits.length < 8)

/-- The arbitration of an output. -/
def outArb (s : State) (o : Nat) : OutArb := s.ply.outs.get OutArb.init o
/-- Store it. -/
def State.setOutArb (s : State) (o : Nat) (x : OutArb) : State :=
  { s with ply := { s.ply with outs := s.ply.outs.set OutArb.init o x } }

/-- The flit at the front of an input lane, if it goes to output `out`. -/
def headFor (s : State) (router out i : Nat) (vc : Bool) (dom : Nat) : Option Flit :=
  match (plane s (laneKey (5 * router + i) vc dom)).flits with
  | [] => none
  | f :: _ => if nextSide router f.exit = out then some f else none
/-- The input port that a lane of an output serves (R134): the one whose packet is in progress, else the next in turn
with a packet for this output. -/
def inputFor (s : State) (router out : Nat) (vc : Bool) (dom : Nat) : Option Nat :=
  let a := outArb s (5 * router + out)
  let ln := 4 * b2n vc + dom
  match a.cur.find ln with
  | some v => if (headFor s router out (v % 8) vc dom).isSome then some (v % 8) else none
  | none =>
    let l := (a.last.find ln).getD 4
    ((List.range 5).map (fun k => (l + 1 + k) % 5)).find? (fun i =>
      match headFor s router out i vc dom with
      | some f => f.idx == 0
      | none => false)
/-- Whether a flit is a fence seal (R122). -/
def isSealFlit (f : Flit) : Bool := f.idx == 0 && bitOf (hi32 f.bits) 3
/-- Whether a lane of an output has a flit ready: one at hand and a free slot behind the output, which a seal does not need at the
local port, where it is absorbed (R139). -/
def laneReady (s : State) (router out : Nat) (vc : Bool) (dom : Nat) : Bool :=
  (inputFor s router out vc dom).any (fun i =>
    roomAfter s router out vc dom || (out == 4 && (headFor s router out i vc dom).any isSealFlit))

/-- A round over the four domains with the weights in force (R134, R145). -/
def roundPick (s : State) (left : Nat → Nat) (ready : Nat → Bool) : Option (Nat × (Nat → Nat)) :=
  roundPickN 4 (weightOf s) left ready (fun _ => 1)
/-- Store the turns of the four domains of a round. -/
def putTurns (m : NMap Nat) (b : Nat) (f : Nat → Nat) : NMap Nat := putTurnsN 4 m b f

/-- The tile of a physical router drops a packet that a freeze has overtaken (R142), or takes it (R126, R127). -/
def landTile (t : Nat) (p : Packet) (s : State) : State :=
  let s := sampleHop p.dest.toNat p.src.toNat s
  if tileFrozen s p.dest.toNat then refuseAtExit p stTorn s
  else if p.vc then tally 6 p.dest.toNat (if p.status = 0 then 1 else 2) (respToTile t p s)
  else slotLanded p (tally 6 p.dest.toNat 1 (noteRam (s.onIfc t (fun x => { x with reqBuf := x.reqBuf ++ [p] })) t))
/-- A flit leaves by the local port (R132); a seal is absorbed there (R139). -/
def toLocal (router : Nat) (vc : Bool) (dom : Nat) (f : Flit) (s : State) : State :=
  let k := laneKey (5 * router + 4) vc dom
  let l := asmOf s k ++ [f]
  if f.tail then
    match packetFrom l with
    | some p => if p.isSeal then s.setAsm k [] else landTile router p (s.setAsm k [])
    | none => s.setAsm k []
  else s.setAsm k l
/-- A flit enters the ring of a boundary attachment (R379) and wakes the island, should its clock have stopped (R381, R390); an
absent crossing discards it (R392). -/
def toRing (port : Nat) (vc : Bool) (dom : Fin 4) (f : Flit) (s : State) : State :=
  match attachedAt port with
  | some (t, k) =>
    if (xing s (attachXing t k)).absent then s
    else
      let s := wakeIsl 0 (attachIsland t) s
      { s with ply := { s.ply with ring := s.ply.ring.set [] port (ring s port ++ [{ flit := f, vc := vc, dom := dom }]) } }
  | none => s
/-- Move one flit from an input lane over an output. -/
def moveFlit (router out i : Nat) (vc : Bool) (dom : Fin 4) (f : Flit) (s : State) : State :=
  let k := laneKey (5 * router + i) vc dom
  let x := plane s k
  let s := s.setPlane k (fillLane { x with flits := x.flits.drop 1 })
  if out = 4 then toLocal router vc dom f s
  else if leaves? router out then toRing (5 * router + out) vc dom f s
  else
    let k' := laneKey (5 * neighbour router out + (out + 2) % 4) vc dom
    s.setPlane k' { plane s k' with flits := (plane s k').flits ++ [f] }
/-- FLIT_ADVANCE (R132–R134): the output arbitrates once, VCs in turn, domains in weighted rounds, inputs packet by
packet, and one flit moves into a free slot. -/
def advance (router out : Nat) (s : State) : State :=
  if !coreLive s then s
  else
    let o := 5 * router + out
    let a := outArb s o
    let r0 := (List.range 4).any (laneReady s router out false)
    let r1 := (List.range 4).any (laneReady s router out true)
    if !r0 && !r1 then
      if (List.range 4).any (fun d => (inputFor s router out false d).isSome || (inputFor s router out true d).isSome) then
        tally 3 router 6 (s.setOutArb o { a with held := a.held + 1 })
      else s
    else
      let vc := if r0 && r1 then !a.lastVc else r1
      match roundPick s (fun d => a.left.get 0 (4 * b2n vc + d)) (laneReady s router out vc) with
      | none => s
      | some (d, turns) =>
        match inputFor s router out vc d with
        | none => s
        | some i =>
          match headFor s router out i vc d with
          | none => s
          | some f =>
            let ln := 4 * b2n vc + d
            let a' := { a with lastVc := vc, left := putTurns a.left (b2n vc) turns,
                               cur := if f.tail then a.cur.erase ln else a.cur.put ln (8 * (65536 * f.exit + f.src.toNat) + i),
                               last := a.last.put ln i,
                               busy := a.busy + 1 }
            let s := tally 3 router (if out != 4 && leaves? router out then 5 else out) (s.setOutArb o a')
            moveFlit router out i vc (Fin.ofNat 4 d) f s
def execFlitAdvance (router : Fin 4096) (out : Fin 5) (s : State) : Host.Outcome State Fault Refusal :=
  .next (advance router out s)

/-! ## Delivery -/

/-- Whether an endpoint takes no further request now: the spool engine holds 16 at an attachment (R326). -/
def attachFull (s : State) (port : Nat) (t : Target) (vc : Bool) : Bool :=
  t == .spool && !vc && decide (16 ≤ (s.spl.queue.filter (fun e => some (t, e.src) == attachedAt port)).length)
/-- A spool command takes its place behind those that arrived before it; of those that arrived within 2 ns of one another, by the
number of their source (R326). -/
def arrive (a : SplArr) : List SplArr → List SplArr
  | [] => [a]
  | e :: t =>
    if (e :: t).all (fun x => decide (a.src < x.src ∧ (a.time - x.time).toNat < 256)) then a :: e :: t else e :: arrive a t
/-- A packet has arrived at its endpoint: a spool command among the engine's (R326), another in the attachment's inbox, with the
number of its arrival. -/
def landAttach (t : Target) (a port : Nat) (p : Packet) (s : State) : State :=
  if t = .spool ∧ !p.vc then
    { s with spl := { s.spl with queue := arrive { src := a, time := s.now, cmd := { dom := p.dom, words := p.words, pkt := some p } } s.spl.queue } }
  else
    let k := laneKey port p.vc p.dom.val
    let s := s.setInbox k (inbox s k ++ [{ p with seq := s.ply.arrivals }])
    { s with ply := { s.ply with arrivals := s.ply.arrivals + 1 } }
/-- BUNDLE_ENTRY_TAKEN (R379, R380): the attachment's island takes the oldest entry of the ring; the last flit of a
packet completes it. A stopped island takes nothing until it wakes (R390); across an absent crossing the entry is
discarded, and so is what is left of a packet that was cut (R392). -/
def takeEntry (port : Nat) (s : State) : State :=
  match attachedAt port, ring s port with
  | some (t, a), e :: rest =>
    let drop := { s with ply := { s.ply with ring := s.ply.ring.set [] port rest } }
    let k := laneKey port e.vc e.dom.val
    if (xing s (attachXing t a)).absent then drop.setAsm k []
    else if s.xng.stopped.contains (attachIsland t) || attachFull s port t e.vc then s
    else if (asmOf s k).isEmpty && e.flit.idx != 0 then drop
    else
      let l := asmOf s k ++ [e.flit]
      if e.flit.tail then
        match packetFrom l with
        | some p => landAttach t a port p (drop.setAsm k [])
        | none => drop.setAsm k []
      else drop.setAsm k l
  | _, _ => s
def execBundleEntryTaken (router : Fin 4096) (side : Fin 5) (s : State) : Host.Outcome State Fault Refusal :=
  .next (takeEntry (5 * router + side) s)

/-- The domain whose request an attachment's endpoint serves next: weighted rounds (R145) over the domains whose first request
`ok` holds of. -/
def nextDomIf (ok : Packet → Bool) (s : State) (port : Nat) : Option (Nat × (Nat → Nat)) :=
  roundPick s (fun d => s.ply.epRound.get 0 (4 * (2 * port) + d)) (fun d => (inbox s (laneKey port false d)).head?.any ok)
/-- The request that an attachment's endpoint serves next, of those that `ok` holds of. -/
def nextReqIf (ok : Packet → Bool) (s : State) (port : Nat) : Option Packet :=
  match nextDomIf ok s port with
  | some (d, _) => (inbox s (laneKey port false d)).head?
  | none => none
/-- Take a domain's first request from the inbox of an attachment. -/
def takeHead (port d : Nat) (s : State) : State := s.setInbox (laneKey port false d) ((inbox s (laneKey port false d)).drop 1)
/-- Take the request that is served next from the inbox. -/
def takeReqIf (ok : Packet → Bool) (port : Nat) (s : State) : State :=
  match nextDomIf ok s port with
  | some (d, turns) =>
    let s := takeHead port d s
    { s with ply := { s.ply with epRound := putTurns s.ply.epRound (2 * port) turns } }
  | none => s
/-- The request that an attachment's endpoint serves next. -/
def nextReq (s : State) (port : Nat) : Option Packet := nextReqIf (fun _ => true) s port
/-- Take it from the inbox. -/
def takeReq (port : Nat) (s : State) : State := takeReqIf (fun _ => true) port s
/-- The request that came to an attachment first. -/
def firstReq (s : State) (port : Nat) : Option Packet :=
  let heads := (List.range 4).filterMap (fun d => (inbox s (laneKey port false d)).head?)
  heads.find? (fun p => heads.all (fun q => decide (p.seq ≤ q.seq)))

/-- The arrival word of a packet (R126). -/
def arrivalWord (p : Packet) : Word :=
  w32 (place 16 16 p.src.toNat + place 12 4 p.status.toNat + place 8 4 p.op.toNat + place 0 7 p.tag.toNat)
/-- Word `i` of a packet as RX offers it, with END, SLOT and RESP (R72, R126), in the pins' order. -/
def rxWord (p : Packet) (i : Nat) : Nat :=
  let d := if i = 0 then arrivalWord p else p.words.getD (i - 1) 0
  d.toNat + place 32 1 (b2n (i == p.words.length)) + place 33 5 p.slot.toNat + place 38 1 (b2n p.vc)
/-- The last word of a packet has been taken from RX: a response gives its space back (R127); a MSG_ACK is answered
(R128). -/
def rxDone (t : Nat) (p : Packet) (s : State) : State :=
  let s := s.onIfc t (fun x => { x with rx := none })
  if p.vc then
    if posted p then s
    else s.onIfc t (fun x => { x with resv := x.resv.eraseP (Resv.answers p) })
  else answer p stOk [] s
/-- The packet RX delivers next: a response or refusal, else a request for slots 0–30 (R126). -/
def rxNext (x : TileIf) : Option (Packet × TileIf) :=
  match x.respBuf with
  | e :: t => some (e.1, { x with respBuf := t })
  | [] =>
    match x.reqBuf.find? (fun (p : Packet) => p.slot != 31) with
    | some p => some (p, { x with reqBuf := x.reqBuf.erase p })
    | none => none
/-- Offer the next word of the packet under way, or the arrival word of the next packet. -/
def rxOffer (t : Nat) (s : State) : State :=
  if !resultFree s t 232 39 then s
  else
    match (tileSt s t).ifc.rx with
    | some r =>
      if r.idx ≤ r.pkt.words.length then
        settle t ((emit s t 232 39 (rxWord r.pkt r.idx)).onIfc t (fun x => { x with rx := some { r with idx := r.idx + 1 } }))
      else s
    | none =>
      match rxNext (tileSt s t).ifc with
      | some (p, x) => settle t (emit (s.onIfc t (fun _ => { x with rx := some { pkt := p, idx := 1 } })) t 232 39 (rxWord p 0))
      | none => s
/-- RX_DELIVERY (R72, R126–R128): the interface offers the next word; once the last word of a packet has been taken the
packet is finished first. -/
def deliver (t : Nat) (s : State) : State :=
  if running s t && rxEnabled s t then
    match (tileSt s t).ifc.rx with
    | some r => if decide (r.pkt.words.length < r.idx) && resultNull s t 232 39 then rxOffer t (rxDone t r.pkt s) else rxOffer t s
    | none => rxOffer t s
  else s
/-- RX_DELIVERY (R72, R126–R128). -/
def execRxDelivery (tile : Fin 4096) (s : State) : Host.Outcome State Fault Refusal := .next (deliver tile s)

/-! ## Sending from a tile -/

/-- Refuse a TX packet at the tile's own interface (R125): recorded as local, delivered through the refusal store. -/
def refuseLocal (t : Nat) (p : Packet) (st : Status) (s : State) : State :=
  let s := recordRefusal p st true s
  let q := { refusalOf s.ply.refusals p st with refuses := some { posted := true, num := s.ply.refusals } }
  if storeUsed (tileSt s t).ifc < 4 then s.onIfc t (fun x => { x with respBuf := x.respBuf ++ [(q, false)] })
  else refusalLost q p.dom.val s
/-- The packets a tile's interface has assembled and not yet injected (R125). -/
def assembled (s : State) (t : Nat) : Nat :=
  (List.range 4).foldl (fun a d => a + (plane s (laneKey (5 * t + 4) false d)).out.length) 0
/-- The words of the TX packet with a word taken, and whether it has more than 19 (R125). -/
def txTaken (x : TileIf) (v : Nat) : Bool × List Word :=
  let tooLong := x.txOver || decide (19 ≤ x.txWords.length)
  (tooLong, if tooLong then x.txWords else x.txWords ++ [w32 v])
/-- Whether the interface takes a TX word now: one that ends no packet, the end of one that it refuses itself, or the end of its first
or second packet (R125). -/
def txTakes (s : State) (t v : Nat) : Bool :=
  let (tooLong, ws) := txTaken (tileSt s t).ifc v
  decide (v / 2 ^ 32 % 2 = 0) || tooLong || decide (7 ≤ fld (ws.headD 0) 10 7) || decide (assembled s t < 2)
/-- PLY_TX_PACKET (R72, R125): a TX word is taken; the word with TX_END completes the packet, which is handed to the
router or refused. The third packet's last word waits. -/
def txWord (t : Nat) (s : State) : State :=
  if running s t && txEnabled s t then
    match bundle s t 238 33, logicalAt s t with
    | some v, some l =>
      let ks := bundleSinks s t 238 33
      let (tooLong, ws) := txTaken (tileSt s t).ifc v
      if v / 2 ^ 32 % 2 = 1 then
        let p := packetOf (ws.headD 0) l (tileDom s l) (ws.drop 1)
        let done := s.onIfc t (fun x => { x with txWords := [], txOver := false })
        if tooLong then settle t (raiseAcks (refuseLocal t p stRange done) t ks)
        else if decide (7 ≤ p.op.toNat) then settle t (raiseAcks (refuseLocal t p stUnsupported done) t ks)
        else if assembled s t < 2 then settle t (raiseAcks (queueOut (5 * t + 4) p done) t ks)
        else s
      else settle t (raiseAcks (s.onIfc t (fun x => { x with txWords := ws, txOver := tooLong })) t ks)
    | _, _ => s
  else s
def execPlyTxPacket (tile : Fin 4096) (s : State) : Host.Outcome State Fault Refusal := .next (txWord tile s)

/-! ## Quiescence (R90) -/

/-- The ply interface can offer no word on RX and take none on TX. -/
def ifcQuiet (s : State) (t : Nat) : Bool :=
  let x := (tileSt s t).ifc
  let offers := match x.rx with
    | some r => decide (r.idx ≤ r.pkt.words.length) && resultFree s t 232 39 || decide (r.pkt.words.length < r.idx) && resultNull s t 232 39
    | none => (rxNext x).isSome && resultFree s t 232 39
  let takes := match bundle s t 238 33 with
    | some v => txEnabled s t && txTakes s t v
    | none => false
  !(rxEnabled s t && offers) && !takes
/-- Every channel of a physical tile is at rest (R90): nothing in it can act, and no input sees a rail error, which is none of the
three phases. In a tile that is frozen every rail is null and every acknowledge low (R88). -/
def tileQuiet (s : State) (t : Nat) : Bool :=
  s.fab.frozen || !s.fab.released ||
    (match logicalAt s t with
     | some l => tileFrozen s l
     | none => false) ||
    ((tileSt s t).railBad.isEmpty && cellsQuiet s t && blocksQuiet s t && constsQuiet s t && ifcQuiet s t)

/-! ## Tile RAM windows (R74, R131) -/

/-- The window operation under way, or the next one in the receive buffer. -/
def winStart (s : State) (t : Nat) : Option (WinCur × TileIf) :=
  let x := (tileSt s t).ifc
  match x.win with
  | some w => some (w, x)
  | none =>
    match x.reqBuf.find? (fun (p : Packet) => p.slot == 31) with
    | some p => some ({ pkt := p, idx := 0, acc := [] }, { x with reqBuf := x.reqBuf.erase p })
    | none => none
/-- The words a window operation names. -/
def winWords (p : Packet) : Nat := fld (p.words.getD 0 0) 20 16
/-- Whether a window operation is well formed (R131). -/
def winOk (p : Packet) : Bool :=
  let n := winWords p
  decide (1 ≤ n ∧ n ≤ 16 ∧ fld (p.words.getD 0 0) 10 0 + n ≤ 2048 ∧
    p.words.length = 1 + (if p.op == 2 then 0 else n))
/-- Whether the window's word is due at port B now, against a user operation that waits there and port A (R75, R76). -/
def winDue (s : State) (t : Nat) (met : Bool) (addr : Nat) (wr : Bool) : Bool :=
  let userFirst := (ramWaiting s t true).isSome && !winTurn (tileSt s t) met
  let aFirst := (ramWaiting s t false).any (fun o => ramYields s t met 0 2 (o.1, o.2.2) (addr, wr))
  !userFirst && !aFirst
/-- A window word has been served at port B: a user operation that waits has waited through its turn, and the next word asks
anew. -/
def winServed (userWaits : Bool) (x : TileSt) : TileSt :=
  { x with bLastWin := true, ramOrder := x.ramOrder.map (removeNat 2),
           ramLong := removeNat 2 (if userWaits then insertNat 1 x.ramLong else x.ramLong) }
/-- One word of a window operation, or its refusal where it is malformed; the last word completes it. -/
def winStep (t : Nat) (wr met : Bool) (s : State) : State :=
  if !running s t then s
  else
    match winStart s t with
    | none => s
    | some (w, x) =>
      if (w.pkt.op != 2) != wr then s
      else if !winOk w.pkt then
        let s := s.onIfc t (fun _ => { x with win := none })
        refuseAtExit w.pkt stRange s
      else
        let addr := fld (w.pkt.words.getD 0 0) 10 0 + w.idx
        if !winDue s t met addr wr then s
        else
          let s := s.onTile t (winServed (ramWaiting s t true).isSome)
          let (d, s) := if wr then (w.pkt.words.getD (1 + w.idx) 0, ramPut t addr (w.pkt.words.getD (1 + w.idx) 0) s)
            else ramGet t addr s
          let acc := if wr then [] else w.acc ++ [d]
          if w.idx + 1 = winWords w.pkt then answer w.pkt stOk acc (s.onIfc t (fun _ => { x with win := none }))
          else s.onIfc t (fun _ => { x with win := some { w with idx := w.idx + 1, acc := acc } })
/-- TILE_RAM_WINDOW_READ (R74, R131). -/
def winRead (t : Nat) (met : Bool) (s : State) : State := winStep t false met s
def execTileRamWindowRead (tile : Fin 4096) (met : Bool) (s : State) : Host.Outcome State Fault Refusal :=
  .next (winRead tile met s)
/-- TILE_RAM_WINDOW_WRITE (R74, R131). -/
def winWrite (t : Nat) (met : Bool) (s : State) : State := winStep t true met s
def execTileRamWindowWrite (tile : Fin 4096) (met : Bool) (s : State) : Host.Outcome State Fault Refusal :=
  .next (winWrite tile met s)

end Sys2Proof.Machine
end

