-- ==== Sys2Proof/Machine/Access.lean ====
section
/-! DEFINITION. Access: what every register access shares — the access codes (R18–R20), the owner's and the tenants' rights
— and the reports of crossings (R384, R387, R392, R404). -/
namespace Sys2Proof.Machine

/-- The stored word after a write: RW and LCK fields take the value, W1C bits are cleared by ones (R18, R19). -/
def written (r : Reg) (old v : Word) : Word :=
  let rw := w32 (regDesc r).rw
  ((old &&& ~~~rw) ||| (v &&& rw)) &&& ~~~(v &&& w32 (regDesc r).w1c)
/-- Write the plain fields of a register (instance `i`, `j`) for port `p`. -/
def State.putFields (s : State) (p : Nat) (r : Reg) (i j : Nat) (v : Word) : State :=
  s.setRegP p r i j (written r (s.regP p r i j) v)
/-- Only the owner may: a tenant gets DENIED and nothing changes. -/
def ownerOnly (p : Nat) (act : State → State) (s : State) : State := if p = 0 then act s else s.stat stDenied
/-- The port may reach the spool `n`: the owner, or the tenant whose bitmap holds it (R294). -/
def mayReach (s : State) (p n : Nat) : Bool := p == 0 || (spoolDom s n).val == p
/-- Do `act` and complete with OK. -/
def okAfter (act : State → State) (s : State) : State := (act s).stat stOk
/-- Complete with the first status that is not OK, else do `act` and complete with OK. -/
def checked (l : List Status) (act : State → State) (s : State) : State :=
  if firstBad l = stOk then okAfter act s else s.stat (firstBad l)
/-- DENIED where the condition fails. -/
def allow (b : Bool) : Status := if b then stOk else stDenied
/-- RANGE where the condition fails. -/
def within (b : Bool) : Status := if b then stOk else stRange
/-- BUSY where the condition holds. -/
def busyIf (b : Bool) : Status := if b then stBusy else stOk
/-- Whether port `p`'s command of a command-status register runs (bit 31). -/
def runningCmd (s : State) (p : Nat) (r : Reg) : Bool := bitOf (s.regP p r 0 0) 31

/-! ## Before release (R509, R515) -/

/-- A full load runs, or one has failed: registers outside CFG, SEC, SYS and PWR, and all memory, answer BUSY. -/
def beforeRelease (s : State) : Bool := s.ldr.load.any (fun l => !l.partial_) || s.ldr.state == 5
/-- The blocks that port 0 reaches all the same: SYS, CFG, SEC and PWR in the order of R38. -/
def servedBlock (b : Nat) : Bool := b == 0 || b == 2 || b == 4 || b == 5
/-- A write or a command of a register of the other blocks. -/
def served (act : State → State) (s : State) : State := if beforeRelease s then s.stat stBusy else act s
/-- A read of a register of the other blocks. -/
def servedRead (act : State → State) (s : State) : State := if beforeRelease s then s.finish stBusy [0] else act s

/-! ## Crossing reports -/

/-- FAB_XING_LAST (R404): EVENT, island, index, kind and direction. -/
def xingWord (event isl idx kind : Nat) (out : Bool) : Word :=
  w32 (place 31 1 1 + place 26 2 event + place 12 4 isl + place 4 8 idx + place 2 2 kind + place 0 2 (b2n out))
/-- The island code of a crossing's key. -/
def keyIsl (k : Nat) : Nat := k / 49152
/-- The island index of a crossing's key. -/
def keyIdx (k : Nat) : Nat := k / 768 % 64
/-- The kind of a crossing's key. -/
def keyKind (k : Nat) : Nat := k / 256 % 3
/-- The direction of a crossing's key: out of the island. -/
def keyOut (k : Nat) : Bool := k / 128 % 2 == 1
/-- Which of its kind and direction a crossing is. -/
def keySub (k : Nat) : Nat := k % 128
/-- What XING notifications name: island, index, kind, direction (R401). -/
def xingItems (k : Nat) : List Word := [w32 (keyIsl k), w32 (keyIdx k), w32 (keyKind k), w32 (b2n (keyOut k))]
/-- Record a crossing's report. -/
def xingLast (event k : Nat) (s : State) : State :=
  s.setReg .fabXingLast 0 (xingWord event (keyIsl k) (keyIdx k) (keyKind k) (keyOut k))

/-! ## Value crossings (R382–R385) -/

/-- Whether a channel's or sense pin's subscription is valid (R229, R279). -/
def subValid (s : State) (c : Nat) : Bool := bitOf (if c < 2048 then s.reg .laneSub c else s.reg .timeSenseSub (c - 2048)) 31
/-- The greatest depth among 32 queues from `c` on that have a valid subscription, which the governor reads. -/
def groupDepth (s : State) (c : Nat) : Nat :=
  (List.range 32).foldl (fun a i => if subValid s (c + i) then max a (chan s (c + i)).q.items.length else a) 0
/-- The words that an island's value crossing carries (notes/assumptions/13.md): the greatest depth of a lane's channel queues or of
a pin bank's sense queues, the conflict counters of reel memory, the count of the timebase, the sensors' readings. -/
def xingWords (s : State) (isl idx : Nat) : List Word :=
  match isl with
  | 1 => [w32 (groupDepth s (32 * idx))]
  | 4 => if idx < 2 then [w32 (groupDepth s (2048 + 32 * idx))] else []
  | 3 => (List.range 88).flatMap (fun m => [(s.memory.conf.get 0 m).setWidth 32, ((s.memory.conf.get 0 m) >>> 32).setWidth 32])
  | 5 => [lo32 s.now, hi32 s.now]
  | 6 => s.dst.temps.map (fun b => w32 b.toNat)
  | _ => []
/-- Whether a key names a value crossing that brings an island's values to a reader: out of the island, and into the always-on
domain. -/
def valueOf (isl idx k : Nat) : Bool := keyKind k == 1 && keyIsl k == isl && keyIdx k == idx && keyOut k == (isl != 6)
/-- The words of an island that a reader has (R382): the present ones, while its samples agree; the last accepted ones while they
disagree or the source is in reset (R384, R385). -/
def accepted (s : State) (isl idx : Nat) : List Word :=
  match s.xng.xings.find? (fun e => valueOf isl idx e.1 && (e.2.unstable || e.2.absent)) with
  | some e => e.2.last
  | none => xingWords s isl idx
/-- The sensors' readings as the always-on domain has them. -/
def sensors (s : State) : List Nat := (accepted s 6 0).map (·.toNat)
/-- The depth of the deepest of 32 queues, `g` in order: those of lane g, from 64 on those of pin bank g - 64, as the governor has it. -/
def depthSeen (s : State) (g : Nat) : Nat := ((accepted s (if g < 64 then 1 else 4) (g % 64)).headD 0).toNat
/-- The value crossings of an island code agree again: the run of disagreement has ended (R384). -/
def agree (isl : Nat) (s : State) : State :=
  forEach s.xng.xings (fun e s =>
    if keyKind e.1 = 1 ∧ keyIsl e.1 = isl then s.setXing e.1 { e.2 with unstable := false, last := if e.2.absent then e.2.last else [] } else s) s
/-- Whether the values of an island disagree: a register read served from them completes with FAULT (R384). -/
def unstable (s : State) (isl idx : Nat) : Bool := s.xng.xings.any (fun e => valueOf isl idx e.1 && e.2.unstable)
/-- Finish a register read served from an island's values. -/
def readFrom (isl idx : Nat) (ws : List Word) (s : State) : State :=
  s.finish (if unstable s isl idx then stFault else stOk) ws

/-! ## Sources of event counters (R603, R606) -/

/-- The class of a source word. -/
def srcClass (v : Word) : Nat := fld v 31 28
/-- The index of a source word. -/
def srcIndex (v : Word) : Nat := fld v 27 16
/-- The island and index whose crossing carries a source's tally; none for the clockless side (R377, R606). -/
def srcIsland (v : Word) : Option (Nat × Nat) :=
  match srcClass v with
  | 1 => some (1, srcIndex v)
  | 2 => some (if srcIndex v < 2048 then (1, srcIndex v / 32) else (4, (srcIndex v - 2048) / 32))
  | 4 => some (3, 0)
  | 5 => some (2, srcIndex v)
  | 7 => some (6, 0)
  | 8 => some (5, 0)
  | _ => none
/-- The tallies of an island restart at 0, and what the counters of its sources read next is their new base (R607). -/
def restartTallies (isl idx : Nat) (s : State) : State :=
  let of (v : Word) : Bool := srcIsland v == some (isl, idx)
  { s with obs := { s.obs with
      tally := s.obs.tally.filter (fun e => !of (w32 e.1))
      cnts := s.obs.cnts.map (fun e => if of (s.reg .obsCntSrc e.1) then (e.1, { e.2 with base := none }) else e) } }

/-! ## One-sided reset (R392, R393) -/

/-- The attachment's port whose ring a bundle crossing into a lane's or host port's island is. -/
def xingPort (s : State) (k : Nat) : Option Nat :=
  if keyKind k = 0 ∧ !keyOut k then
    match keyIsl k with
    | 1 => if keySub k = 0 then some (portOf s (.lane (keyIdx k)) 0) else none
    | 2 => if keySub k < 2 then some (portOf s (.mbox (keyIdx k) 0) (keySub k)) else none
    | _ => none
  else none
/-- What has crossed in part is discarded: the ring's entries and the packets half put together behind it. -/
def cutXing (k : Nat) (s : State) : State :=
  match xingPort s k with
  | some port =>
    forEach (List.range 8) (fun v s => s.setAsm (8 * port + v) []) { s with ply := { s.ply with ring := s.ply.ring.set [] port [] } }
  | none => s
/-- A side enters reset: the islands of the crossing wake to take it (R391). A lane writer's crossing and the memory path of a host
port have reel memory at their other side. -/
def wakePeers (k : Nat) (s : State) : State :=
  let s := wakeIsl (keyIsl k) (keyIdx k) s
  if keyKind k = 0 ∧ ((keyIsl k = 1 ∧ keySub k = 1) ∨ (keyIsl k = 2 ∧ keySub k = 9)) then wakeIsl 3 0 s else s
/-- The peer of a crossing enters reset (R392): half-finished transfers and pending pulses are dropped, a value stays as it was
accepted last and the tallies behind it restart, the crossing is absent, the event is reported. -/
def peerReset (k : Nat) (s : State) : State :=
  let x := xing s k
  let last := if keyKind k = 1 ∧ !x.unstable ∧ !x.absent then xingWords s (keyIsl k) (keyIdx k) else x.last
  let s := if keyKind k = 1 ∧ keyOut k then restartTallies (keyIsl k) (keyIdx k) s else s
  let s := cutXing k ((wakePeers k s).setXing k { x with busy := false, pending := 0, overrun := false, absent := true, last := last })
  notifyOwner 0x6D 0 (xingItems k) (xingLast 2 k (s.bump .fabXingPeer 0 1))
/-- The crossings that a lane's or host port's island (code 1 or 2) shares, `n` attachments of it (notes/assumptions/13.md): its
attachments and its register path, both ways; its values and the timebase's snapshots; commit ticks, TBSYNC indices and, outward,
its notification triggers. A lane writer's crossing follows once it has nothing left (R393). -/
def islandXings (isl idx n : Nat) : List Nat :=
  (List.range n ++ [8]).flatMap (fun k => [xkey isl idx 0 false k, xkey isl idx 0 true k]) ++
    [xkey isl idx 1 false 0, xkey isl idx 1 true 0, xkey isl idx 2 false 0, xkey isl idx 2 false 1, xkey isl idx 2 true 0]
/-- A lane's. -/
def laneXings (n : Nat) : List Nat := islandXings 1 n 1
/-- A host port's, with its path to reel memory. -/
def portXings (p : Nat) : List Nat := islandXings 2 p 2 ++ [xkey 2 p 0 false 9, xkey 2 p 0 true 9]

end Sys2Proof.Machine
end

