-- ==== Sys2Proof/Machine/Crypto.lean ====
section
/-! DEFINITION. Crypto: SHA-256 (R510, R554, R564), RSASSA-PSS verification with SHA-256 (R511) and AES-256-GCM
(R512). The spec names the algorithms; their text is that of the published standards (PRESUMED,
notes/assumptions/15.md). Byte strings are lists, first byte first. -/
namespace Sys2Proof.Machine

/-! ## SHA-256 -/

/-- The round constants. -/
def shaK : List Word :=
  [0x428a2f98, 0x71374491, 0xb5c0fbcf, 0xe9b5dba5, 0x3956c25b, 0x59f111f1, 0x923f82a4, 0xab1c5ed5] ++
   [0xd807aa98, 0x12835b01, 0x243185be, 0x550c7dc3, 0x72be5d74, 0x80deb1fe, 0x9bdc06a7, 0xc19bf174] ++
   [0xe49b69c1, 0xefbe4786, 0x0fc19dc6, 0x240ca1cc, 0x2de92c6f, 0x4a7484aa, 0x5cb0a9dc, 0x76f988da] ++
   [0x983e5152, 0xa831c66d, 0xb00327c8, 0xbf597fc7, 0xc6e00bf3, 0xd5a79147, 0x06ca6351, 0x14292967] ++
   [0x27b70a85, 0x2e1b2138, 0x4d2c6dfc, 0x53380d13, 0x650a7354, 0x766a0abb, 0x81c2c92e, 0x92722c85] ++
   [0xa2bfe8a1, 0xa81a664b, 0xc24b8b70, 0xc76c51a3, 0xd192e819, 0xd6990624, 0xf40e3585, 0x106aa070] ++
   [0x19a4c116, 0x1e376c08, 0x2748774c, 0x34b0bcb5, 0x391c0cb3, 0x4ed8aa4a, 0x5b9cca4f, 0x682e6ff3] ++
   [0x748f82ee, 0x78a5636f, 0x84c87814, 0x8cc70208, 0x90befffa, 0xa4506ceb, 0xbef9a3f7, 0xc67178f2]
/-- The initial chaining value. -/
def shaInit : List Word := [0x6a09e667, 0xbb67ae85, 0x3c6ef372, 0xa54ff53a, 0x510e527f, 0x9b05688c, 0x1f83d9ab, 0x5be0cd19]
/-- Rotate right. -/
def ror (x : Word) (n : Nat) : Word := x >>> n ||| x <<< (32 - n)
/-- The next word of the message schedule from the schedule so far, newest first. -/
def shaNext (r : List Word) : Word :=
  let a := r.getD 1 0
  let b := r.getD 14 0
  (ror a 17 ^^^ ror a 19 ^^^ a >>> 10) + r.getD 6 0 + (ror b 7 ^^^ ror b 18 ^^^ b >>> 3) + r.getD 15 0
/-- Extend the schedule by `n` words. -/
def shaExtend : Nat → List Word → List Word
  | 0, r => r
  | n + 1, r => shaExtend n (shaNext r :: r)
/-- One round on the eight working words. -/
def shaRound (v : List Word) (kw : Word) : List Word :=
  let a := v.getD 0 0
  let e := v.getD 4 0
  let s1 := ror e 6 ^^^ ror e 11 ^^^ ror e 25
  let ch := (e &&& v.getD 5 0) ^^^ (~~~e &&& v.getD 6 0)
  let t1 := v.getD 7 0 + s1 + ch + kw
  let s0 := ror a 2 ^^^ ror a 13 ^^^ ror a 22
  let mj := (a &&& v.getD 1 0) ^^^ (a &&& v.getD 2 0) ^^^ (v.getD 1 0 &&& v.getD 2 0)
  [t1 + s0 + mj, a, v.getD 1 0, v.getD 2 0, v.getD 3 0 + t1, e, v.getD 5 0, v.getD 6 0]
/-- Add two lists of words place by place. -/
def addWords : List Word → List Word → List Word
  | a :: s, b :: t => (a + b) :: addWords s t
  | _, _ => []
/-- Absorb one block of 16 words. -/
def shaBlock (h blk : List Word) : List Word :=
  addWords h ((addWords shaK (shaExtend 48 blk.reverse).reverse).foldl shaRound h)
/-- Absorb `n` blocks. -/
def shaBlocks : Nat → List Word → List Word → List Word
  | 0, h, _ => h
  | n + 1, h, ws => shaBlocks n (shaBlock h (ws.take 16)) (ws.drop 16)
/-- Big-endian words of a byte string. -/
def beWords : List Byte → List Word
  | a :: b :: c :: d :: t => (a ++ b ++ c ++ d : BitVec 32) :: beWords t
  | _ => []
/-- `n` bytes of a number, most significant first. -/
def beBytes : Nat → Nat → List Byte
  | 0, _ => []
  | n + 1, v => BitVec.ofNat 8 (v / 256 ^ n) :: beBytes n v
/-- The bytes of a big-endian word. -/
def beWordBytes (w : Word) : List Byte := beBytes 4 w.toNat
/-- The SHA-256 digest. -/
def sha256 (m : List Byte) : List Byte :=
  let zeros := (119 - m.length % 64) % 64
  let ws := beWords (m ++ 0x80 :: List.replicate zeros 0 ++ beBytes 8 (8 * m.length))
  (shaBlocks (ws.length / 16) shaInit ws).flatMap beWordBytes

/-! ## RSASSA-PSS -/

/-- Repeated squaring modulo `n`. -/
def sqMod (n : Nat) : Nat → Nat → Nat
  | 0, x => x
  | k + 1, x => sqMod n k (x * x % n)
/-- x to the power 65,537 modulo n. -/
def powF4 (n x : Nat) : Nat := sqMod n 16 (x % n) * x % n
/-- MGF1 with SHA-256: `k` digests of the seed and a counter. -/
def mgf1 (seed : List Byte) (k : Nat) : List Byte := (List.range k).flatMap (fun i => sha256 (seed ++ beBytes 4 i))
/-- Place by place exclusive or. -/
def xorBytes : List Byte → List Byte → List Byte
  | a :: s, b :: t => (a ^^^ b) :: xorBytes s t
  | _, _ => []
/-- Whether a signature verifies over a message with digest `mh` under a modulus (salt of 32 bytes). -/
def pssVerify (modulus sig mh : List Byte) : Bool :=
  let n := beNat modulus
  let s := beNat sig
  let emBits := Nat.log2 n
  let emLen := (emBits + 7) / 8
  let em := beBytes emLen (powF4 n s)
  let dbLen := emLen - 33
  let hh := (em.drop dbLen).take 32
  let top : Byte := BitVec.ofNat 8 (255 / 2 ^ (8 * emLen - emBits))
  let db := xorBytes (em.take dbLen) (mgf1 hh ((dbLen + 31) / 32))
  let db := match db with
    | a :: t => (a &&& top) :: t
    | [] => []
  let salt := db.drop (dbLen - 32)
  decide (n ≠ 0 ∧ s < n ∧ powF4 n s < 2 ^ emBits ∧ 66 ≤ emLen) && em.getLastD 0 == 0xBC &&
    ((em.headD 0) &&& ~~~top) == 0 && (db.take (dbLen - 33)).all (· == 0) && db.getD (dbLen - 33) 0 == 1 &&
    hh == sha256 (List.replicate 8 0 ++ mh ++ salt)

/-- The encoding of a digest `mh` with a salt, in `bits` bits: what `pssVerify` takes apart. -/
def pssEncode (bits : Nat) (mh salt : List Byte) : List Byte :=
  let len := (bits + 7) / 8
  let n := len - 33
  let hh := sha256 (List.replicate 8 0 ++ mh ++ salt)
  let top : Byte := BitVec.ofNat 8 (255 / 2 ^ (8 * len - bits))
  let db := match xorBytes (List.replicate (n - 33) 0 ++ 1 :: salt) (mgf1 hh ((n + 31) / 32)) with
    | a :: t => (a &&& top) :: t
    | [] => []
  db ++ hh ++ [0xBC]
/-- x to the power e modulo n, where e has at most the given number of bits. -/
def powMod (n x : Nat) : Nat → Nat → Nat
  | 0, _ => 1 % n
  | k + 1, e =>
    let h := powMod n x k (e / 2)
    if e % 2 = 1 then h * h % n * x % n else h * h % n
/-- The private exponent of primes p and q: the inverse of 65,537 modulo (p − 1)(q − 1). -/
def inverseF4 (p q : Nat) : Nat :=
  let m := (p - 1) * (q - 1)
  match (List.range 65537).find? (fun k => (1 + k * m) % 65537 == 0) with
  | some k => (1 + k * m) / 65537
  | none => 0
/-- A signature of a digest with a salt under the key of primes p and q, as a 384-byte string (R511, R567). -/
def pssSign (p q : Nat) (mh salt : List Byte) : List Byte :=
  let n := p * q
  beBytes 384 (powMod n (beNat (pssEncode (Nat.log2 n) mh salt) % n) 3072 (inverseF4 p q))

/-! ## AES-256 in Galois/counter mode -/

/-- The substitution box. -/
def aesS : List Byte :=
  [0x63, 0x7c, 0x77, 0x7b, 0xf2, 0x6b, 0x6f, 0xc5, 0x30, 0x01, 0x67, 0x2b, 0xfe, 0xd7, 0xab, 0x76] ++
   [0xca, 0x82, 0xc9, 0x7d, 0xfa, 0x59, 0x47, 0xf0, 0xad, 0xd4, 0xa2, 0xaf, 0x9c, 0xa4, 0x72, 0xc0] ++
   [0xb7, 0xfd, 0x93, 0x26, 0x36, 0x3f, 0xf7, 0xcc, 0x34, 0xa5, 0xe5, 0xf1, 0x71, 0xd8, 0x31, 0x15] ++
   [0x04, 0xc7, 0x23, 0xc3, 0x18, 0x96, 0x05, 0x9a, 0x07, 0x12, 0x80, 0xe2, 0xeb, 0x27, 0xb2, 0x75] ++
   [0x09, 0x83, 0x2c, 0x1a, 0x1b, 0x6e, 0x5a, 0xa0, 0x52, 0x3b, 0xd6, 0xb3, 0x29, 0xe3, 0x2f, 0x84] ++
   [0x53, 0xd1, 0x00, 0xed, 0x20, 0xfc, 0xb1, 0x5b, 0x6a, 0xcb, 0xbe, 0x39, 0x4a, 0x4c, 0x58, 0xcf] ++
   [0xd0, 0xef, 0xaa, 0xfb, 0x43, 0x4d, 0x33, 0x85, 0x45, 0xf9, 0x02, 0x7f, 0x50, 0x3c, 0x9f, 0xa8] ++
   [0x51, 0xa3, 0x40, 0x8f, 0x92, 0x9d, 0x38, 0xf5, 0xbc, 0xb6, 0xda, 0x21, 0x10, 0xff, 0xf3, 0xd2] ++
   [0xcd, 0x0c, 0x13, 0xec, 0x5f, 0x97, 0x44, 0x17, 0xc4, 0xa7, 0x7e, 0x3d, 0x64, 0x5d, 0x19, 0x73] ++
   [0x60, 0x81, 0x4f, 0xdc, 0x22, 0x2a, 0x90, 0x88, 0x46, 0xee, 0xb8, 0x14, 0xde, 0x5e, 0x0b, 0xdb] ++
   [0xe0, 0x32, 0x3a, 0x0a, 0x49, 0x06, 0x24, 0x5c, 0xc2, 0xd3, 0xac, 0x62, 0x91, 0x95, 0xe4, 0x79] ++
   [0xe7, 0xc8, 0x37, 0x6d, 0x8d, 0xd5, 0x4e, 0xa9, 0x6c, 0x56, 0xf4, 0xea, 0x65, 0x7a, 0xae, 0x08] ++
   [0xba, 0x78, 0x25, 0x2e, 0x1c, 0xa6, 0xb4, 0xc6, 0xe8, 0xdd, 0x74, 0x1f, 0x4b, 0xbd, 0x8b, 0x8a] ++
   [0x70, 0x3e, 0xb5, 0x66, 0x48, 0x03, 0xf6, 0x0e, 0x61, 0x35, 0x57, 0xb9, 0x86, 0xc1, 0x1d, 0x9e] ++
   [0xe1, 0xf8, 0x98, 0x11, 0x69, 0xd9, 0x8e, 0x94, 0x9b, 0x1e, 0x87, 0xe9, 0xce, 0x55, 0x28, 0xdf] ++
   [0x8c, 0xa1, 0x89, 0x0d, 0xbf, 0xe6, 0x42, 0x68, 0x41, 0x99, 0x2d, 0x0f, 0xb0, 0x54, 0xbb, 0x16]
/-- Substitute a byte. -/
def subByte (b : Byte) : Byte := aesS.getD b.toNat 0
/-- Multiply by x in the field of the cipher. -/
def xtime (b : Byte) : Byte := b <<< 1 ^^^ (if b.msb then 0x1b else 0)
/-- The next 4-byte word of the key schedule; `r` is the schedule so far, newest first, `i` its length. -/
def keyNext (r : List (List Byte)) (i : Nat) (rcon : Byte) : List Byte :=
  let t := r.getD 0 []
  let t := if i % 8 = 0 then
      match (t.drop 1 ++ t.take 1).map subByte with
      | a :: u => (a ^^^ rcon) :: u
      | [] => []
    else if i % 8 = 4 then t.map subByte else t
  xorBytes t (r.getD 7 [])
/-- Extend the schedule by `n` words. -/
def keyExtend : Nat → List (List Byte) → Nat → Byte → List (List Byte)
  | 0, r, _, _ => r
  | n + 1, r, i, rcon => keyExtend n (keyNext r i rcon :: r) (i + 1) (if i % 8 = 0 then xtime rcon else rcon)
/-- Cut a byte string into pieces of 4 bytes. -/
def quads : List Byte → List (List Byte)
  | a :: b :: c :: d :: t => [a, b, c, d] :: quads t
  | _ => []
/-- The 60 words of the key schedule of a 32-byte key, oldest first. -/
def keySchedule (key : List Byte) : List (List Byte) := (keyExtend 52 (quads key).reverse 8 1).reverse
/-- The rows are shifted. -/
def shiftRows (b : List Byte) : List Byte := (List.range 16).map (fun i => b.getD ((i + 4 * (i % 4)) % 16) 0)
/-- One column is mixed. -/
def mixColumn (c : List Byte) : List Byte :=
  (List.range 4).map (fun i =>
    let a := c.getD i 0
    let b := c.getD ((i + 1) % 4) 0
    xtime a ^^^ (xtime b ^^^ b) ^^^ c.getD ((i + 2) % 4) 0 ^^^ c.getD ((i + 3) % 4) 0)
/-- The round key of round `r`. -/
def roundKey (ks : List (List Byte)) (r : Nat) : List Byte := ((ks.drop (4 * r)).take 4).flatten
/-- Encrypt one block of 16 bytes. -/
def aesEncrypt (ks : List (List Byte)) (b : List Byte) : List Byte :=
  let b := (List.range 13).foldl (fun b r =>
    xorBytes ((quads (shiftRows (b.map subByte))).map mixColumn).flatten (roundKey ks (r + 1))) (xorBytes b (roundKey ks 0))
  xorBytes (shiftRows (b.map subByte)) (roundKey ks 14)

/-- The product in the field of the authenticator; bit 127 is the first. -/
def ghashMul : Nat → BitVec 128 → BitVec 128 → BitVec 128 → BitVec 128
  | 0, z, _, _ => z
  | n + 1, z, v, x =>
    let z := if x.getLsbD n then z ^^^ v else z
    let v := if v.getLsbD 0 then v >>> 1 ^^^ (0xE1#128 <<< 120) else v >>> 1
    ghashMul n z v x
/-- Cut a byte string into blocks of 16, the last filled with zeros; `n` blocks. -/
def blocks16 : Nat → List Byte → List (BitVec 128)
  | 0, _ => []
  | n + 1, l => BitVec.ofNat 128 (beNat ((l ++ List.replicate 16 0).take 16)) :: blocks16 n (l.drop 16)
/-- The authenticator over additional data and ciphertext. -/
def ghash (h : BitVec 128) (aad ct : List Byte) : BitVec 128 :=
  (blocks16 ((aad.length + 15) / 16) aad ++ blocks16 ((ct.length + 15) / 16) ct ++
    [BitVec.ofNat 128 (8 * aad.length * 2 ^ 64 + 8 * ct.length)]).foldl (fun y b => ghashMul 128 0 h (y ^^^ b)) 0
/-- Decrypt and check: the plaintext, or none where the tag does not verify. -/
def gcmOpen (key iv aad ct tag : List Byte) : Option (List Byte) :=
  let ks := keySchedule key
  let h := BitVec.ofNat 128 (beNat (aesEncrypt ks (List.replicate 16 0)))
  let mask (i : Nat) : List Byte := aesEncrypt ks (iv ++ beBytes 4 i)
  let t := xorBytes (beBytes 16 (ghash h aad ct).toNat) (mask 1)
  if t == tag then
    some (xorBytes ct ((List.range ((ct.length + 15) / 16)).flatMap (fun i => mask (i + 2))))
  else none

end Sys2Proof.Machine
end

