-- ==== Sys2Proof/Machine/Memory.lean ====
section
/-! DEFINITION. Memory: reel memory (R341–R376): rights, operations as word requests at banks, arbitration, error
correction, bank arbitration, the testers, retention; and the memory gateways (R130). -/
namespace Sys2Proof.Machine

/-! ## Places and rights -/

/-- Whether a 64 KiB position lies in the data area of domain `d` (R349). -/
def inArea (s : State) (d u : Nat) : Bool :=
  let a := s.reg .memDomArea d
  decide (fld a 28 16 ≤ u ∧ u < fld a 28 16 + fld a 12 0)
/-- The domain whose data area holds a position. -/
def areaDom (s : State) (u : Nat) : Option Nat := (List.range 4).find? (fun d => inArea s d u)
/-- The spool that has a segment at a position. -/
def segSpool (s : State) (u : Nat) : Option Nat :=
  (s.spl.spools.find? (fun e => e.2.segs.contains u ||
    (match e.2.swap with
     | some w => w.new == u || w.old == u
     | none => false))).map (·.1)
/-- The domain that a word's error concerns (R366): its data area's, its spool's, else the requester's. -/
def wordDom (s : State) (w dom : Nat) : Nat :=
  match areaDom s (w / 8192) with
  | some d => d
  | none =>
    match segSpool s (w / 8192) with
    | some n => (spoolDom s n).val
    | none => dom

/-- Whether an access to reel memory is allowed (R40, R41, R350): by a host port or a ply operation, on behalf of domain
`d`, at offset `a` of reel memory. A spool segment is written by its lane writer alone, wherever it lies. -/
def memAllowed (s : State) (isHost : Bool) (d : Nat) (write : Bool) (a : Nat) : Bool :=
  if 0x1F000000 ≤ a then
    !write && isHost &&
      (if d = 0 then decide (a < 0x1FF00000) else decide (0x1FD00000 + d * 0x40000 ≤ a ∧ a < 0x1FD00000 + (d + 1) * 0x40000))
  else
    match segSpool s (a / 65536), areaDom s (a / 65536) with
    | none, some e => d == 0 || e == d
    | _, _ => isHost && d == 0 && !write
/-- A refused access: counted against the domain and raised (R350). -/
def memDenied (d : Nat) (s : State) : State :=
  notifyOnce 0x74 d d 1 [w32 d] (s.bump .memDomDenied d 1)

/-! ## Error correction (R347, R348) -/

/-- The flipped bits of a reel word. -/
def flips (s : State) (w : Nat) : List Nat := s.memory.err.get [] w
/-- The data as written: stored bits with the flipped ones turned back. -/
def trueData (s : State) (w : Nat) : DWord :=
  (flips s w).foldl (fun d k => if k < 64 then d ^^^ BitVec.ofNat 64 (2 ^ k) else d) (reelWord s w)
/-- A single-bit error is counted and its write-back queued (R347). -/
def corrected (w : Nat) (s : State) : State :=
  let g := w / 2 ^ 22
  let s := (s.bump .memGrpCorr g 1).onMem (fun m =>
    { m with fixq := m.fixq.set [] (bankOf w) (insertNat w (m.fixq.get [] (bankOf w))) })
  notifyOnce 0x70 g 0 1 [w32 g] (tally 4 g 2 s)
/-- An uncorrectable word is counted, recorded and raised (R348); the syndrome is not given by the spec (a free
value). -/
def uncorrectable (w master dom : Nat) (tester : Bool) (s : State) : State :=
  let syn := fld s.free 7 0
  let s := (s.nextFree.bump .memGrpUncorr (w / 2 ^ 22) 1).setReg .memErrAddr 0 (w32 (place 31 1 1 + place 3 26 w))
  let s := s.setReg .memErrInfo 0 (w32 (place 17 7 master + place 16 1 (b2n tester) + place 8 8 syn))
  notify 0x71 (wordDom s w dom) [w32 (8 * w), w32 master, w32 syn] s
/-- What a granted read of a reel word finds, by a master for a domain: its data, or none where it is uncorrectable. -/
def eccRead (w master dom : Nat) (s : State) : Option DWord × State :=
  match flips s w with
  | [] => (some (reelWord s w), s)
  | [_] => (some (trueData s w), corrected w s)
  | _ => (none, uncorrectable w master dom false s)
/-- CORRECTED_WRITE_BACK (R347): the next word waiting at a bank is written back corrected. -/
def writeBack (b : Nat) (s : State) : State :=
  match s.memory.fixq.get [] b with
  | [] => s
  | w :: _ => if !memLive s || s.memory.ret.contains (b / 16) then s else putReel w (trueData s w) s
def execCorrectedWriteBack (g bank : Fin 16) (s : State) : Host.Outcome State Fault Refusal :=
  .next (writeBack (16 * g + bank) s)

/-! ## Operations -/

/-- The pointers of a bank queue. -/
def qptr (x : BankSt) (master cls : Nat) : QPtr := x.ptrs.get { rd := 0, rd2 := 0, wr := 0, wr2 := 0 } (8 * master + cls)
/-- Store them. -/
def BankSt.setPtr (x : BankSt) (master cls : Nat) (p : QPtr) : BankSt :=
  { x with ptrs := x.ptrs.set { rd := 0, rd2 := 0, wr := 0, wr2 := 0 } (8 * master + cls) p }
/-- Whether every bank queue an operation needs has room: 4 entries per domain at a gateway or the hasher (R352). -/
def bankRoom (s : State) (master cls a n : Nat) : Bool :=
  (wordReqs 0 a n []).all (fun r =>
    decide (((bank s (bankOf r.word)).reqs.filter (fun e => e.2.1 == master && e.2.2 == cls)).length < 4))

/-- The bytes a finished read returns. -/
def opBytes (o : MemOp) : List Byte :=
  (List.range o.count).map (fun i =>
    let a := o.addr + i
    BitVec.ofNat 8 ((o.got.get 0 (a / 8)).toNat / 2 ^ (8 * (a % 8)) % 256))
/-- Answer a finished operation (R130, R143, R348, R460); a notification's record is in its queue (R468). -/
def answerOp (o : MemOp) (s : State) : State :=
  match o.src with
  | .notice p => noticeWritten p s
  | .host p tag => formRsp p tag o.status (if o.kind = .rd ∧ o.status = stOk then dwordsOfBytes (opBytes o) else []) s
  | .ply req _ =>
    if o.drop then s
    else if o.refused || (req.op == 4 && o.status != stOk) then refuseAtExit req o.status s
    else answer req o.status (if o.kind = .rd ∧ o.status = stOk then wordsOfBytes (opBytes o) else []) s
/-- Two operations of one sender at one gateway, or two records for one notification queue. -/
def sameSender (a b : MemOp) : Bool :=
  match a.src, b.src with
  | .ply p _, .ply q _ => p.src == q.src && p.dest == q.dest
  | .notice p, .notice q => p == q
  | _, _ => false
/-- Answer the finished operations of one sender in the order its requests arrived (R355); records enter their queue in order
(R468). -/
def flushOps : Nat → MemOp → State → State
  | 0, _, s => s
  | n + 1, o, s =>
    match s.memory.ops.find? (fun e => sameSender e.2 o) with
    | some (id, x) =>
      if x.left = 0 then flushOps n o (answerOp x (s.onMem (fun m => { m with ops := m.ops.erase id }))) else s
    | none => s
/-- An operation is finished: a host's is answered at once, a ply sender's and a record's in order. -/
def finishOp (id : Nat) (s : State) : State :=
  match s.memory.ops.find id with
  | some o =>
    match o.src with
    | .host _ _ => answerOp o (s.onMem (fun m => { m with ops := m.ops.erase id }))
    | _ => flushOps s.memory.ops.length o s
  | none => s
/-- An operation that has lost a request completes with FAULT: what else it waits for is discarded (R400). -/
def failOp (id : Nat) (s : State) : State :=
  finishOp id (s.onMem (fun m => { m with
    banks := m.banks.map (fun e => (e.1, { e.2 with reqs := e.2.reqs.filter (fun r => r.1.op != id) })),
    ops := m.ops.map (fun e => if e.1 = id then (e.1, { e.2 with status := stFault, left := 0 }) else e) }))
/-- One word of an operation is done. -/
def wordDone (id : Nat) (w : Nat) (d : Option DWord) (s : State) : State :=
  match s.memory.ops.find id with
  | some o =>
    let o := match d with
      | some v => { o with left := o.left - 1, got := if o.kind = .rd then o.got.put w v else o.got }
      | none => { o with left := o.left - 1, status := stFault }
    let s := s.onMem (fun m => { m with ops := m.ops.put id o })
    if o.left = 0 then finishOp id s else s
  | none => s

/-- The word that a partial or alias write leaves (R36, R344). -/
def mergeWord (kind : MemKind) (old new : DWord) (mask : Byte) : DWord :=
  let m : DWord := BitVec.ofNat 64 ((List.range 8).foldl (fun a k => if bitOf mask k then a + 255 * 2 ^ (8 * k) else a) 0)
  match kind with
  | .rd => old
  | .wr => (old &&& ~~~ m) ||| (new &&& m)
  | .set => old ||| (new &&& m)
  | .clr => old &&& ~~~ (new &&& m)
/-- Perform a granted request (R342, R344, R347, R348). The contents of the Distaff tables are not given by the spec: a
read there returns a free value. -/
def performReq (r : WordReq) (o : MemOp) (s : State) : State :=
  match o.kind with
  | .rd =>
    let (d, s) := eccRead r.word o.master o.dom.val s
    if 0x1FE00000 ≤ 8 * r.word ∧ 8 * r.word < 0x1FF00000 then wordDone r.op r.word (d.map (fun _ => s.free)) s.nextFree
    else wordDone r.op r.word d s
  | k =>
    if isRmw k r.mask then
      match eccRead r.word o.master o.dom.val s with
      | (some d, s) => wordDone r.op r.word (some 0) (putReel r.word (mergeWord k d r.data r.mask) s)
      | (none, s) => wordDone r.op r.word none s
    else wordDone r.op r.word (some 0) (putReel r.word r.data s)

/-! ## Bank arbitration (R352–R356) -/

/-- Whether a master keeps hard queues at the banks, one for each domain: a gateway and the hasher (R352). -/
def hasQueues (master : Nat) : Bool := (decide (64 ≤ master) && decide (master < 80)) || master == 86
/-- Both copies of each pointer of a bank queue agree (R399). -/
def queueOk (s : State) (b master cls : Nat) : Bool :=
  !hasQueues master || (let p := qptr (bank s b) master cls
    p.rd == p.rd2 && p.wr == p.wr2)
/-- A bank queue's pointer fault (R399–R401): its requests are discarded and their operations complete with FAULT. -/
def bankFault (b master cls : Nat) (s : State) : State :=
  let x := bank s b
  let lost := (x.reqs.filter (fun e => e.2.1 == master && e.2.2 == cls)).map (fun e => e.1.op)
  let p := qptr x master cls
  let s := s.setBank b ({ x with reqs := x.reqs.filter (fun e => !(e.2.1 == master && e.2.2 == cls)) }.setPtr master cls
    { rd := p.rd, rd2 := p.rd, wr := p.rd, wr2 := p.rd })
  let s := queueFault (if master = 86 then 7 else 6) (4 * b + (cls - 1)) 0 s
  forEach lost failOp s
/-- Enter a word request in its bank's queue; an operation that has failed enters no more. -/
def pushReq (master cls : Nat) (r : WordReq) (s : State) : State :=
  let b := bankOf r.word
  if !s.memory.ops.any (fun e => e.1 == r.op && decide (e.2.left ≠ 0)) then s
  else if !queueOk s b master cls then failOp r.op (bankFault b master cls s)
  else
    let x := bank s b
    let p := qptr x master cls
    s.setBank b ({ x with reqs := x.reqs ++ [(r, master, cls)] }.setPtr master cls
      { p with wr := (p.wr + 1) % 4, wr2 := (p.wr2 + 1) % 4 })
/-- Start an operation: its requests enter the banks. -/
def startOp (op : MemOp) (bs : List Byte) (s : State) : State :=
  let id := s.memory.nextOp
  let rs := wordReqs id op.addr op.count bs
  let s := s.onMem (fun m => { m with nextOp := id + 1, ops := m.ops.put id { op with left := rs.length } })
  forEach rs (pushReq op.master (1 + op.dom.val)) s

/-- The request at the head of a queue leaves it and is performed in `n` slots; a pointer fault discards the queue. The
masters `also` wait too. -/
def serveReq (b master cls n : Nat) (also : List Nat) (s : State) : State :=
  match oldestOf (bank s b) master cls with
  | none => s
  | some r =>
    if !queueOk s b master cls then bankFault b master cls s
    else
      let x := bank s b
      let p := qptr x master cls
      let y := { x with reqs := x.reqs.erase (r, master, cls) }
      let s := s.setBank b (y.setPtr master cls { p with rd := (p.rd + 1) % 4, rd2 := (p.rd2 + 1) % 4 })
      let s := takeSlot r.word master also n s
      match s.memory.ops.find r.op with
      | some o => performReq r o s
      | none => s
/-- What a turn serves: a lane writer has its slot, and writes its word with SPOOL_WRITE; a request is performed. The masters
`also` wait too. -/
def serveOne (b : Nat) (t : Turn) (also : List Nat) (s : State) : State :=
  match t.cls with
  | none =>
    match writerWord s (lane s t.master) with
    | some w => takeSlot w t.master also 1 (s.setLane t.master { lane s t.master with slot := true })
    | none => s
  | some c =>
    match oldestOf (bank s b) t.master c with
    | some r => serveReq b t.master c (reqCost s r) also s
    | none => s
/-- Serve a turn of a bank, which the bank records. -/
def serveTurn (b : Nat) (t : Turn) (also : List Nat) (s : State) : State :=
  serveOne b t also (s.setBank b ((bank s b).served t))
/-- Who is served from the shadow of a bank next (R359): in the order of R353 (R361), of the lane writers and the heads of
queues whose word is under test. -/
def shadowTurn (s : State) (b : Nat) : Option Turn :=
  pickAmong s b ((writersAt s b).filter (fun k => (writerWord s (lane s k)).any (inTest s)))
    ((bank s b).reqs.filter (fun e => inTest s e.1.word && decide (oldestOf (bank s b) e.2.1 e.2.2 = some e.1))) none
/-- Serve one that waits at a bank: from the shadow without a slot or a turn (R359), else in the next slot (R353). -/
def serveNext (b : Nat) (s : State) : State :=
  match shadowTurn s b with
  | some t => serveOne b t [] s
  | none =>
    match pickSlot s b none with
    | some t => serveTurn b t [] s
    | none => s
/-- A bank group is idle: no request and no lane writer waits at its banks and no region of it is under test. -/
def groupIdle (s : State) (g : Nat) : Bool :=
  (List.range 16).all (fun b => (bank s (16 * g + b)).reqs.isEmpty && (writersAt s (16 * g + b)).isEmpty) &&
    (match s.memory.test with
     | some t => t.group != g
     | none => true)
/-- 2^20 ticks have passed since a bank group's last access (R364). -/
def longIdle (s : State) (g : Nat) : Bool := decide (2 ^ 20 ≤ (s.now - s.memory.lastUse.get 0 g).toNat)
/-- A group that is asked into retention enters once it is idle (R363); one that an access has woken, 2^20 ticks after its last
access (R364). -/
def enterRet (g : Nat) (s : State) : State :=
  if bitOf (s.reg .memCtl 0) g && groupIdle s g && !retained s g && (!s.memory.woken.contains g || longIdle s g) then
    s.onMem (fun m => { m with ret := insertNat g m.ret, waking := removeNat g m.waking, woken := removeNat g m.woken })
  else s
/-- REEL_WORD_ACCESS (R342, R353, R359, R364): the bank's next slot goes to one that waits there. In a group in retention a
request wakes the group and waits; a group that is asked into retention enters once none is left. -/
def accessBank (b : Nat) (s : State) : State :=
  if !memLive s || s.xng.stopped.contains 192 then s
  else if retained s (b / 16) then (if (bank s b).reqs.isEmpty then s else askWake (b / 16) s)
  else enterRet (b / 16) (serveNext b s)

/-- A master asks for a slot of the bank of a reel word: whoever R353 puts before it is served, then it has its slot. A
word under test needs none. -/
def askSlot (w : Nat) (cls : Option Nat) (master : Nat) : Nat → State → State
  | 0, s => takeSlot w master [] 1 s
  | k + 1, s =>
    let b := bankOf w
    if inTest s w then takeSlot w master [] 1 s
    else
      match pickSlot s b (some (cls, master)) with
      | none => takeSlot w master [] 1 s
      | some t =>
        let behind := match cls with
          | some c => (oldestOf (bank s b) master c).isSome
          | none => (writersAt s b).contains master
        if t.cls = cls ∧ t.master = master ∧ !behind then takeSlot w master [] 1 (s.setBank b ((bank s b).served t))
        else askSlot w cls master k (serveTurn b t [master] s)
/-- How many can be served at a bank before one that asks: those that wait, capture in between. -/
def askFuel (s : State) (b : Nat) : Nat := 2 * ((bank s b).reqs.length + s.lanes.length) + 4
/-- A master's request for a reel word passes its bank queue, if it has one, and gets its slot; false where the queue's
pointers disagree (R399). -/
def slotFor (w cls master : Nat) (s : State) : Bool × State :=
  let b := bankOf w
  if !queueOk s b master cls then (false, bankFault b master cls s)
  else (true, askSlot w (some cls) master (askFuel s b) s)
/-- A read of a reel word by a master in a class, for a domain: its data, or none where it is uncorrectable or its request was
lost. -/
def readReel (cls master dom w : Nat) (s : State) : Option DWord × State :=
  match slotFor w cls master s with
  | (true, s) => eccRead w master dom s
  | (false, s) => (none, s)
/-- Read reel words `w`, `w + 1`, …: none where one of them gives none. -/
def readReels (cls master dom : Nat) : Nat → Nat → State → Option (List DWord) × State
  | _, 0, s => (some [], s)
  | w, n + 1, s =>
    match readReel cls master dom w s with
    | (none, s) => (none, s)
    | (some d, s) =>
      match readReels cls master dom (w + 1) n s with
      | (none, s) => (none, s)
      | (some l, s) => (some (d :: l), s)
/-- A master writes a reel word whole. -/
def writeReelAs (cls master w : Nat) (d : DWord) (s : State) : State := putReel w d (askSlot w (some cls) master (askFuel s (bankOf w)) s)
/-- A master writes words at an 8-byte-aligned address, an even number of them. -/
def writeWordsAs (cls master : Nat) (a : Nat) : List Word → State → State
  | x :: y :: t, s => writeWordsAs cls master (a + 8) t (writeReelAs cls master (a / 8) (join32 x y) s)
  | _, s => s

/-! ## Memory gateways (R130) -/

/-- The reel memory range of an address: 0 normal, 1 set alias, 2 clear alias (R35). -/
def aliasOf (a : Nat) : Nat := a / 0x20000000
/-- Whether a gateway's operation lies in range (R130). -/
def gwRange (g : Nat) (p : Packet) : Bool :=
  let a := (p.words.getD 0 0).toNat
  let n := fld (p.words.getD 1 0) 6 0
  let data := if p.op == 2 then 0 else (n + 3) / 4
  decide (a < 0x60000000 ∧ a / 2 ^ 25 % 16 = g ∧ 1 ≤ n ∧ n ≤ 64 ∧ a % 64 + n ≤ 64 ∧ p.words.length = 2 + data)
/-- What a write at an address does: through an alias, the alias's effect (R36, R130). -/
def gwKind (p : Packet) : MemKind :=
  if p.op == 2 then .rd
  else if p.op == 5 then .set
  else if p.op == 6 then .clr
  else
    match aliasOf (p.words.getD 0 0).toNat with
    | 1 => .set
    | 2 => .clr
    | _ => .wr
/-- Whether a gateway can take a request now: it refuses it, or every bank queue that it needs has room (R352). A request that
cannot be taken holds back those of its own domain alone (R145, R356). -/
def gwGoes (s : State) (g : Nat) (p : Packet) : Bool :=
  !s.memory.initDone || !gwRange g p || !memAllowed s false p.dom.val (p.op != 2) ((p.words.getD 0 0).toNat % 0x20000000) ||
    bankRoom s (64 + g) (1 + p.dom.val) ((p.words.getD 0 0).toNat % 0x20000000) (fld (p.words.getD 1 0) 6 0)
/-- A gateway takes its next request, if its OP is one of those named: refused with BUSY before initialisation is done (R343),
with RANGE or DENIED, or started. -/
def gatewayOp (g k : Nat) (ops : List (BitVec 4)) (s : State) : State :=
  let pt := portOf s (.mem g) k
  match nextReqIf (gwGoes s g) s pt with
  | none => s
  | some p =>
    if !ops.contains p.op || s.memory.vret then s
    else
      let a := (p.words.getD 0 0).toNat % 0x20000000
      let n := fld (p.words.getD 1 0) 6 0
      let o : MemOp := { kind := gwKind p, master := 64 + g, dom := p.dom, src := .ply p pt, addr := a, count := n,
                         left := 0, got := [], status := stOk, refused := true }
      let refuse (st : Status) (u : State) : State :=
        let s := takeReqIf (gwGoes s g) pt u
        let id := s.memory.nextOp
        finishOp id (s.onMem (fun m => { m with nextOp := id + 1, ops := m.ops.put id { o with status := st } }))
      if !s.memory.initDone then refuse stBusy s
      else if !gwRange g p then refuse stRange s
      else if !memAllowed s false p.dom.val (p.op != 2) a then refuse stDenied (memDenied p.dom.val s)
      else startOp { o with refused := false } (bytesOfWords (p.words.drop 2)) (takeReqIf (gwGoes s g) pt s)
/-- MEM_GATEWAY_RD (R130). -/
def execMemGatewayRd (g : Fin 16) (k : Fin 4) (s : State) : Host.Outcome State Fault Refusal :=
  .next (gatewayOp g k [2] s)
/-- MEM_GATEWAY_WR (R130): WR and WRP. -/
def execMemGatewayWr (g : Fin 16) (k : Fin 4) (s : State) : Host.Outcome State Fault Refusal :=
  .next (gatewayOp g k [3, 4] s)
/-- MEM_GATEWAY_SET (R130). -/
def execMemGatewaySet (g : Fin 16) (k : Fin 4) (s : State) : Host.Outcome State Fault Refusal :=
  .next (gatewayOp g k [5] s)
/-- MEM_GATEWAY_CLR (R130). -/
def execMemGatewayClr (g : Fin 16) (k : Fin 4) (s : State) : Host.Outcome State Fault Refusal :=
  .next (gatewayOp g k [6] s)

/-! ## Initialisation, testers, retention -/

/-- MEMORY_INIT_DONE (R343, R358): every reel word is 0 with valid check bits; the notifications raised since the reset are
written then. -/
def initDone (s : State) : State :=
  if s.memory.initDone then s
  else writeEarly { s with mem := [], memory := { s.memory with initDone := true, err := [], bgNext := 0 } }
def execMemoryInitDone (s : State) : Host.Outcome State Fault Refusal := .next (initDone s)

/-- The reel words of a region of a bank (R341). -/
def regionWords (g b region : Nat) : List Nat := (List.range 32).map (fun i => g * 2 ^ 22 + region * 512 + i * 16 + b)
/-- The save of a region: single-bit errors are corrected and counted, uncorrectable words recorded (R357, R359,
R361). -/
def saveWord (w : Nat) (s : State) : State :=
  match flips s w with
  | [] => s
  | [_] => putReel w (trueData s w) (corrected w s)
  | _ => uncorrectable w 85 0 true s
/-- Start a region test (R357). -/
def startRegion (g b region : Nat) (req : Bool) (s : State) : State :=
  let s := forEach (regionWords g b region) saveWord s
  s.onMem (fun m => { m with test := some { group := g, bank := b, region := region, requested := req, slot := 0 } })
/-- The next region of the background order from `n` whose group is not in retention (R358). -/
def bgRegion (s : State) : Nat → Nat → Option Nat
  | 0, _ => none
  | k + 1, n => if s.memory.ret.contains (n / 16 % 16) then bgRegion s k ((n + 16 - n % 16) % 2097152) else some n
/-- REGION_TEST_START (R358): while BG_EN is 1, memory is initialised and at its Run level, and no region is under
test. -/
def bgStart (s : State) : State :=
  if bitOf (s.reg .memCtl 0) 31 && memLive s && s.memory.test.isNone then
    match bgRegion s 17 s.memory.bgNext with
    | some n => startRegion (n / 16 % 16) (n % 16) (n / 256) false (s.onMem (fun m => { m with bgNext := (n + 1) % 2097152 }))
    | none => s
  else s
def execRegionTestStart (s : State) : Host.Outcome State Fault Refusal := .next (bgStart s)

/-- MEM_TEST_STAT of a test that runs or has ended (R371). -/
def testStat (t : BankTest) (running : Bool) (st : Status) : Word :=
  w32 (place 31 1 (b2n running) + place 30 1 1 + place 26 4 st.toNat + place 22 4 t.group + place 18 4 t.bank +
    place 14 4 (min t.fails 15) + place 0 14 t.done)
/-- A bank test ends: its status stands and MEM_TEST_DONE is raised (R362, R366). A region test that still runs for it counts for
no later one. -/
def bankTestEnd (t : BankTest) (st : Status) (s : State) : State :=
  let s := (s.onMem (fun m => { m with bankTest := none, test := m.test.map (fun r => { r with requested := false }) })).setReg
    .memTestStat 0 (testStat t false st)
  notifyOwner 0x73 0 [w32 t.group, w32 t.bank, w32 st.toNat, w32 t.fails] s
/-- REGION_TEST_END (R360, R362): a failing region takes a spare of its bank, or stays with its failure counted. -/
def regionEnd (fail : Bool) (s : State) : State :=
  match s.memory.test with
  | none => s
  | some t =>
    let s := tallyN 4 t.group 3 192 (s.onMem (fun m => { m with test := none }))
    let b := 16 * t.group + t.bank
    let used := s.memory.spares.get 0 b
    let s :=
      if fail then
        if used < 8 then
          let s := s.onMem (fun m =>
            let r := insertNat t.region (m.repaired.get [] b)
            { m with spares := m.spares.put b (used + 1), repaired := m.repaired.put b r })
          notifyOwner 0x72 0 [w32 t.group, w32 t.bank, w32 t.region, 1] s
        else
          notifyOwner 0x72 0 [w32 t.group, w32 t.bank, w32 t.region, 0] (s.bump .memGrpFailed t.group 1)
      else s
    let s :=
      if t.requested then
        match s.memory.bankTest with
        | some bt =>
          let bt := { bt with done := bt.done + 1, fails := bt.fails + b2n fail }
          if bt.done = 8192 then bankTestEnd bt (if bt.fails = 0 then stOk else stFault) s
          else (s.onMem (fun m => { m with bankTest := some bt })).setReg .memTestStat 0 (testStat bt true stOk)
        | none => s
      else s
    enterRet t.group s
def execRegionTestEnd (fail : Bool) (s : State) : Host.Outcome State Fault Refusal := .next (regionEnd fail s)

/-- START of MEM_TEST_CMD (R362, R370): BUSY while a bank test runs or for a group in retention. -/
def bankTestStart (g b : Nat) (s : State) : State :=
  if s.memory.bankTest.isSome || s.memory.vret || retained s g then s.stat stBusy
  else
    let t : BankTest := { group := g, bank := b, next := 0, fails := 0, done := 0 }
    (((wakeIsl 3 0 s).onMem (fun m => { m with bankTest := some t })).setReg .memTestStat 0 (testStat t true stOk)).stat stOk
/-- STOP of MEM_TEST_CMD (R370): OK even when no test runs; a running test ends with STALE. -/
def bankTestStop (s : State) : State :=
  match s.memory.bankTest with
  | some t => (bankTestEnd t stStale s).stat stOk
  | none => s.stat stOk
/-- BANK_TEST_REGION_TIMER (R362): the requested test starts its next region, once the tester is free; a group in retention is
skipped (R363). -/
def bankTestNext (s : State) : State :=
  match s.memory.bankTest with
  | some t =>
    if s.memory.test.isNone && memLive s && !s.memory.ret.contains t.group && decide (t.next < 8192) then
      startRegion t.group t.bank t.next true (s.onMem (fun m => { m with bankTest := some { t with next := t.next + 1 } }))
    else s
  | none => s
def execBankTestRegionTimer (s : State) : Host.Outcome State Fault Refusal := .next (bankTestNext s)

/-- The two positions of a spool's swap: the old one holds its segment until the swap is complete (R190). -/
def swapSegs (x : SpoolSt) : List Nat :=
  match x.swap with
  | some w => [w.old, w.new]
  | none => []
/-- Whether a bank group may be asked into retention: not group 15, and no spool segment in it (R363). -/
def retAllowed (s : State) (g : Nat) : Bool :=
  g != 15 && s.spl.spools.all (fun e => (e.2.segs ++ swapSegs e.2).all (fun u => u / 512 != g))
/-- MEM_CTL (R363, R369): retention requests of groups that may not sleep are ignored and the write completes with
BUSY; a group no longer asked for wakes, and one asked for anew enters once idle, whatever woke it before. -/
def memCtl (v : Word) (s : State) : State :=
  let bad := (List.range 16).filter (fun g => bitOf v g && !retAllowed s g)
  let w := bad.foldl (fun w g => putBit w g false) (v &&& 0x8000FFFF)
  let s := ((wakeIsl 3 0 s).onMem (fun m => { m with woken := m.woken.filter (fun g => bitOf w g && bitOf (s.reg .memCtl 0) g) })).setReg .memCtl 0 w
  let s := forEach (List.range 16) enterRet s
  let s := s.onMem (fun m => { m with waking := (m.ret.filter (fun g => !bitOf w g)).foldl (fun l g => insertNat g l) m.waking })
  s.stat (if bad.isEmpty then stOk else stBusy)
/-- GROUP_WAKE_DONE (R364): the group leaves retention and its first waiting access is granted. -/
def groupWake (g : Nat) (s : State) : State :=
  if s.memory.waking.contains g then
    let asked := bitOf (s.reg .memCtl 0) g
    let s := s.onMem (fun m => { m with ret := removeNat g m.ret, waking := removeNat g m.waking,
                                        woken := if asked then insertNat g m.woken else m.woken, lastUse := m.lastUse.set 0 g s.now })
    match (List.range 16).find? (fun b => !(bank s (16 * g + b)).reqs.isEmpty) with
    | some b => accessBank (16 * g + b) s
    | none => s
  else s
def execGroupWakeDone (g : Fin 16) (s : State) : Host.Outcome State Fault Refusal := .next (groupWake g s)
/-- GROUP_IDLE_TIMEOUT (R364): 2^20 ticks without an access, and the group returns to retention. -/
def groupSleep (g : Nat) (s : State) : State :=
  if longIdle s g then enterRet g s else s
def execGroupIdleTimeout (g : Fin 16) (s : State) : Host.Outcome State Fault Refusal := .next (groupSleep g s)

/-- MEM_STATUS (R368): while all of VMEM is at retention every group is (R364). -/
def memStatus (s : State) : Word :=
  w32 ((if s.memory.vret then 0xFFFF0000 else s.memory.ret.foldl (fun a g => a + 2 ^ (16 + g)) 0) + place 3 1 (b2n s.memory.bankTest.isSome) +
    place 2 1 (b2n (bitOf (s.reg .memCtl 0) 31 && memLive s)) + place 1 1 (b2n s.memory.vret) +
    b2n s.memory.initDone)

end Sys2Proof.Machine
end

