-- ==== Sys2Proof/Machine/Ledger.lean ====
section
/-! DEFINITION. Ledger: the device identity (R553, R554) and the custody ledger: forming, chaining, holding and losing
its records (R564, R565). -/
namespace Sys2Proof.Machine

/-- The identity modulus as its 384-byte string (R511, R554). -/
def modulusBytes : List Byte := beBytes 384 (Config.identityPrime false * Config.identityPrime true)
/-- SEC_ID_MOD0–95 (R574). -/
def identityModulus (i : Nat) : Word := (wordsOfBytes modulusBytes).getD i 0
/-- The device ID (R554). -/
def deviceId : List Byte := sha256 modulusBytes

/-- Change the security engine's state. -/
def State.onSec (s : State) (f : SecSt → SecSt) : State := { s with sec := f s.sec }
/-- SEC_CTL.AUTO_ACK (R565). -/
def autoAck (s : State) : Bool := bitOf (s.reg .secCtl 0) 30
/-- The free records of the ring (R565). -/
def ledgerFree (s : State) : Nat := if autoAck s then 16384 else 16384 - (s.sec.ledNext - s.sec.ledAck)
/-- The security state: 0 Open, 1 Owned, 2 Sealed (R556). -/
def secState (s : State) : Nat := if s.sec.fuses.sealed_ then 2 else if s.sec.fuses.owned then 1 else 0
/-- The byte address of record `n` (R564). -/
def ledgerAddr (n : Nat) : Nat := 0x1FA00000 + n % 16384 * 128
/-- A 64-bit number as two words, low word first. -/
def pair (n : Nat) : List Word := [w32 n, w32 (n / 2 ^ 32)]
/-- A tick as two words, low word first. -/
def tickPair (t : Tick) : List Word := [lo32 t, hi32 t]

/-- A record before it has its SEQ: word 0, word 1, the time, eight body words and eight digest words. -/
def recordWords (typ dom prt spool w1 : Nat) (t : Tick) (body : List Word) (digest : List Byte) : List Word :=
  [w32 (place 28 4 typ + place 26 2 dom + place 24 2 prt + place 0 12 spool), w32 w1, 0, 0] ++ tickPair t ++
    (body ++ List.replicate 8 0).take 8 ++ (wordsOfBytes digest ++ List.replicate 8 0).take 8

/-- Give a record its SEQ and its CHAIN and write it at its place on master 86 (R42, R564; notes/assumptions/74.md). The suspect counts of R567 follow its type. -/
def appendRecord (ws : List Word) (s : State) : State :=
  let n := s.sec.ledNext
  let body := (ws.set 2 (w32 n)).set 3 (w32 (n / 2 ^ 32))
  let prev := if n = 0 then deviceId else s.sec.ledChain
  let chain := sha256 (prev ++ bytesOfWords body)
  let typ := fld (ws.headD 0) 31 28
  let s := writeWordsAs 1 86 (ledgerAddr n) (body ++ wordsOfBytes chain ++ [0, 0]) s
  s.onSec (fun x =>
    { x with ledNext := n + 1, ledChain := chain, ledAck := if autoAck s then n + 1 else x.ledAck,
             suspects := x.suspects + b2n (typ == 3 || typ == 4),
             openCount := x.openCount + b2n (typ == 4) - b2n (typ == 5) })
/-- A record is lost: counted, and SEC_LEDGER_LOST is raised at most once in each TBSYNC interval (R565, R570). -/
def loseRecord (s : State) : State :=
  let s := (s.bump .secLedgerLost 0 1).onSec (fun x => { x with ledLostNow := x.ledLostNow + 1 })
  notifyOnce 0x36 0 0 1 [] s
/-- Write the LOST record that precedes the first record after a loss (R565). -/
def lostFirst (s : State) : State :=
  if s.sec.ledLostNow = 0 || ledgerFree s = 0 then s
  else
    appendRecord (recordWords 8 0 0 0 0 s.now [w32 s.sec.ledLostNow] []) (s.onSec (fun x => { x with ledLostNow := 0 }))
/-- Write a record now, or lose it where no record is free (R565). -/
def writeRecord (ws : List Word) (s : State) : State :=
  let s := lostFirst s
  if ledgerFree s = 0 then loseRecord s else appendRecord ws s
/-- Whether records are held: reel memory is out of reach in Doze, Park or a wake not yet complete (R565); and until the GENESIS of a full
load, which is its first record (R564, R566; DESIGN CHOICE, notes/assumptions/90.md). -/
def memHeld (s : State) : Bool := s.memory.vret || s.scrub.verifying
/-- Enter a record (R565): in Doze and Park it is held, up to 64 of them; then it is lost. -/
def addRecord (ws : List Word) (s : State) : State :=
  if memHeld s then
    if s.sec.ledHeld.length < 64 then s.onSec (fun x => { x with ledHeld := x.ledHeld ++ [ws] }) else loseRecord s
  else writeRecord ws s
/-- Form a record at this tick and enter it. -/
def ledgerRecord (typ dom prt spool w1 : Nat) (body : List Word) (digest : List Byte) (s : State) : State :=
  addRecord (recordWords typ dom prt spool w1 s.now body digest) s
/-- On wake the held records are written (R565). -/
def flushHeld (s : State) : State :=
  let l := s.sec.ledHeld
  forEach l writeRecord (s.onSec (fun x => { x with ledHeld := [] }))

/-- Whether a SEGMENT record can be written: it leaves the last 256 free records to other types (R565). -/
def segmentRoom (s : State) : Bool := decide (256 + (if s.sec.ledLostNow = 0 then 0 else 1) < ledgerFree s)
/-- A SEGMENT record has to wait: SEC_LEDGER_WAIT once per filling (R565). -/
def segmentWait (s : State) : State :=
  if s.sec.ledWait then s
  else notifyOwner 0x35 0 [w32 (ledgerFree s)] (s.onSec (fun x => { x with ledWait := true }))
/-- The SEGMENT records of exports that have ended are written as room comes; at most `n` of them. -/
def flushSegs : Nat → State → State
  | 0, s => s
  | n + 1, s =>
    match s.sec.segs with
    | [] => s
    | ws :: t => if segmentRoom s then flushSegs n (addRecord ws (s.onSec (fun x => { x with segs := t }))) else s
/-- LEDGER_WAIT falls once a SEGMENT record has room again; those whose export has ended go first. -/
def waitOver (s : State) : State :=
  let s := flushSegs s.sec.segs.length s
  if segmentRoom s then s.onSec (fun x => { x with ledWait := false }) else s
/-- The SEGMENT record of an export that has ended, which waits where it has no room (R565). -/
def addSegment (ws : List Word) (s : State) : State :=
  if segmentRoom s then addRecord ws s else segmentWait (s.onSec (fun x => { x with segs := x.segs ++ [ws] }))

end Sys2Proof.Machine
end

