-- ==== Sys2Proof/Machine/Integrity.lean ====
section
/-! DEFINITION. Integrity: frames with their codes, corrections, suspect windows, uncorrectable frames, failing tiles and
the release of held edge wires (R83–R85, R535–R544). The scrubber's rows that walk the frames stand in Scrub.lean. -/
namespace Sys2Proof.Machine

/-! ## Frames -/

/-- The first frame of the system column (R497). -/
def sysFrame : Nat := 163840
/-- The flipped bits of a frame. -/
def frameFlips (s : State) (f : Nat) : List Nat := s.fab.cfgErr.get [] f
/-- Store a configuration word. -/
def State.setCfg (s : State) (key : Nat) (v : Word) : State := { s with fab := { s.fab with cfg := s.fab.cfg.set 0 key v } }
/-- The frame carries a fresh code for the words it holds. -/
def State.freshFrame (s : State) (f : Nat) : State := { s with fab := { s.fab with cfgErr := s.fab.cfgErr.erase f } }
/-- Write a frame whole, with a fresh code (R535). -/
def writeFrame (f : Nat) (ws : List Word) (s : State) : State :=
  let s := (List.range 64).foldl (fun s w => s.setCfg (64 * f + w) (ws.getD w 0)) s
  s.freshFrame f
/-- The words of a frame. -/
def frameWords (s : State) (f : Nat) : List Word := (List.range 64).map (fun w => s.fab.cfg.get 0 (64 * f + w))
/-- The address of a frame's essential-bit word (R498). -/
def essAddr (f : Nat) : Nat := 0x1F800000 + 8 * f
/-- Write a frame's essential bits on master 85 (R498). -/
def writeEss (f : Nat) (d : DWord) (s : State) : State := writeReelAs 0 85 (essAddr f / 8) d s
/-- A frame's essential bits; a map word that cannot be corrected reads as a free value (the spec gives none). -/
def readEss (f : Nat) (s : State) : DWord × State :=
  match readReel 0 85 0 (essAddr f / 8) s with
  | (some d, s) => (d, s)
  | (none, s) => (s.free, s.nextFree)
/-- Change the scrubber's state. -/
def State.onScrub (s : State) (f : ScrubSt → ScrubSt) : State := { s with scrub := f s.scrub }
/-- Frames of a tile that had an uncorrectable one are written anew, by a load or to clear it (R540, R541). -/
def renewTile (t : Nat) (s : State) : State :=
  s.onScrub (fun x => { x with renewed := if (x.uncorr.find t).isSome then insertNat t x.renewed else x.renewed })
/-- Clear the frames of a physical tile, and their essential bits (R498: a free tile holds 0). -/
def clearFrames (t : Nat) (s : State) : State :=
  let s := { s with fab := { s.fab with cfg := s.fab.cfg.filter (fun e => !decide (e.1 / 2560 = t)),
                                        cfgErr := s.fab.cfgErr.filter (fun e => !decide (e.1 / 40 = t)) } }
  (List.range 40).foldl (fun s m => writeEss (40 * t + m) 0 s) (renewTile t s)
/-- Clear a physical tile whole: frames, user state (R172 step 7). -/
def clearTile (t : Nat) (s : State) : State := (clearFrames t s).setTile t TileSt.init

/-- The instance whose tile holds a frame. -/
def frameInst (s : State) (f : Nat) : Option Inst :=
  if f < sysFrame then (logicalAt s (f / 40)).bind (instOf s) else none
/-- The domain of an instance (R158). -/
def instDom (s : State) (i : Inst) : Nat := (tileDom s i.base).val
/-- Change an instance. -/
def State.onInst (s : State) (base : Nat) (f : Inst → Inst) : State :=
  { s with dst := { s.dst with insts := s.dst.insts.map (fun i => if i.base = base then f i else i) } }

/-! ## Clean times and windows -/

/-- A tick rounded down to a commit tick (R537). -/
def commitFloor (t : Tick) : Tick := t &&& ~~~(0xFFFF : BitVec 64)
/-- The clean time of a frame (R537). -/
def cleanTime (s : State) (f : Nat) : Tick := (s.scrub.clean.find f).getD s.scrub.cleanAll
/-- A frame has been read clean or corrected now. -/
def setClean (f : Nat) (s : State) : State := s.onScrub (fun x => { x with clean := x.clean.put f (commitFloor s.now) })
/-- The body of a SUSPECT record (R564). -/
def suspectBody (f w base : Nat) (a b : Tick) : List Word := [w32 f, w32 w, w32 base, 0] ++ tickPair a ++ tickPair b
/-- Record the last error (R552): kind 0 non-essential, 1 essential, 2 uncorrectable, 3 uncorrectable in system rows 0
and 1. -/
def lastErr (kind f w : Nat) (s : State) : State :=
  s.setReg .scrubLastErr 0 (w32 (place 31 1 1 + place 29 2 kind + place 18 6 w + place 0 18 f))

/-- The tile is marked failing and handed to Distaff (R541): 1 test, 2 stuck bit, 3 repeated loss, 0 RETIRE_TILE. -/
def markFailing (t cause : Nat) (s : State) : State :=
  if s.dst.failing.any (fun e => e.tile == t) || s.dst.retRt.any (fun e => e.tile == t) || s.sec.fuses.retired.contains t
  then s
  else
    let dom := match (logicalAt s t).bind (instOf s) with
      | some i => instDom s i
      | none => 0
    let s := { s with dst := { s.dst with failing := s.dst.failing ++ [{ tile := t, cause := BitVec.ofNat 3 cause }] } }
    if cause = 0 then s else notify 0x24 dom [tileItem t, w32 cause] s

/-- SUSPECT_WINDOW (R538): a corrected essential word opens and closes a window, entered in the ledger. -/
def suspectWindow (i : Inst) (f w : Nat) (s : State) : State :=
  let a := cleanTime s f
  let s := s.bump .scrubEssCount 0 1
  let s := ledgerRecord 3 (instDom s i) 0 0 0 (suspectBody f w i.base a s.now) [] (lastErr 1 f w s)
  notify 0x21 (instDom s i) ([w32 f, w32 i.base] ++ tickPair a) s
/-- The consecutive passes in which a word has been corrected (R541). -/
def countStuck (f w : Nat) (s : State) : State :=
  let k := 64 * f + w
  if s.scrub.stuckNow.contains k then s
  else
    let n := s.scrub.stuck.get 0 k + 1
    let s := s.onScrub (fun x => { x with stuck := x.stuck.set 0 k n, stuckNow := insertNat k x.stuckNow })
    let lim := fld (s.reg .scrubCfg 0) 30 28
    if lim ≠ 0 ∧ lim ≤ n ∧ f < sysFrame then markFailing (f / 40) 2 s else s
/-- Whether a token of a source of a tile is made or carried under a frame: the cell's own, the block map, or the selects and
EDGE_EN of an edge wire and what drives it. -/
def fedBy : Nat → State → Nat → Nat → Nat → Bool
  | 0, _, _, _, _ => false
  | n + 1, s, f, t, code =>
    if code < 64 then f == 40 * t + code / 16
    else if code < 96 then
      match across t (code - 64) with
      | some (t', e') => f == 40 * t + 7 || f == 40 * t' + 7 || f == 40 * t' + 4 + (384 + e') / 256 || fedBy n s f t' (selOf s t' (384 + e'))
      | none => false
    else decide (code < 192) && f == 40 * t + 7
/-- Whether a sink of a tile takes its token under a frame. -/
def sinkUnder (s : State) (f t k : Nat) : Bool :=
  f == 40 * t + 4 + k / 256 || (decide (416 ≤ k) && f == 40 * t + (if k < 528 then 6 else 7)) || fedBy wireFuel s f t (selOf s t k)
/-- A correction of a frame clears the source of the rail errors that it fed (R50), and a stall that a wrong select caused
ends (R81). Which frames feed an input is read from the crossbar (DEDUCED; notes/assumptions/65.md). -/
def frameMended (f : Nat) (s : State) : State :=
  let t := f / 40
  settleRunning t (forEach (shapeOf s t) (fun p s => s.onTile p (fun x => { x with railBad := x.railBad.filter (fun k => !sinkUnder s f p k) })) s)
/-- The word of a frame that a bit lies in, 0 for a bit of the code. -/
def flipWord (b : Nat) : Nat := if b < 2048 then b / 32 else 0
/-- A single bit in error is repaired and the frame written back, which is counted (R537). -/
def repairBit (f b : Nat) (s : State) : State :=
  let k := 64 * f + flipWord b
  let s := if b < 2048 then s.setCfg k (s.fab.cfg.get 0 k ^^^ w32 (2 ^ (b % 32))) else s
  (s.freshFrame f).bump .scrubCorrCount 0 1
/-- One bit of a frame is in error: repaired, written back, counted and classified (R535, R537, R538). A correction in the
word of the settings reloads SCRUB_CFG (R543). A bit of the code lies in no word: it is not essential, and WORD reads 0
(DESIGN CHOICE; notes/assumptions/66.md). -/
def correctFrame (f b : Nat) (s : State) : State :=
  let w := flipWord b
  let s := repairBit f b s
  let s := s.onScrub (fun x => { x with dirty := insertNat f x.dirty })
  let s := if f < sysFrame then frameMended f s else s
  let s := if f = sysFrame ∧ w = 0 then s.setReg .scrubCfg 0 (s.fab.cfg.get 0 (64 * f) &&& 0xFF000000) else s
  let (ess, s) := readEss f s
  let s := match frameInst s f with
    | some i =>
      if bitOf ess w && decide (b < 2048) then suspectWindow i f w s
      else notifyOnce 0x20 0 0 1 [] (lastErr 0 f w s)
    | none => notifyOnce 0x20 0 0 1 [] (lastErr 0 f w s)
  setClean f (if b < 2048 then countStuck f w s else s)

/-! ## Uncorrectable frames -/

/-- SCRUB_FAULT (R544): scrubber and tester halt; the cause is recorded, raised to the owner and every domain, and
entered in the ledger. -/
def scrubFault (cause triple : Nat) (s : State) : State :=
  if s.scrub.state = 2 then s
  else
    let s := s.onScrub (fun x => { x with state := 2 })
    let s := s.setReg .scrubFaultInfo 0 (w32 (place 31 1 1 + place 28 3 cause + place 0 8 triple))
    ledgerRecord 7 0 0 0 0 [w32 cause, w32 triple] [] (notifyPorts 0x23 0 [w32 cause, w32 triple] [0, 1, 2, 3] s)
/-- A tile has an uncorrectable frame: a second one within 2^36 ticks marks it failing, where the tile was written anew in
between (R541; of a free tile, notes/assumptions/90.md). -/
def repeatedLoss (t : Nat) (s : State) : State :=
  let again := match s.scrub.uncorr.find t with
    | some u => decide ((s.now - u).toNat ≤ 2 ^ 36) && s.scrub.renewed.contains t
    | none => false
  let s := s.onScrub (fun x => { x with uncorr := x.uncorr.put t s.now, renewed := removeNat t x.renewed })
  if again then markFailing t 3 s else s
/-- An uncorrectable frame in a tile of an instance: damage, an open window, SCRUB_UNCORR (R540). -/
def damageInst (i : Inst) (f : Nat) (s : State) : State :=
  let s := s.onInst i.base (fun x => { x with damaged := true })
  let s :=
    if s.scrub.opens.any (fun o => o.frame == f) then s
    else
      let a := cleanTime s f
      let s := ledgerRecord 4 (instDom s i) 0 0 0 (suspectBody f 0 i.base a 0) [] (repeatedLoss (f / 40) s)
      s.onScrub (fun x => { x with opens := x.opens ++ [{ frame := f, base := i.base, start := a }] })
  notify 0x22 (instDom s i) [w32 f, w32 i.base] s
/-- The scrubber finds an uncorrectable frame (R540). -/
def uncorrFrame (f : Nat) (s : State) : State :=
  let s := (s.bump .scrubUncorrCount 0 1).onScrub (fun x => { x with dirty := insertNat f x.dirty })
  if sysFrame ≤ f ∧ f < sysFrame + 128 then scrubFault 2 0 (lastErr 3 f 0 s)
  else
    let s := lastErr 2 f 0 s
    match frameInst s f with
    | some i => damageInst i f s
    | none =>
      let s := writeFrame f [] s
      if f < sysFrame then repeatedLoss (f / 40) s else s
/-- The region of an instance is reloaded or cleared: its open windows close and the damage is gone (R540). -/
def closeWindows (base dom : Nat) (s : State) : State :=
  let l := s.scrub.opens.filter (fun o => o.base == base)
  let s := forEach l (fun o s => ledgerRecord 5 dom 0 0 0 (suspectBody o.frame 0 o.base o.start s.now) [] s) s
  (s.onScrub (fun x => { x with opens := x.opens.filter (fun o => o.base != base) })).onInst base
    (fun x => { x with damaged := false })

/-! ## Held edge wires -/

/-- The recording tile of a wire and its edge-wire number there. -/
def wireAt (id : Nat) : Nat × Nat := (id / 16, if id % 16 < 8 then id % 8 else 8 + id % 8)
/-- The tile at the other end of a wire. -/
def wireFar (id : Nat) : Nat :=
  match across (wireAt id).1 (wireAt id).2 with
  | some (t, _) => t
  | none => (wireAt id).1
/-- Raise a notification about a wire to the owner and to the domains of the tiles at its ends (R91). An end whose physical
tile runs no logical tile is named 0 and concerns no tenant (DESIGN CHOICE; notes/assumptions/67.md). -/
def notifyWire (code id : Nat) (s : State) : State :=
  let (t, e) := wireAt id
  let la := logicalAt s t
  let lb := logicalAt s (wireFar id)
  let da := match la with
    | some l => (tileDom s l).val
    | none => 0
  let db := match lb with
    | some l => (tileDom s l).val
    | none => 0
  let ports := insertNat 0 (insertNat da (insertNat db []))
  notifyPorts code da [tileItem t, w32 (e / 8), w32 (e % 8), w32 (la.getD 0), w32 (lb.getD 0)] ports s
/-- A held wire is released (R84): its rails and acknowledge stand as recorded again. -/
def releaseWire (id : Nat) (s : State) : State :=
  if s.fab.held.contains id then
    let s := { s with fab := { s.fab with held := removeNat id s.fab.held, heldSince := s.fab.heldSince.erase id } }
    notifyWire 0x69 id (settle (wireAt id).1 s)
  else s
/-- The held wires that touch a tile. -/
def heldAt (s : State) (t : Nat) : List Nat := s.fab.held.filter (fun id => (wireAt id).1 == t || wireFar id == t)
/-- Whether the pass now ending found no error in any frame of a tile. -/
def passClean (s : State) (t : Nat) : Bool :=
  !(s.scrub.dirty.any (fun f => decide (f / 40 = t))) &&
    (match logicalAt s t with
     | some l => !tileFrozen s l
     | none => true)
/-- Whether the pass now ending has read every frame of a tile since a wire was held: the tile's first frame is read at place
128 + 40 t of a pass (R536). -/
def readSince (s : State) (id t : Nat) : Bool := decide (s.fab.heldSince.get 0 id ≤ 128 + 40 * t + 1)
/-- Whether the pass now ending verified, since the wire was held, the frames of a tile with no correction. -/
def verifiedSince (s : State) (id t : Nat) : Bool := readSince s id t && passClean s t
/-- At the end of a pass the wires whose two tiles it verified with no correction are released (R84). -/
def releaseClean (s : State) : State :=
  let s' := forEach (s.fab.held.filter (fun id => verifiedSince s id (wireAt id).1 && verifiedSince s id (wireFar id))) releaseWire s
  { s' with fab := { s'.fab with heldSince := [] } }

end Sys2Proof.Machine
end

