-- ==== Sys2Proof/Machine/Distaff.lean ====
section
/-! DEFINITION. Distaff: places and free tiles, migration from decision to cleared sources, evacuation, the placement
policy and the DST commands (R156–R192, R198–R201), and the edge collision that may end a migration (R83, R85). -/
namespace Sys2Proof.Machine

/-- Change Distaff's state. -/
def State.onDst (s : State) (f : DstSt → DstSt) : State := { s with dst := f s.dst }

/-! ## Places -/

/-- The physical tiles of a w × h rectangle at (c, r), by shape index (R157). -/
def rect (w h c r : Nat) : List Nat := (List.range (w * h)).map (fun k => tileAt (c + k % w) (r + k / w))
/-- Whether a tile is retired, by fuse or at run time (R188). -/
def retired (s : State) (t : Nat) : Bool := s.sec.fuses.retired.contains t || s.dst.retRt.any (fun e => e.tile == t)
/-- The instance with a base tile. -/
def instAt (s : State) (base : Nat) : Option Inst := s.dst.insts.find? (fun i => i.base == base)
/-- The tiles that the running migration holds beside the mapped ones: its destination before the commit, its sources
after it (R172). -/
def migTiles (s : State) : List Nat :=
  match s.dst.mig with
  | some m =>
    match instAt s m.base with
    | some i => if m.step < 6 then rect i.w i.h m.col m.row else rect i.w i.h m.oldCol m.oldRow
    | none => []
  | none => []
/-- The tile under test, if it was free when the test claimed it. -/
def testTile (s : State) : List Nat :=
  match s.dst.test with
  | some t => [t.tile]
  | none => []
/-- Whether a physical tile is free (R188): neither mapped, claimed nor retired, nor failing, which a free tile retires for (R184). -/
def freeTile (s : State) (t : Nat) : Bool :=
  (logicalAt s t).isNone && !(migTiles s).contains t && !(testTile s).contains t && !retired s t && !(s.dst.failing.any (fun e => e.tile == t))
/-- The physical tiles that are not free. -/
def takenTiles (s : State) : List Nat :=
  (s.dst.map.filterMap (fun e => if bitOf e.2 31 then some (fld e.2 11 0) else none)) ++ migTiles s ++ testTile s ++
    s.sec.fuses.retired ++ s.dst.retRt.map (·.tile) ++ s.dst.failing.map (·.tile)
/-- The free corners of a shape, by ascending row and then column, so that the first of equals is the one R166 and R182
name. -/
def freeCorners (taken : List Nat) (w h : Nat) : List (Nat × Nat) :=
  (List.range (65 - h)).flatMap (fun r =>
    (List.range (65 - w)).filterMap (fun c =>
      if (rect w h c r).all (fun t => !taken.contains t) then some (c, r) else none))
/-- The first element with the least cost. -/
def leastBy {α : Type} (cost : α → Nat) : List α → Option α
  | [] => none
  | a :: t =>
    match leastBy cost t with
    | some b => if cost b < cost a then some b else some a
    | none => some a

/-- EDGE_EN of the tile at offset (i, j) of a shape (R80): the wires between tiles of the instance. -/
def edgeWord (w h i j : Nat) : Word :=
  w32 ((if j + 1 < h then 0xFF else 0) + (if i + 1 < w then 0xFF00 else 0) + (if 0 < j then 0xFF0000 else 0) +
    (if 0 < i then 0xFF000000 else 0))
/-- Write EDGE_EN of the tiles of an instance at its place, with fresh codes (R80). -/
def writeEdges (i : Inst) (s : State) : State :=
  forEach (List.range (i.w * i.h)) (fun k s =>
    let t := tileAt (i.col + k % i.w) (i.row + k / i.w)
    (s.setCfg (cfgKey t 7 57) (edgeWord i.w i.h (k % i.w) (k / i.w))).freshFrame (40 * t + 7)) s
/-- Write the tile-map entries of an instance at its place: valid, not fenced, GEN one higher (R163, R164). -/
def mapInst (i : Inst) (s : State) : State :=
  s.onDst (fun d =>
    { d with map := (List.range (i.w * i.h)).foldl (fun m k =>
        let t := tileAt (i.col + k % i.w) (i.row + k / i.w)
        let g := fld (m.get 0 (i.base + k)) 27 20 + 1
        m.set 0 (i.base + k) (w32 (place 31 1 1 + place 20 8 g + t))) d.map })
/-- Make the entries of an instance invalid; GEN stays (R163). -/
def unmapInst (i : Inst) (s : State) : State :=
  s.onDst (fun d =>
    { d with map := (List.range (i.w * i.h)).foldl (fun m k =>
        m.set 0 (i.base + k) (m.get 0 (i.base + k) &&& 0x0FF00000)) d.map })
/-- Set or lift the fence of an instance (R139). -/
def setFence (i : Inst) (b : Bool) (s : State) : State :=
  s.onDst (fun d =>
    { d with map := (List.range (i.w * i.h)).foldl (fun m k =>
        m.set 0 (i.base + k) (putBit (m.get 0 (i.base + k)) 30 b)) d.map })

/-- The hint point of an instance (R166). -/
def hintPoint (s : State) (i : Inst) : Nat × Nat :=
  if i.hintKind = 1 then (8 * (i.hint.toNat % 8) + 4, 8 * (i.hint.toNat / 8) + 4)
  else if i.hintKind = 2 then
    let r := portOf s (target i.hint.toNat) 0 / 5
    (colOf r, rowOf r)
  else (0, 0)
/-- The corner at which an instance is first placed (R166): of the free ones the nearest to its hint point, the lower
row and then the lower column where equal. -/
def firstCorner (s : State) (taken : List Nat) (i : Inst) : Option (Nat × Nat) :=
  let (hc, hr) := hintPoint s i
  leastBy (fun (c, r) => (c - hc) + (hc - c) + ((r - hr) + (hr - r))) (freeCorners taken i.w i.h)
/-- The order of placement: decreasing area, then ascending base (R166). -/
def placeBefore (a b : Inst) : Bool := decide (b.w * b.h < a.w * a.h ∨ (a.w * a.h = b.w * b.h ∧ a.base ≤ b.base))
/-- Put an instance at its place in an ordered list. -/
def insertInst (before : Inst → Inst → Bool) (x : Inst) : List Inst → List Inst
  | [] => [x]
  | a :: t => if before x a then x :: a :: t else a :: insertInst before x t
/-- INITIAL_PLACEMENT (R166–R169) over the instances in order: the placed ones, or the base of the first that finds no
corner. One that finds room only with the tile under test, `spare`, takes that (R548). -/
def placeAll (s : State) (spare : List Nat) : List Nat → List Inst → Except Nat (List Inst)
  | _, [] => .ok []
  | taken, i :: t =>
    match (firstCorner s (spare ++ taken) i).or (firstCorner s taken i) with
    | none => .error i.base
    | some (c, r) =>
      match placeAll s spare (rect i.w i.h c r ++ taken) t with
      | .ok l => .ok ({ i with col := c, row := r } :: l)
      | .error b => .error b

/-! ## Tile tests that stand in the way (R548) -/

/-- A requested tile test ends: SCRUB_BIST_STAT and SCRUB_BIST_DONE (R550, R552). -/
def bistReport (t : Nat) (st : Status) (unit : Nat) (s : State) : State :=
  let s := s.setReg .scrubBistStat 0 (w32 (place 30 1 1 + place 26 4 st.toNat + place 22 4 unit + place 0 12 t))
  notifyOwner 0x25 0 [tileItem t, w32 st.toNat, w32 unit] s
/-- The tester waits its gap before the next test (R547). -/
def testGap (s : State) : State :=
  let gap := fld (s.reg .scrubCfg 0) 27 24
  s.onDst (fun d => { d with testAt := some (s.now + BitVec.ofNat 64 (2 ^ (20 + gap))) })
/-- A test is abandoned: the tile is cleared and freed, nothing is recorded but STALE of a request (R548). -/
def abandonTest (s : State) : State :=
  match s.dst.test with
  | none => s
  | some t =>
    let s := testGap (clearTile t.tile (s.onDst (fun d => { d with test := none })))
    if t.requested then bistReport t.tile stStale 0 s else s

/-! ## Instances -/

/-- Whether a tile of an instance lies in a frozen or torn region. -/
def instFrozen (s : State) (i : Inst) : Bool := (List.range (i.w * i.h)).any (fun k => tileFrozen s (i.base + k))
/-- Whether an edge-wire collision flag stands on a tile of an instance. -/
def instCollides (s : State) (i : Inst) : Bool := (instTiles i).any (fun t => collides s t)
/-- Whether an instance may be migrated (R179). -/
def movable (s : State) (i : Inst) : Bool :=
  !i.nomove && !i.unmovable && !i.damaged && !instFrozen s i && !instCollides s i
/-- The migrations started in the last 2^27 ticks (R185). -/
def recentMigs (s : State) : List Tick := s.dst.capTimes.filter (fun t => decide ((s.now - t).toNat < 2 ^ 27))
/-- The cap is full (R185). -/
def capFull (s : State) : Bool := decide (fld (s.reg .dstCap 0) 7 0 ≤ (recentMigs s).length)
/-- Distaff can start a migration at all: the part in Run or Idle, the scrubber not halted (R544), none running
(R170). -/
def canMigrate (s : State) : Bool :=
  (s.pwr.state == 0 || s.pwr.state == 1) && s.scrub.state != 2 && s.dst.mig.isNone && s.fab.released

/-! ## Pressure (R181, R182) -/

/-- The sensor reading of the region that holds a tile, as Distaff accepted it last (R382). -/
def tempAt (s : State) (t : Nat) : Nat := (sensors s).getD (rowOf t / 8 * 8 + colOf t / 8) 0
/-- The thermal term of a shape at a corner. -/
def thetaAt (s : State) (w h c r : Nat) : Nat :=
  (rect w h c r).foldl (fun a t => max a (tempAt s t)) 0 - fld (s.reg .dstThresh 0) 23 16
/-- WT and WH. -/
def wTherm (s : State) : Nat := fld (s.reg .dstPolicy 0) 3 0
/-- WH. -/
def wHop (s : State) : Nat := fld (s.reg .dstPolicy 0) 7 4
/-- The mean distance from a router to an instance's peers, by their shares, rounded down (R182). The attachment of a
hard-endpoint peer is the one that R118 selects for the base tile (notes/assumptions/79.md). -/
def peerDist (s : State) (i : Inst) (router : Nat) : Nat :=
  if i.keptCnt = 0 then 0
  else i.kept.foldl (fun a e => a + e.2 * hops router (peerRouter s i.base e.1)) 0 / i.keptCnt
/-- θ', h' and P' of an instance at a corner (R182). -/
def pressureAt (s : State) (i : Inst) (c r : Nat) : Nat × Nat :=
  let h := peerDist s i (tileAt c r)
  (wTherm s * thetaAt s i.w i.h c r + wHop s * (h - fld (s.reg .dstThresh 0) 15 8), h)
/-- The best corner of a list for an instance: least P', then least h', then lower row, then lower column (R182). -/
def bestOf (s : State) (i : Inst) (l : List (Nat × Nat)) : Option (Nat × Nat) :=
  leastBy (fun (c, r) => let (p, h) := pressureAt s i c r; p * 256 + h) l
/-- The best free corner. -/
def bestCorner (s : State) (i : Inst) : Option (Nat × Nat) := bestOf s i (freeCorners (takenTiles s) i.w i.h)

/-! ## Migration -/

/-- A corner as an item word. -/
def cornerItem (c r : Nat) : Word := w32 (tileAt c r)
/-- Start a migration (R170, R172 step 1): the destination is claimed; the fence follows at MIGRATION_DECISION. -/
def startMig (i : Inst) (reason : Nat) (c r : Nat) (prt : Option (Fin 4)) (test : Option Nat) (s : State) : State :=
  let m : Mig := { base := i.base, reason := BitVec.ofNat 4 reason, step := 0, col := c, row := r, oldCol := i.col,
                   oldRow := i.row, start := s.now, port := prt, pinAfter := none, test := test }
  tally 7 0 0 (s.onDst (fun d => { d with mig := some m, capTimes := recentMigs s ++ [s.now] }))
/-- DST_LAST_MIG (R209): duration in units of 0.1 µs, 12,800 ticks. -/
def lastMig (m : Mig) (st : Status) (s : State) : State :=
  let d := min ((s.now - m.start).toNat / 12800) 4095
  let s := s.setReg .dstLastMig 0 (w32 (place 28 4 m.reason.toNat + place 24 4 st.toNat + place 12 12 m.base + d))
  s.onInst m.base (fun x => { x with lastReason := m.reason })
/-- DST_CMD_STAT of the port whose MIGRATE it was (R201). -/
def migStat (m : Mig) (st : Status) (s : State) : State :=
  match m.port with
  | some p => s.setRegP p .dstCmdStat 0 0 (w32 (place 30 1 1 + place 4 4 3 + st.toNat))
  | none => s
/-- The step of R172 that a migration has reached. -/
def stepOf (m : Mig) : Nat := if m.step < 2 then 1 else if m.step < 4 then 3 else if m.step < 6 then 4 else 7
/-- MIGRATION_ABORT (R176): the fence is lifted, the destination cleared and freed; `unmov` sets UNMOVABLE. The step and
the cause of DST_ABORTED are the step reached and the status of R201 (notes/assumptions/16.md). -/
def abortMig (st : Status) (unmov : Bool) (s : State) : State :=
  match s.dst.mig with
  | none => s
  | some m =>
    match instAt s m.base with
    | none => s.onDst (fun d => { d with mig := none })
    | some i =>
      let dom := instDom s i
      let dst := rect i.w i.h m.col m.row
      let s := forEach dst clearTile (setFence i false (s.onDst (fun d => { d with mig := none })))
      let s := tally 7 0 1 (migStat m st (lastMig m st (s.bump .dstAbortCount 0 1)))
      let s := notify 0x51 dom [w32 m.base, w32 m.reason.toNat, w32 (stepOf m), w32 st.toNat] s
      let s := if unmov then notify 0x52 dom [w32 m.base] (s.onInst m.base (fun x => { x with unmovable := true })) else s
      let s := settleRunning (tileAt i.col i.row) s
      match m.test with
      | some t => bistReport t st 0 s
      | none => s
/-- Retire a free failing tile (R184): the runtime list takes it where it has room. -/
def retireNow (e : RetEnt) (s : State) : State :=
  if 256 ≤ s.dst.retRt.length then s
  else
    let s := s.onDst (fun d => { d with retRt := d.retRt ++ [{ e with told := 0 }], failing := d.failing.filter (fun x => x.tile != e.tile) })
    notifyOwner 0x56 0 [tileItem e.tile, 0] s
/-- Set FAILING of an instance. -/
def setFailing (i : Inst) (s : State) : State := s.onInst i.base (fun x => { x with failing := true })
/-- The corner an evacuation takes: a free one, else one that holds the tile under test, whose test is then abandoned
(R548). -/
def evacCorner (s : State) (i : Inst) : Option ((Nat × Nat) × Bool) :=
  match bestCorner s i with
  | some c => some (c, false)
  | none =>
    match bestOf s i (freeCorners ((takenTiles s).filter (fun t => !(testTile s).contains t || retired s t)) i.w i.h) with
    | some c => some (c, true)
    | none => none
/-- Note what has been raised of a failing tile. -/
def tellFailing (t : Nat) (v : BitVec 2) (s : State) : State :=
  s.onDst (fun d => { d with failing := d.failing.map (fun x => if x.tile = t then { x with told := v } else x) })
/-- Evacuate an instance from a failing tile, or report why it stays (R184–R187): a tile that found no room is tried again at an
evaluation alone. -/
def evacuate (eval : Bool) (i : Inst) (e : RetEnt) (s : State) : State :=
  let pinStops := i.pinned && !bitOf (s.reg .dstPolicy 0) 31
  if pinStops || !movable s i then
    if e.told = 2 then s else notify 0x54 (instDom s i) [w32 i.base, tileItem e.tile] (tellFailing e.tile 2 (setFailing i s))
  else if !canMigrate s || capFull s || (e.told == 1 && !eval) then s
  else
    match evacCorner s i with
    | none => notify 0x55 (instDom s i) [w32 i.base, tileItem e.tile] (tellFailing e.tile 1 (setFailing i s))
    | some ((c, r), test) => startMig i 4 c r none none (if test then abandonTest s else s)
/-- Distaff acts on one failing tile (R184). -/
def actFailing (eval : Bool) (e : RetEnt) (s : State) : State :=
  if (migTiles s).contains e.tile then s
  else
    match logicalAt s e.tile with
    | none => retireNow e (if (testTile s).contains e.tile then abandonTest s else s)
    | some l =>
      match instOf s l with
      | some i => if s.dst.mig.any (fun m => m.base == i.base) then s else evacuate eval i e s
      | none => s
/-- Distaff acts on the failing tiles in order. -/
def serveFailing (s : State) : State := forEach s.dst.failing (actFailing false) s
/-- At an evaluation it tries those again that found no room (R186). -/
def retryFailing (s : State) : State := forEach s.dst.failing (actFailing true) s
/-- Mark a tile failing and act (R184). -/
def failTile (t cause : Nat) (s : State) : State := serveFailing (markFailing t cause s)

/-- The seal that a router injects behind the packets of a sender to a tile of the shape (R139): a packet without words that
the routers of the shape absorb. -/
def sealOf (l src : Nat) (vc : Bool) (dom : Fin 4) : Packet :=
  { dest := BitVec.ofNat 16 l, slot := 0, op := 0, tag := 0, src := BitVec.ofNat 16 src, status := 0, dom := dom, vc := vc,
    words := [], isSeal := true }
/-- The senders whose packets are on their way to a tile, in the lanes of a VC and domain, each once. -/
def sendersTo (s : State) (t : Nat) (vc : Bool) (dom : Nat) : List Nat :=
  let l := (s.ply.lanes.filter (fun e => e.1 % 8 == 4 * b2n vc + dom)).flatMap (fun e => e.2.flits ++ e.2.rest)
  (l.filter (fun f => f.exit == 5 * t + 4)).foldl (fun a f => insertNat f.src.toNat a) []
/-- The fence takes effect (R139): on each VC, in the lanes of the instance's domain and of domain 0, a router whose packets are
on their way to a tile of the shape sends a seal after them. A seal with no packet before it is absorbed at once
(notes/assumptions/68.md). -/
def sendSeals (i : Inst) (s : State) : State :=
  let d := (tileDom s i.base).val
  forEach (List.range (i.w * i.h)) (fun k s =>
    forEach [false, true] (fun vc s =>
      forEach (if d = 0 then [0] else [0, d]) (fun dom s =>
        forEach (sendersTo s (tileAt (i.col + k % i.w) (i.row + k / i.w)) vc dom) (fun src s =>
          let p := sealOf (i.base + k) src vc (Fin.ofNat 4 dom)
          enterLane (entryOf s p) p s) s) s) s) s

/-- EDGE_EN is 0 on every wire between a destination tile and a tile outside the shape, at both ends (R172 step 1). -/
def edgesApart (s : State) (ts : List Nat) : Bool :=
  ts.all (fun t => (List.range 32).all (fun e =>
    match across t e with
    | some (t', e') => ts.contains t' || (!edgeEn s t e && !edgeEn s t' e')
    | none => true))
/-- MIGRATION_DECISION (R172 steps 1 and 2): the fence is in effect at every router; a destination whose wires are not
apart fails the check, and the migration ends with FAULT, as at the failed check of step 4 (DESIGN CHOICE; notes/assumptions/79.md). -/
def decide1 (s : State) : State :=
  match s.dst.mig with
  | some m =>
    if m.step = 0 then
      match instAt s m.base with
      | some i =>
        if edgesApart s (rect i.w i.h m.col m.row) then
          sendSeals i (setFence i true (s.onDst (fun d => { d with mig := some { m with step := 2 } })))
        else abortMig stFault false s
      | none => s
    else s
  | none => s
def execMigrationDecision (s : State) : Host.Outcome State Fault Refusal := .next (decide1 s)

/-- The fence of a shape has drained (R139): its routers have absorbed every seal. -/
def drained (s : State) (ts : List Nat) : Bool :=
  let ports := ts.map (fun t => 5 * t + 4)
  s.ply.lanes.all (fun e => (e.2.flits ++ e.2.rest).all (fun f => !(isSealFlit f && ports.contains f.exit)))
/-- Every packet that the shape's tiles injected has landed (R171). -/
def landed (s : State) (i : Inst) : Bool :=
  let mine (f : Flit) : Bool := decide (i.base ≤ f.src.toNat ∧ f.src.toNat < i.base + i.w * i.h)
  s.ply.lanes.all (fun e => e.2.flits.all (fun f => !mine f) && e.2.rest.all (fun f => !mine f))
/-- Quiescent for migration (R171). -/
def quiescent (s : State) (i : Inst) : Bool :=
  drained s (instTiles i) && (instTiles i).all (tileQuiet s) && landed s i
/-- INSTANCE_QUIESCENT (R171, R172 step 3): the copy begins and the instance's tokens stand still. -/
def beginCopy (s : State) : State :=
  match s.dst.mig with
  | some m =>
    match instAt s m.base with
    | some i => if m.step = 2 ∧ quiescent s i then s.onDst (fun d => { d with mig := some { m with step := 4 } }) else s
    | none => s
  | none => s
def execInstanceQuiescent (s : State) : Host.Outcome State Fault Refusal := .next (beginCopy s)
/-- QUIESCENCE_TIMEOUT (R178): 20 µs after the fence without quiescence. -/
def quiesceTimeout (s : State) : State :=
  match s.dst.mig with
  | some m =>
    match instAt s m.base with
    | some i => if m.step = 2 ∧ quiescent s i = false then serveFailing (abortMig stFault true s) else s
    | none => s
  | none => s
def execQuiescenceTimeout (s : State) : Host.Outcome State Fault Refusal := .next (quiesceTimeout s)

/-- The copy reads the frames of a source tile: single-bit errors are corrected as the scrubber corrects them; whether
all could be read (R173, R178). -/
def readSource (t : Nat) (s : State) : Bool × State :=
  (List.range 40).foldl (fun (ok, s) m =>
    match frameFlips s (40 * t + m) with
    | [] => (ok, s)
    | [b] => (ok, correctFrame (40 * t + m) b s)
    | _ => (false, s)) (true, s)
/-- Copy a frame with its essential bits and clean time (R173). -/
def copyFrame (a b m : Nat) (s : State) : State :=
  let (e, s) := readEss (40 * a + m) s
  let c := cleanTime s (40 * a + m)
  let s := writeEss (40 * b + m) e (writeFrame (40 * b + m) (frameWords s (40 * a + m)) s)
  s.onScrub (fun x => { x with clean := x.clean.put (40 * b + m) c })
/-- Copy a tile: frames, user state and the packets its interface has assembled (R173); what its own packets left parked at its
local port goes with it, so that later packets of its own stay behind it (R136, notes/assumptions/68.md). -/
def copyTile (a b : Nat) (s : State) : State :=
  let s := forEach (List.range 40) (copyFrame a b) s
  let s := s.setTile b (tileSt s a)
  let s := (s.setHold (5 * b + 4) 0 (holdQ s (5 * a + 4) 0)).setHold (5 * a + 4) 0 HoldQ.init
  forEach (List.range 8) (fun k s =>
    let ka := laneKey (5 * a + 4) (k / 4 == 1) (k % 4)
    let kb := laneKey (5 * b + 4) (k / 4 == 1) (k % 4)
    let s := s.setPlane kb { plane s kb with out := (plane s ka).out }
    s.setPlane ka { plane s ka with out := [] }) s
/-- MIGRATION_COMMIT (R164, R174): the entries are written in one write, the destination runs from the copied state, and what the
copy corrected takes effect (R81). RUNNING of a MIGRATE falls here (DESIGN CHOICE; notes/assumptions/80.md). -/
def commitMig (m : Mig) (i : Inst) (s : State) : State :=
  let s := forEach (List.range (i.w * i.h)) (fun k s =>
    copyTile (tileAt (i.col + k % i.w) (i.row + k / i.w)) (tileAt (m.col + k % i.w) (m.row + k / i.w)) s) s
  let j := { i with col := m.col, row := m.row, migrations := min (i.migrations + 1) 255, failing := false }
  let s := s.onInst m.base (fun x => { j with damaged := x.damaged })
  let s := writeEdges j (mapInst j (setFence i false s))
  let s := settleRunning (tileAt m.col m.row) (s.onDst (fun d => { d with mig := some { m with step := 6 } }))
  migStat m stOk (s.bump .dstMigCount 0 1)
/-- MIGRATION_COPY_DONE (R173, R178): the copy is read back and checked; then the commit. `badTile` is the shape index of
a destination tile whose check fails; the cause of its mark is not given by the spec (a free value). A scrubber that has halted reads
no frame: the check cannot be made, and the migration aborts (R544; DESIGN CHOICE, notes/assumptions/90.md). -/
def copyDone (badTile : Option (Fin 16)) (s : State) : State :=
  match s.dst.mig with
  | some m =>
    match instAt s m.base with
    | some i =>
      if m.step = 4 ∧ s.scrub.state = 2 then serveFailing (abortMig stFault false s)
      else if m.step = 4 then
        let (ok, s) := (instTiles i).foldl (fun (ok, s) t =>
          let (b, s) := readSource t s
          (ok && b, s)) (true, s)
        if !ok then
          serveFailing (abortMig stFault false (s.onInst m.base (fun x => { x with damaged := true })))
        else
          match badTile with
          | some k =>
            if k.val < i.w * i.h then
              let cause := fld s.free 1 0
              failTile (tileAt (m.col + k.val % i.w) (m.row + k.val / i.w)) cause (abortMig stFault false s.nextFree)
            else commitMig m i s
          | none => commitMig m i s
      else s
    | none => s
  | none => s
def execMigrationCopyDone (badTile : Option (Fin 16)) (s : State) : Host.Outcome State Fault Refusal :=
  .next (copyDone badTile s)

/-- A requested tile test begins on a tile (R547). -/
def beginTest (t : Nat) (req fromList : Bool) (s : State) : State :=
  let s := s.onDst (fun d => { d with test := some { tile := t, requested := req, fromList := fromList } })
  if req then s.setReg .scrubBistStat 0 (w32 (place 31 1 1 + place 30 1 1 + place 0 12 t)) else s
/-- SOURCE_TILES_CLEARED (R172 step 7): the sources are cleared and freed, held wires there disconnect unless the scrubber has halted
(R544), failing ones retire, a pin that waited takes effect, a test that waited begins, DST_MIGRATED is raised; then the next evacuation. -/
def sourcesCleared (s : State) : State :=
  match s.dst.mig with
  | some m =>
    match instAt s m.base with
    | some i =>
      if m.step = 6 then
        let src := rect i.w i.h m.oldCol m.oldRow
        let wires := s.fab.held.filter (fun id => src.contains (wireAt id).1 || src.contains (wireFar id))
        let s := forEach src clearTile (if s.scrub.state = 2 then s else forEach wires releaseWire s)
        let s := lastMig m stOk (s.onDst (fun d => { d with mig := none }))
        let s := match m.pinAfter with
          | some b => s.onInst m.base (fun x => { x with pinned := b })
          | none => s
        let dur := w32 ((s.now - m.start).toNat / 12800)
        let s := notify 0x50 (instDom s i)
          [w32 m.base, w32 m.reason.toNat, cornerItem m.oldCol m.oldRow, cornerItem m.col m.row, dur] s
        let s := match m.test with
          | some t => beginTest t true false s
          | none => s
        serveFailing s
      else s
    | none => s
  | none => s
def execSourceTilesCleared (s : State) : Host.Outcome State Fault Refusal := .next (sourcesCleared s)

/-- EVACUATION_CAP_RELEASE (R185): an evacuation that waited starts once the cap allows. -/
def execEvacuationCapRelease (s : State) : Host.Outcome State Fault Refusal := .next (serveFailing s)
/-- Whether a migration waits for the cap (DST_STATUS.CAPPED). -/
def capped (s : State) : Bool :=
  capFull s && s.dst.failing.any (fun e =>
    match (logicalAt s e.tile).bind (instOf s) with
    | some i => !s.dst.mig.any (fun m => m.base == i.base) && movable s i && (!i.pinned || bitOf (s.reg .dstPolicy 0) 31)
    | none => false)

/-! ## The policy (R181–R183, R190) -/

/-- The eight largest entries of a tally, lower key first where equal. -/
def topPeers : Nat → NMap Nat → NMap Nat
  | 0, _ => []
  | n + 1, m =>
    match leastBy (fun e => 2 ^ 32 - e.2) m with
    | some e => (topPeers n (m.erase e.1)).put e.1 e.2
    | none => []
/-- The terms of one instance over the period just ended (R181). -/
def evalInst (s : State) (i : Inst) : Inst :=
  let th := thetaAt s i.w i.h i.col i.row
  let et := if i.hopCnt < 16 then 0 else i.hopSum / i.hopCnt - fld (s.reg .dstThresh 0) 15 8
  { i with prevEta := i.eta, theta := th, eta := et, p := wTherm s * th + wHop s * et, kept := topPeers 8 i.peers,
           keptCnt := i.hopCnt, peers := [], hopSum := 0, hopCnt := 0 }
/-- The improving corner of an instance: the best one, where it gains MARGIN (R182). -/
def improving (s : State) (i : Inst) : Option (Nat × Nat) :=
  match bestCorner s i with
  | some (c, r) => if (pressureAt s i c r).1 + fld (s.reg .dstPolicy 0) 23 16 ≤ i.p then some (c, r) else none
  | none => none
/-- Whether an instance's pressure is enough to act on. -/
def presses (s : State) (i : Inst) : Bool :=
  decide (fld (s.reg .dstPolicy 0) 15 8 ≤ i.p) && movable s i && !fenced s i.base
/-- The reason of a policy migration (R182): THERMAL, HOPS, or BANK where the hop term rose after a recent swap. -/
def policyReason (s : State) (i : Inst) : Nat :=
  if wHop s * i.eta ≤ wTherm s * i.theta then 1
  else if i.prevEta < i.eta ∧ s.dst.swapAge < 2 then 3
  else 2
/-- Of a list of instances the one with the largest P, lowest base where equal. -/
def mostPressed (l : List Inst) : Option Inst := leastBy (fun i => 2 ^ 16 - i.p) l
/-- PRESSURE of the pinned instances and DST_PRESSURE (R183). -/
def pinPressure (s : State) : State :=
  let l := s.dst.insts.filter (fun i => i.pinned && presses s i && (improving s i).isSome)
  let s' := s.onDst (fun d => { d with insts := d.insts.map (fun i => { i with pressure := l.any (fun j => j.base == i.base) }) })
  match mostPressed l with
  | some x => notify 0x53 (instDom s x) [w32 x.base, w32 x.p, w32 l.length] s'
  | none => s'
/-- The policy's own migration (R182). -/
def policyMove (s : State) : State :=
  match mostPressed (s.dst.insts.filter (fun i => !i.pinned && presses s i)) with
  | some x =>
    match improving s x with
    | some (c, r) => if canMigrate s && !capFull s then startMig x (policyReason s x) c r none none s else s
    | none => s
  | none => s
/-- The bank groups whose stalls exceeded their share (R190). -/
def hotGroups (s : State) : List Nat :=
  if bitOf (s.reg .dstPolicy 0) 30 then
    (List.range 16).filter (fun g =>
      decide (fld (s.reg .dstThresh 0) 7 0 * s.dst.grpAcc.get 0 g < 256 * s.dst.grpStall.get 0 g))
  else []
/-- POLICY_EVALUATION (R181–R186, R190): the terms are formed from the readings and samples of the period, waiting
evacuations are tried, pinned instances report, and at most one migration starts. -/
def evaluate (temps : List Byte) (s : State) : State :=
  let s := tally 7 0 2 (s.onDst (fun d => { d with temps := temps }))
  let s := s.onDst (fun d => { d with insts := d.insts.map (evalInst s) })
  let s := pinPressure (retryFailing s)
  let s := policyMove s
  s.onDst (fun d => { d with hot := hotGroups s, lastStall := d.grpStall, grpAcc := [], grpStall := [],
                             swapAge := min (d.swapAge + 1) 2 })
def execPolicyEvaluation (temps : List Byte) (s : State) : Host.Outcome State Fault Refusal := .next (evaluate temps s)

/-! ## DST commands (R198–R201) -/

/-- A port's DST command completes at its write: the status stands in its DST_CMD_STAT. -/
def dstDone (p : Fin 4) (op : Nat) (st : Status) (s : State) : State :=
  (s.setRegP p .dstCmdStat 0 0 (w32 (place 30 1 1 + place 4 4 op + st.toNat))).stat st
/-- Whether the port's last command still acts. -/
def dstBusy (s : State) (p : Fin 4) : Bool := bitOf (s.regP p .dstCmdStat 0 0) 31
/-- Whether a port may command an instance: the owner, or the tenant whose domain holds the base tile (R199). -/
def mayCommand (s : State) (p : Fin 4) (base : Nat) : Bool := p == 0 || tileDom s base == p
/-- The reasons that a pin ends before the commit, and outlasts after it (R178). -/
def policyMig (m : Mig) : Bool := m.reason == 1 || m.reason == 2 || m.reason == 3
/-- Set or clear a pin; after the commit of a policy migration a new pin waits for step 7 (R178). -/
def setPin (base : Nat) (b : Bool) (s : State) : State :=
  match s.dst.mig with
  | some m =>
    if b && m.base == base && policyMig m then
      if m.step < 6 then serveFailing ((abortMig stBusy false s).onInst base (fun x => { x with pinned := true }))
      else s.onDst (fun d => { d with mig := some { m with pinAfter := some true } })
    else
      let s := if m.base == base then s.onDst (fun d => { d with mig := some { m with pinAfter := none } }) else s
      s.onInst base (fun x => { x with pinned := b })
  | none => s.onInst base (fun x => { x with pinned := b })
/-- PIN and UNPIN (R199). -/
def dstPin (p : Fin 4) (base : Nat) (b : Bool) (s : State) : State :=
  let op := if b then 1 else 2
  if dstBusy s p then s.stat stBusy
  else if !mayCommand s p base then dstDone p op stDenied s
  else if (instAt s base).isNone then dstDone p op stRange s
  else dstDone p op stOk (setPin base b s)
def execPin (port : Fin 4) (inst : BitVec 12) (s : State) : Host.Outcome State Fault Refusal :=
  .next (served (dstPin port inst.toNat true) s)
def execUnpin (port : Fin 4) (inst : BitVec 12) (s : State) : Host.Outcome State Fault Refusal :=
  .next (served (dstPin port inst.toNat false) s)

/-- The status of a MIGRATE from its RANGE check on, in the order of R199, with the corner it would take. -/
def migrateCheck (s : State) (i : Inst) (arg : Word) : Status × Option (Nat × Nat) :=
  let best := bitOf arg 31
  let c := fld arg 11 6
  let r := fld arg 5 0
  if !best && decide (64 < c + i.w ∨ 64 < r + i.h) then (stRange, none)
  else if bitOf arg 30 && decide (fld arg 27 20 ≠ fld (mapEnt s i.base) 27 20) then (stStale, none)
  else if i.nomove || i.unmovable || instCollides s i || s.scrub.state == 2 then (stUnsupported, none)
  else if i.damaged then (stFault, none)
  else if instFrozen s i then (stTorn, none)
  else if !canMigrate s || capFull s then (stBusy, none)
  else
    match if best then bestCorner s i else
      (if (rect i.w i.h c r).all (freeTile s) then some (c, r) else none) with
    | some x => (stOk, some x)
    | none => (stBusy, none)
/-- MIGRATE (R199). -/
def dstMigrate (p : Fin 4) (base : Nat) (s : State) : State :=
  if dstBusy s p then s.stat stBusy
  else if !mayCommand s p base then dstDone p 3 stDenied s
  else
    match instAt s base with
    | none => dstDone p 3 stRange s
    | some i =>
      match migrateCheck s i (s.regP p .dstCmdArg 0 0) with
      | (_, some (c, r)) =>
        let s := startMig i 5 c r (some p) none s
        (s.setRegP p .dstCmdStat 0 0 (w32 (place 31 1 1 + place 30 1 1 + place 4 4 3))).stat stOk
      | (st, none) => dstDone p 3 st s
def execMigrate (port : Fin 4) (inst : BitVec 12) (s : State) : Host.Outcome State Fault Refusal :=
  .next (served (dstMigrate port inst.toNat) s)

/-- RETIRE_TILE (R184, R188, R199): of the tile in the port's DST_CMD_ARG. -/
def dstRetire (p : Fin 4) (s : State) : State :=
  if dstBusy s p then s.stat stBusy
  else if p != 0 then dstDone p 4 stDenied s
  else
    let t := fld (s.regP p .dstCmdArg 0 0) 11 0
    if 256 ≤ s.dst.retRt.length then dstDone p 4 stRange s
    else if retired s t then dstDone p 4 stOk (if (testTile s).contains t then abandonTest s else s)
    else dstDone p 4 stOk (failTile t 0 s)
def execRetireTile (port : Fin 4) (s : State) : Host.Outcome State Fault Refusal := .next (served (dstRetire port) s)
/-- UNRETIRE (R199). -/
def dstUnretire (p : Fin 4) (s : State) : State :=
  if dstBusy s p then s.stat stBusy
  else if p != 0 then dstDone p 5 stDenied s
  else
    let t := fld (s.regP p .dstCmdArg 0 0) 11 0
    if s.sec.fuses.retired.contains t then dstDone p 5 stUnsupported s
    else if !(s.dst.retRt.any (fun e => e.tile == t)) then dstDone p 5 stRange s
    else dstDone p 5 stOk (s.onDst (fun d => { d with retRt := d.retRt.filter (fun e => e.tile != t) }))
def execUnretire (port : Fin 4) (s : State) : Host.Outcome State Fault Refusal := .next (served (dstUnretire port) s)

/-! ## Edge collisions (R83–R85) -/

/-- Whether a wire is connected and both its tiles select a source for it. -/
def colliding (s : State) (t e : Nat) : Bool :=
  match across t e with
  | some (t', e') => edgeJoined s t e && selects (selOf s t (384 + e)) && selects (selOf s t' (384 + e'))
  | none => false
/-- Whether a tile belongs to the migration before its commit. -/
def inEarlyMig (s : State) (t : Nat) : Bool :=
  match s.dst.mig with
  | some m =>
    decide (m.step < 6) && ((migTiles s).contains t || (match instAt s m.base with
      | some i => (instTiles i).contains t
      | none => false))
  | none => false
/-- EDGE_COLLISION (R83, R85, R178). -/
def collide (t : Nat) (east : Bool) (k : Nat) (s : State) : State :=
  let e := if east then 8 + k else k
  let id := wireId t e
  if colliding s t e && !s.fab.held.contains id && coreLive s then
    let s := { s with fab := { s.fab with held := insertNat id s.fab.held,
                                          heldSince := s.fab.heldSince.set 0 id (s.scrub.pos + 1) } }
    let s := (s.bump .fabCollideCount 0 1).setReg .fabCollideLast 0
      (w32 (place 31 1 1 + place 11 6 (colOf t) + place 5 6 (rowOf t) + place 3 2 (b2n east) + k))
    let s := notifyWire 0x68 id s
    if inEarlyMig s t || inEarlyMig s (wireFar id) then serveFailing (abortMig stBusy false s) else s
  else s
def execEdgeCollision (tile : Fin 4096) (east : Bool) (wire : Fin 8) (s : State) : Host.Outcome State Fault Refusal :=
  .next (collide tile east wire s)

end Sys2Proof.Machine
end

