-- ==== Sys2Proof/Machine/Spools.lean ====
section
/-! DEFINITION. Spools: segments and their placement (R189–R191), offsets and the live window (R293–R297), record words
and the lane writers (R228, R298–R303, R345), gap notices (R235, R236), positions (R304, R305). -/
namespace Sys2Proof.Machine

/-! ## Segments -/

/-- Whether a batch that has been accepted will give a position to a data area at its commit tick (R351). -/
def promised (s : State) (u : Nat) : Bool :=
  s.host.accepted.any (fun b => b.entries.any (fun e => (List.range 4).any (fun d =>
    let base := fld (s.reg .memDomArea d) 28 16
    e.1.toNat == Reg.hlkDomQuota.addr d 0 && decide (base ≤ u ∧ u < base + fld e.2 12 0))))
/-- The 64 KiB positions that no data area and no spool segment holds (R349), nor an accepted batch gives away (R41). -/
def freePos (s : State) (u : Nat) : Bool := decide (u < 7936) && (areaDom s u).isNone && (segSpool s u).isNone && !promised s u
/-- The lowest position of group `g` that is free and not in `taken`. -/
def posIn (s : State) (taken : List Nat) (g : Nat) : Option Nat :=
  ((List.range 512).map (fun k => 512 * g + k)).find? (fun u => freePos s u && !taken.contains u)
/-- A position by R189's order from group `g`: the groups g to 14, then 0 to g − 1, then 15. -/
def placeSeg (s : State) (taken : List Nat) (g : Nat) : Option Nat :=
  (((List.range 15).map (fun k => (g + k) % 15)) ++ [15]).findSome? (posIn s taken)
/-- Place segments `i` to `i + n − 1` of spool `sp` (R189): none where they do not all fit. -/
def placeSegs (s : State) (sp : Nat) : Nat → List Nat → Nat → Option (List Nat)
  | _, _, 0 => some []
  | i, taken, n + 1 =>
    match placeSeg s taken ((sp + i) % 15) with
    | none => none
    | some u =>
      match placeSegs s sp (i + 1) (u :: taken) n with
      | none => none
      | some l => some (u :: l)
/-- The free positions for spools, SPL_STATUS.FREE_UNITS (R333). -/
def freeUnits (s : State) : Nat := ((List.range 7936).filter (freePos s)).length

/-! ## Geometry -/

/-- V: the first live offset (R296). -/
def vOf (x : SpoolSt) : Nat :=
  if x.w ≤ ringSize x then x.start else max x.start ((x.w - ringSize x + 4095) / 4096 * 4096)
/-- The record word at an offset, its error corrected where it can be. -/
def spoolWord (s : State) (n o : Nat) : Word :=
  let a := offAddr (spoolOf s n) o
  let d := match flips s (a / 8) with
    | [_] => trueData s (a / 8)
    | _ => reelWord s (a / 8)
  if a % 8 < 4 then lo32 d else hi32 d
/-- The lane writer of a spool (R43). -/
def writerOf (n : Nat) : Nat := if n < 2048 then n / 32 else n - 2048

/-! ## Lapping (R310, R313, R316) -/

/-- A slot is in a run and not paused. -/
def reading (x : SlotSt) : Bool := x.state == 2 || x.state == 3 || x.state == 4
/-- SPL_READER_LAPPED, once per spool in each TBSYNC interval (R331). -/
def raiseLapped (n i skipped : Nat) (s : State) : State :=
  notifyOnce 0x80 n (spoolDom s n).val 1 [w32 n, w32 i, w32 skipped, w32 (skipped / 2 ^ 32)] s
/-- The slot jumps to V (R310); its next packet begins with a synthetic GAP. -/
def jumpSlot (v i : Nat) (x : SlotSt) : SlotSt :=
  { x with pos := v, laps := min (x.laps + 1) 65535, syn := if i < 2 then 2 else 0 }
/-- Slot A or B whose position is below V jumps (R310). -/
def lapSlot (n i : Nat) (s : State) : State :=
  let x := slotOf s n i
  let v := vOf (spoolOf s n)
  if reading x && decide (x.pos < v) then raiseLapped n i (v - x.pos) (s.setSlot n i (jumpSlot v i x)) else s
/-- The export of a spool. -/
def State.setExp (s : State) (n : Nat) (e : Option ExpSt) : State := s.setSpool n { spoolOf s n with exp := e }
/-- Write the record of a closed ledger entry where it has room; else it waits (R565). -/
def tryClose (n : Nat) (s : State) : State :=
  match (spoolOf s n).exp with
  | some e =>
    match e.closing with
    | some ws => if segmentRoom s then addRecord ws (waitOver (s.setExp n (some { e with closing := none }))) else segmentWait s
    | none => s
  | none => s
/-- The open ledger entry closes with a status (R315, R316, R564): a SEGMENT record of the bytes read, with their digest
where the status is OK or STALE. -/
def closeEntry (n : Nat) (st : Status) (s : State) : State :=
  match (spoolOf s n).exp with
  | some e =>
    match e.seg with
    | some f =>
      let stop := (slotOf s n 2).pos
      let w1 := place 6 1 (b2n (stop % 2 ^ 22 != 0)) + place 5 1 (b2n (f % 2 ^ 22 != 0)) + st.toNat
      let digest := if st = stOk ∨ st = stStale then sha256 e.bytes else []
      let ws := recordWords 2 (spoolDom s n).val e.port.val n w1 s.now (pair f ++ pair stop) digest
      tryClose n (s.setExp n (some { e with seg := none, bytes := [], closing := some ws }))
    | none => s
  | none => s
/-- Slots C and D of an export below V jump together (R316). -/
def lapExport (n : Nat) (s : State) : State :=
  let x := slotOf s n 2
  let v := vOf (spoolOf s n)
  if reading x && decide (x.pos < v) then
    let s := closeEntry n stLapped s
    match (spoolOf s n).exp with
    | some e =>
      let first := match e.skip with
        | some (a, _) => a
        | none => x.pos
      let s := s.setExp n (some { e with lapped := true, skip := some (first, v) })
      let s := (s.setSlot n 2 (jumpSlot v 2 x)).setSlot n 3 (if e.hash then jumpSlot v 3 (slotOf s n 3) else slotOf s n 3)
      raiseLapped n 2 (v - x.pos) s
    | none => s
  else s
/-- The readers that the writer has overtaken. -/
def lapReaders (n : Nat) (s : State) : State := lapExport n (lapSlot n 1 (lapSlot n 0 s))

/-! ## Writing words (R345) -/

/-- The writer leaves the new position of a swap: the old one is freed and the swap is complete (R190). -/
def swapDone (n : Nat) (s : State) : State :=
  let x := spoolOf s n
  match x.swap with
  | some w => if w.since + 65536 ≤ x.w then (s.setSpool n { x with swap := none }).bump .dstSwapCount 0 1 else s
  | none => s
/-- Whether a swap may start now (R190): enabled, below the cap. -/
def swapAllowed (s : State) : Bool :=
  bitOf (s.reg .dstPolicy 0) 30 &&
    decide ((s.dst.swapTimes.filter (fun t => decide ((s.now - t).toNat < 2 ^ 27))).length < fld (s.reg .dstCap 0) 15 8)
/-- The group of 0 to 14 with the fewest stalls in the last period, the lowest where equal. -/
def coolGroup (s : State) : Nat := (leastBy (fun g => s.dst.lastStall.get 0 g) (List.range 15)).getD 0
/-- A segment placed in a group in retention wakes the group and withdraws its request (R364). -/
def wakeFor (segs : List Nat) (s : State) : State :=
  forEach (segs.map (fun u => u / 512)) (fun g s =>
    let s := s.setReg .memCtl 0 (putBit (s.reg .memCtl 0) g false)
    askWake g s) s
/-- SEGMENT_SWAP (R190): the writer is about to enter a segment that lies in a hot group, and a free position is found. -/
def maybeSwap (n : Nat) (s : State) : State :=
  let x := spoolOf s n
  let o := appendAt x
  let old := x.segs.getD (segOf x o) 0
  if o % 65536 = 0 ∧ x.swap.isNone ∧ x.resizing.isNone ∧ s.dst.hot.contains (old / 512) ∧ swapAllowed s then
    match placeSeg s [] (coolGroup s) with
    | none => s
    | some u =>
      let s := s.setSpool n { x with segs := x.segs.set (segOf x o) u,
                                     swap := some { seg := segOf x o, old := old, new := u, since := o } }
      (wakeFor [u] s).onDst (fun d =>
        { d with swapTimes := (d.swapTimes.filter (fun t => decide ((s.now - t).toNat < 2 ^ 27))) ++ [s.now], swapAge := 0 })
  else s
/-- Write one reel word of a spool whole (R345), in the slot that its lane writer has been granted. -/
def writeReel (n o : Nat) (lo hi : Word) (s : State) : State := putReel (offAddr (spoolOf s n) o / 8) (join32 lo hi) s
/-- Append one record word: a first half waits in the buffer, a second half goes out with it (R345); W advances over what
is written. -/
def putRecWord (n : Nat) (v : Word) (s : State) : State :=
  let s := maybeSwap n s
  let x := spoolOf s n
  let o := appendAt x
  if o % 8 = 0 then s.setSpool n { x with half := some v }
  else
    let s := writeReel n (o - 4) (x.half.getD (spoolWord s n (o - 4))) v s
    lapReaders n (swapDone n (s.setSpool n { spoolOf s n with half := none, w := o + 4 }))
/-- Capture asks for a slot of the bank of a reel word (R353). -/
def captureSlot (w k : Nat) (s : State) : State := askSlot w none k (askFuel s (bankOf w)) s
/-- Append record words, each reel word in a slot of its own. -/
def putRecWords (n : Nat) (l : List Word) (s : State) : State :=
  forEach l (fun v s => putRecWord n v (match halfWord (spoolOf s n) with
    | some w => captureSlot w (writerOf n) s
    | none => s)) s
/-- No second half arrived: the word goes out with the placeholder, and W advances over its first half (R345). -/
def flushHalf (n : Nat) (s : State) : State :=
  let x := spoolOf s n
  match x.half with
  | some v =>
    if x.w % 8 = 0 then
      let s := writeReel n x.w v 0xFFFFFFFF (captureSlot (offAddr x x.w / 8) (writerOf n) s)
      lapReaders n (s.setSpool n { spoolOf s n with w := x.w + 4 })
    else s
  | none => s

/-! ## Records (R298–R302) -/

/-- An ANCHOR (R300). -/
def anchorRec (n : Nat) (t : Tick) : List Word := [w32 (place 28 4 8 + n)] ++ tickPair t
/-- A TIME record (R301). -/
def timeRec (n : Nat) (order synth : Bool) (t : Tick) : List Word :=
  [w32 (place 28 4 9 + place 27 1 (b2n order) + place 26 1 (b2n synth) + n)] ++ tickPair t
/-- A GAP record (R302). -/
def gapRec (n cause : Nat) (synth unknown : Bool) (a b : Tick) (lost : Nat) : List Word :=
  [w32 (place 28 4 0xA + place 24 4 cause + place 23 1 (b2n synth) + place 22 1 (b2n unknown) + n)] ++ tickPair a ++
    tickPair b ++ [w32 (if unknown then 0 else min lost (2 ^ 32 - 1))]
/-- A record placed at an offset: PAD fills a page that has no room for it, and a new page begins with its anchor (R300). -/
def placedRec (n o : Nat) (run : Tick) (l : List Word) : List Word :=
  let room := (4096 - o % 4096) / 4
  let pad := if o % 4096 ≠ 0 ∧ room < l.length then List.replicate room 0xFFFFFFFF else []
  pad ++ (if (o + 4 * pad.length) % 4096 = 0 then anchorRec n run else []) ++ l
/-- The words of an event in a spool (R299, R301): an event record with the time since the last one, or a TIME record and an
event record. -/
def eventWords (n : Nat) (x : SpoolSt) (t : Tick) (kind : BitVec 2) (order : Bool) : List Word :=
  let d := (t - x.run).toNat
  if order ∨ 536870911 < d then
    let a := placedRec n (appendAt x) x.run (timeRec n order false t)
    a ++ placedRec n (appendAt x + 4 * a.length) t [w32 (place 29 2 kind.toNat)]
  else placedRec n (appendAt x) x.run [w32 (place 29 2 kind.toNat + d)]
/-- What a lane writer writes for a record; nothing where the spool has no size. -/
def recCur (s : State) (r : WRec) : Option WCur :=
  let x := spoolOf s (recSpool r)
  if x.size = 0 then none
  else
    match r with
    | .event n t kind order => some { spool := n, words := eventWords n x t kind order, run := t, gap := false }
    | .gap n cause unknown a b lost =>
      some { spool := n, words := placedRec n (appendAt x) x.run (gapRec n cause.toNat false unknown a b lost), run := x.run, gap := true }
/-- A record has been written: the running time moves, the event or the GAP record is counted (R303, R339). -/
def recDone (c : WCur) (s : State) : State :=
  let s := s.setSpool c.spool { spoolOf s c.spool with run := c.run }
  if c.gap then s.bump .splGaps c.spool 1 else tally 2 c.spool 0 s
/-- Write a whole record at once. -/
def writeRec (r : WRec) (s : State) : State :=
  match recCur s r with
  | some c => recDone c (putRecWords c.spool c.words s)
  | none => s
/-- A spool is opened at a page start with its anchor, at the timebase value of this moment (R300, R327, R329;
notes/assumptions/17.md). -/
def openSpool (n size : Nat) (segs : List Nat) (start : Nat) (s : State) : State :=
  let s := s.setSpool n { SpoolSt.init with size := size, segs := segs, w := start, start := start, run := s.now, acc := s.now }
  if size = 0 then s else flushHalf n (putRecWords n (anchorRec n s.now) s)

/-! ## Gap notices (R235) -/

/-- A cause begins in a spool: a notice opens, or the open one extends. `lost` is none where the number is unknown;
`lasting` says that the cause holds on until it ends. -/
def openGap (cause : Nat) (start : Option Tick) (lost : Option Nat) (lasting : Bool) (n : Nat) (s : State) : State :=
  let x := spoolOf s n
  if x.size = 0 then s
  else
    let act (l : List Nat) : List Nat := if lasting then insertNat cause l else l
    match x.gap with
    | none => s.setSpool n { x with gap := some { cause := BitVec.ofNat 4 cause, start := start.getD x.acc, lost := lost.getD 0,
                                                  unknown := lost.isNone, active := act [] } }
    | some g => s.setSpool n { x with gap := some { g with lost := g.lost + lost.getD 0, unknown := g.unknown || lost.isNone,
                                                           active := act g.active } }
/-- Causes end in a spool. -/
def endCauses (cs : List Nat) (n : Nat) (s : State) : State :=
  let x := spoolOf s n
  match x.gap with
  | some g => s.setSpool n { x with gap := some { g with active := g.active.filter (fun c => !cs.contains c) } }
  | none => s
/-- A record goes to its lane writer: with the last block of the ingest queue where one of its lane waits there, so that the
records of a spool keep their order; else into the spool buffer. -/
def pushRec (r : WRec) (s : State) : State :=
  let k := writerOf (recSpool r)
  let x := lane s k
  match x.wq.items.getLast? with
  | some b =>
    if recSpool r < 2048 then s.setLane k { x with wq := { x.wq with items := x.wq.items.dropLast ++ [b ++ [r]] } }
    else s.setLane k { x with wbuf := x.wbuf ++ [r] }
  | none => s.setLane k { x with wbuf := x.wbuf ++ [r] }
/-- The record of an open notice that ends at `t`. -/
def gapOut (n : Nat) (g : GapSt) (t : Tick) : WRec := .gap n g.cause g.unknown g.start t g.lost
/-- A gap notice is written before the channel's next event, whose packet says so (R231). -/
def flagGap (n : Nat) (s : State) : State :=
  let x := chan s n
  s.setChan n { x with pend := { x.pend with gap := true } }
/-- An open notice is written now (R235): its lane is disabled or its spool resized. -/
def flushGap (t : Tick) (n : Nat) (s : State) : State :=
  let x := spoolOf s n
  match x.gap with
  | some g => flagGap n (pushRec (gapOut n g t) (s.setSpool n { x with gap := none }))
  | none => s
/-- A notice that was lost on its way to its spool is open still, before what has opened since (R235). -/
def reopenGap (r : WRec) (s : State) : State :=
  match r with
  | .event _ _ _ _ => s
  | .gap n cause unknown start _ lost =>
    let x := spoolOf s n
    let g : GapSt := match x.gap with
      | some g => { g with cause := cause, start := start, lost := g.lost + lost, unknown := g.unknown || unknown }
      | none => { cause := cause, start := start, lost := lost, unknown := unknown, active := [] }
    s.setSpool n { x with gap := some g }
/-- An event is accepted in a spool (R228, R235): a notice whose causes have all ended goes before it. -/
def acceptEvent (n : Nat) (t : Tick) (kind : BitVec 2) (order : Bool) (s : State) : State :=
  let x := spoolOf s n
  let s := match x.gap with
    | some g => if g.active.isEmpty then flushGap t n s else s
    | none => s
  let s := pushRec (.event n t kind order) s
  s.setSpool n { spoolOf s n with acc := t }
/-- The spools of a lane (R210). -/
def laneSpools (k : Nat) : List Nat := (List.range 32).map (fun i => 32 * k + i)
/-- A lane gap notice (R235). -/
def laneGap (cause : Nat) (lasting : Bool) (k : Nat) (s : State) : State :=
  forEach (laneSpools k) (openGap cause none (if cause = 9 ∨ cause = 10 then some 0 else none) lasting) s

/-! ## Lane writers (R228, R345, R353, R394) -/

/-- A pointer fault of the ingest queue (R399, R400): its records are lost and a BLOCK_ERR notice, with UNKNOWN, opens in the
lane's spools; a notice that was among them stays open. -/
def ingestFault (k : Nat) (s : State) : State :=
  let x := lane s k
  let s := queueFault 5 k 0 (s.setLane k { x with wq := x.wq.clear })
  laneGap 5 false k (forEach x.wq.items.flatten.reverse reopenGap s)
/-- The next record of the spool buffer is taken up. -/
def takeBuffered (k : Nat) (s : State) : State :=
  let x := lane s k
  match x.cur, x.wbuf with
  | none, r :: t => s.setLane k { x with wbuf := t, cur := recCur s r }
  | _, _ => s
/-- A lane writer that writes no record takes up the next: from its spool buffer, or the records of the oldest block of the
ingest queue. -/
def takeRecord (k : Nat) (s : State) : State :=
  let x := lane s k
  match x.cur, x.wbuf, x.wq.items with
  | none, [], b :: _ => if x.wq.ok then takeBuffered k (s.setLane k { x with wbuf := b, wq := x.wq.pop 256 }) else ingestFault k s
  | _, _, _ => takeBuffered k s
/-- The lane writer's next word is appended; with the last one the record is done. -/
def writerStep (k : Nat) (s : State) : State :=
  match (lane s k).cur with
  | none => s
  | some c =>
    let rest := c.words.drop 1
    let s := s.setLane k { lane s k with cur := if rest.isEmpty then none else some { c with words := rest }, slot := false }
    let s := match c.words with
      | v :: _ => putRecWord c.spool v s
      | [] => s
    if rest.isEmpty then recDone c s else s
/-- The bank of a reel word serves its turns until the lane writer has its slot (R353); a word under test needs none. -/
def waitSlot (w k : Nat) : Nat → State → State
  | 0, s => s
  | j + 1, s =>
    if inTest s w then takeSlot w k [] 1 s
    else if (lane s k).slot then s
    else
      match pickSlot s (bankOf w) none with
      | some t => waitSlot w k j (serveTurn (bankOf w) t [] s)
      | none => s
/-- The lane writer writes the rest of its record, `j` words at most; in a group that is in retention it waits for the group to
wake (R364). -/
def writerGo (k : Nat) : Nat → State → State
  | 0, s => s
  | j + 1, s =>
    match (lane s k).cur with
    | none => s
    | some c =>
      match halfWord (spoolOf s c.spool) with
      | none => writerGo k j (writerStep k s)
      | some w =>
        if retained s (w / 2 ^ 22) then askWake (w / 2 ^ 22) s
        else writerGo k j (writerStep k (waitSlot w k (askFuel s (bankOf w)) s))
/-- The lane writer's crossing into reel memory (R378). -/
def writerXing (k : Nat) : Nat := xkey 1 k 0 true 1
/-- Nothing waits in a lane writer. -/
def writerEmpty (x : LaneSt) : Bool := x.cur.isNone && x.wbuf.isEmpty && x.wq.items.isEmpty
/-- A record offered to an absent crossing is discarded (R392): a lost event is counted in a RESET notice, a notice stays
open. -/
def dropRec (k : Nat) (s : State) : State :=
  let x := lane s k
  match x.cur, x.wbuf with
  | none, .event n _ _ _ :: t => openGap 3 none (some 1) false n (s.setLane k { x with wbuf := t })
  | none, r :: t => reopenGap r (s.setLane k { x with wbuf := t })
  | _, _ => s
/-- What the lane writer writes or takes up next is a sense pin's record: it does not come by the lane's crossing (R274). -/
def senseNext (x : LaneSt) : Bool :=
  match x.cur, x.wbuf with
  | some c, _ => decide (2048 ≤ c.spool)
  | none, r :: _ => decide (2048 ≤ recSpool r)
  | none, [] => false
/-- SPOOL_WRITE (R228, R274, R345, R353): the writer's oldest record goes to its spool. Of a lane in RESET the crossing is absent
once the writer has nothing left (R245, R393). -/
def spoolWrite (k : Nat) (s : State) : State :=
  if !memLive s then s
  else if (xing s (writerXing k)).absent && !senseNext (lane s k) then
    match (lane s k).cur, (lane s k).wbuf, (lane s k).wq.items with
    | none, [], b :: _ =>
      if (lane s k).wq.ok then dropRec k (s.setLane k { lane s k with wbuf := b, wq := (lane s k).wq.pop 256 }) else ingestFault k s
    | _, _, _ => dropRec k s
  else
    let s := takeRecord k s
    let s := writerGo k (((lane s k).cur.map (fun c => c.words.length)).getD 0) s
    if (lane s k).state == 7 && writerEmpty (lane s k) then peerReset (writerXing k) s else s
def execSpoolWrite (writer : Fin 64) (s : State) : Host.Outcome State Fault Refusal := .next (spoolWrite writer s)
/-- LANE_WRITER_TIMEOUT (R345). -/
def writerTimeout (n : Nat) (s : State) : State :=
  let x := spoolOf s n
  let busy := (lane s (writerOf n)).cur.any (fun c => c.spool == n)
  if memLive s && x.half.isSome && x.w % 8 == 0 && !busy then
    let g := offAddr x x.w / 2 ^ 25
    if retained s g then askWake g s else flushHalf n s
  else s
def execLaneWriterTimeout (spool : Fin 2112) (s : State) : Host.Outcome State Fault Refusal :=
  .next (writerTimeout spool s)
/-- A lane writer that a bank has granted a slot writes its word. -/
def spendSlot (k : Nat) (s : State) : State := if (lane s k).slot then writerStep k (takeRecord k s) else s
/-- REEL_WORD_ACCESS (R342, R353): the bank serves who is next, a lane writer among those that wait. -/
def wordAccess (b : Nat) (s : State) : State :=
  let s := accessBank b s
  forEach (s.lanes.map (·.1)) spendSlot s
def execReelWordAccess (g bank : Fin 16) (s : State) : Host.Outcome State Fault Refusal :=
  .next (wordAccess (16 * g + bank) s)

/-! ## Reading records (R303) -/

/-- How many words a record takes, by its first word (R298). -/
def recLen (v : Word) : Nat :=
  if v = 0xFFFFFFFF then 1
  else
    match fld v 31 28 with
    | 8 => 3
    | 9 => 3
    | 10 => 6
    | _ => 1
/-- Whether a word is an event record. -/
def isEvent (v : Word) : Bool := !bitOf v 31
/-- The time that two words of a spool spell. -/
def timeAt2 (s : State) (n o : Nat) : Tick := join32 (spoolWord s n o) (spoolWord s n (o + 4))
/-- Walk records from `o` with running time `t` until `stop` says so or the offset reaches `lim`: the offset reached and
the running time there. A record that `lim` cuts ends the walk. -/
def walk (s : State) (n lim : Nat) (stop : Nat → Tick → Word → Bool) : Nat → Nat → Tick → Nat × Tick
  | 0, o, t => (o, t)
  | k + 1, o, t =>
    if lim ≤ o then (lim, t)
    else
      let v := spoolWord s n o
      if stop o t v then (o, t)
      else
        let len := recLen v
        if lim < o + 4 * len then (lim, t)
        else
          let t' :=
            if v = 0xFFFFFFFF then t
            else if isEvent v then t + BitVec.ofNat 64 (fld v 28 0)
            else if fld v 31 28 = 8 ∨ fld v 31 28 = 9 then timeAt2 s n (o + 4)
            else t
          walk s n lim stop k (o + 4 * len) t'
/-- The page start at or below an offset. -/
def pageOf (o : Nat) : Nat := o - o % 4096
/-- The running time of R303 at an offset: the walk of its page; at a page start not yet written, of the page before. -/
def runAt (s : State) (n o : Nat) : Tick :=
  let x := spoolOf s n
  if o % 4096 = 0 then
    if o < x.w then timeAt2 s n (o + 4)
    else if x.start < o then (walk s n o (fun _ _ _ => false) 1025 (o - 4096) x.run).2
    else x.run
  else (walk s n o (fun _ _ _ => false) 1025 (pageOf o) x.run).2
/-- BASE of a page's anchor; the running time where it is not yet written (R305). -/
def pageBase (s : State) (n p : Nat) : Tick :=
  let x := spoolOf s n
  if p + 12 ≤ x.w then timeAt2 s n (p + 4) else runAt s n x.w
/-- The binary search of R305 over pages `lo` to `hi`. -/
def seekPage (s : State) (n : Nat) (t : Tick) : Nat → Nat → Nat → Nat
  | 0, lo, _ => lo
  | k + 1, lo, hi =>
    if lo < hi then
      let mid := (lo + hi + 1) / 2
      if tickLt (pageBase s n (4096 * mid)) t then seekPage s n t k mid hi else seekPage s n t k lo (mid - 1)
    else lo
/-- The pages whose anchors that search reads. -/
def seekProbes (s : State) (n : Nat) (t : Tick) : Nat → Nat → Nat → List Nat
  | 0, _, _ => []
  | k + 1, lo, hi =>
    if lo < hi then
      let mid := (lo + hi + 1) / 2
      mid :: (if tickLt (pageBase s n (4096 * mid)) t then seekProbes s n t k mid hi else seekProbes s n t k lo (mid - 1))
    else []
/-- The time of the event record `v` at running time `t` is `u` or later. -/
def eventFrom (u : Tick) (_ : Nat) (t : Tick) (v : Word) : Bool :=
  isEvent v && tickGe (t + BitVec.ofNat 64 (fld v 28 0)) u
/-- A scan over pages: `k` pages from page start `o`, until an event at `u` or later. -/
def scanFrom (s : State) (n : Nat) (u : Tick) : Nat → Nat → Tick → Nat × Tick
  | 0, o, t => (o, t)
  | k + 1, o, t =>
    let w := (spoolOf s n).w
    let (o', t') := walk s n w (eventFrom u) 1025 o t
    if w ≤ o' then (w, t')
    else if eventFrom u o' t' (spoolWord s n o') then (o', t')
    else scanFrom s n u k o' t'
/-- A resolved position (R304): its offset and its base time. -/
structure Pos where
  off : Nat
  base : Tick
  deriving DecidableEq, Repr

/-- The seek of R305. -/
def seek (s : State) (n : Nat) (t : Tick) : Except Status Pos :=
  let x := spoolOf s n
  let v := vOf x / 4096
  if tickGe (pageBase s n (4096 * v)) t then .error stLapped
  else
    let lo := seekPage s n t 32 v (x.w / 4096)
    let (o, b) := scanFrom s n t (x.w / 4096 + 2 - lo) (4096 * lo) x.run
    .ok { off := o, base := b }
/-- The first record boundary at or after an offset (R304). -/
def boundary (s : State) (n o : Nat) : Nat :=
  let x := spoolOf s n
  if x.w ≤ o then x.w else (walk s n x.w (fun p _ _ => decide (o ≤ p)) 1025 (pageOf o) x.run).1
/-- A position that needs no table (R304): NOW, OLDEST, OFFSET, TIME, MARK. -/
def resolve (s : State) (n wh : Nat) (a b : Word) : Except Status Pos :=
  let x := spoolOf s n
  match wh with
  | 0 => .ok { off := x.w, base := runAt s n x.w }
  | 1 => .ok { off := vOf x, base := runAt s n (vOf x) }
  | 2 =>
    let o := (join32 a b).toNat
    if x.w < o ∨ o % 4 ≠ 0 then .error stRange
    else if o < vOf x then .error stLapped
    else
      let p := boundary s n o
      .ok { off := p, base := runAt s n p }
  | 3 => seek s n (join32 a b)
  | 4 =>
    match x.marks.find (fld a 2 0) with
    | some (o, t) => if o < vOf x then .error stLapped else .ok { off := o, base := t }
    | none => .error stRange
  | _ => .error stUnsupported
/-- The bytes of a page's anchor; none where it is not yet written (R305). -/
def anchorBytes (s : State) (n p : Nat) : List (Nat × Nat) := if p + 12 ≤ (spoolOf s n).w then [(p, p + 12)] else []
/-- The stretches of a spool, from first byte to end, that a position is resolved by (R303, R304, R305). -/
def posReads (s : State) (n wh : Nat) (a b : Word) : List (Nat × Nat) :=
  let x := spoolOf s n
  let v := vOf x / 4096
  match wh, resolve s n wh a b with
  | 1, _ => anchorBytes s n (vOf x)
  | 2, .ok p => [(pageOf (join32 a b).toNat, p.off)]
  | 3, .ok p =>
    let t := join32 a b
    anchorBytes s n (4096 * v) ++ (seekProbes s n t 32 v (x.w / 4096)).flatMap (fun k => anchorBytes s n (4096 * k)) ++
      [(4096 * seekPage s n t 32 v (x.w / 4096), p.off)]
  | 3, .error _ => anchorBytes s n (4096 * v)
  | _, _ => []
/-- The words of such stretches are read on master 79 for a domain's command, in their slots and looked at for errors (R347, R348,
R353): whether each could be corrected. -/
def readSpool (n dom : Nat) : List (Nat × Nat) → State → Bool × State
  | [], s => (true, s)
  | r :: l, s =>
    let x := spoolOf s n
    let (good, s) := (List.range ((r.2 + 7) / 8 - r.1 / 8)).foldl (fun (z : Bool × State) k =>
      let (d, u) := readReel (1 + dom) 79 (spoolDom z.2 n).val (offAddr x (8 * (r.1 / 8 + k)) / 8) z.2
      (z.1 && d.isSome, u)) (true, s)
    let (rest, s) := readSpool n dom l s
    (good && rest, s)

end Sys2Proof.Machine
end

