-- ==== Sys2Proof/Machine/Lanes.lean ====
section
/-! DEFINITION. Lanes: blocks and frames (R210–R221), sync echo and correction (R222–R225), lock and lane errors (R226,
R227), delivery to spools and tiles (R228–R234), gap notices (R235, R236), training (R237–R239), the eye monitor, commands
and lane registers (R244–R263). A block's sync header is written with the bit sent first as bit 0: data 0b10, control
0b01. -/
namespace Sys2Proof.Machine

/-! ## Channel queues -/

/-- The queue class and index of a channel or sense queue (R394). -/
def chanClass (c : Nat) : Nat × Nat := if c < 2048 then (2, c) else (3, c - 2048)
/-- What the entries of a channel's queue and its next one report. -/
def allReports (x : ChanSt) : Report := x.q.items.foldr (fun e r => e.rep.join r) x.pend
/-- A pointer fault of a channel or sense queue (R399, R400). -/
def chanFault (c : Nat) (s : State) : State :=
  let x := chan s c
  let s := s.setChan c { x with q := x.q.clear, told := false,
                                pend := { gap := (allReports x).gap, miss := 0xFFFFFFFF, first := x.lastDel + 1 } }
  queueFault (chanClass c).1 (chanClass c).2 (spoolDom s c).val s
/-- The governor sees a queue's depth (R588): of an island whose values disagree or are absent, the one that it accepted last (R382). -/
def seeDepth (c n : Nat) (s : State) : State :=
  if subValid s c then
    let held := s.xng.xings.any (fun e => valueOf (if c < 2048 then 1 else 4) (c / 32 % 64) e.1 && (e.2.unstable || e.2.absent))
    let n := if held then depthSeen s (c / 32) else n
    { s with pwr := { s.pwr with lag := max s.pwr.lag n } }
  else s
/-- Count `k` events of a channel or sense pin as missed, in every counter that counts them (R230, R279, R588). -/
def countMissed (c k : Nat) (s : State) : State :=
  let s := if subValid s c then { s with pwr := { s.pwr with missed := s.pwr.missed + k } } else s
  let s := tallyN 2 c 2 k s
  if c < 2048 then tallyN 1 (c / 32) 3 k ((s.bump .laneChMissed c k).bump .laneMissed (c / 32) k)
  else s.bump .timeSenseMissed (c - 2048) k
/-- `k` events of a channel are missed, the first of them at `t`: the next event entered in its queue says so (R231, R233;
notes/assumptions/71.md). -/
def missChan (c k : Nat) (t : Tick) (s : State) : State :=
  let x := chan s c
  countMissed c k (s.setChan c { x with pend := x.pend.join { miss := k, first := t } })
/-- LANE_MISSED, once each time the channel's queue fills (R230, R247). -/
def tellMissed (c : Nat) (s : State) : State :=
  if c < 2048 ∧ !(chan s c).told then
    notifyOnce 0x99 (c / 32) (spoolDom s c).val 1 [w32 c] (s.setChan c { chan s c with told := true })
  else s
/-- Enter an event in a channel queue; `missed` says what happens beside its counting where it finds the queue full (R230, R278,
R395). -/
def chanPush (c : Nat) (e : ChEnt) (missed : State → State) (s : State) : State :=
  let x := chan s c
  if !x.q.ok then chanFault c s
  else if x.q.items.length < 64 then
    seeDepth c (x.q.items.length + 1) (s.setChan c
      { x with q := x.q.push 64 { e with rep := x.pend }, pend := { }, peak := max x.peak (x.q.items.length + 1) })
  else missed (missChan c 1 e.time (s.setChan c { x with q := { x.q with ovr := true } }))
/-- Discard a channel's entries, counting them as missed (R146, R234, R245). -/
def chanDrop (c : Nat) (s : State) : State :=
  let x := chan s c
  match x.q.items with
  | [] => s
  | e :: t => missChan c (t.length + 1) e.time (s.setChan c { x with q := x.q.clear, pend := allReports x, told := false })
/-- The entries that a subscription takes, each with what the withdrawn ones before it reported; `r` is what the ones before
all of them did. -/
def keptEntries (take : BitVec 2 → Bool) : Report → List ChEnt → List ChEnt × Report
  | r, [] => ([], r)
  | r, e :: t =>
    if take e.kind then ({ e with rep := r.join e.rep } :: (keptEntries take { } t).1, (keptEntries take { } t).2)
    else keptEntries take (r.join e.rep) t

/-- The packet that carries an event (R231). `sub` is laid out as LANE_SUB. -/
def eventPacket (s : State) (c : Nat) (src : Nat) (sub : Word) (e : ChEnt) : Packet :=
  let miss := decide (e.rep.miss ≠ 0)
  let w0 := w32 (place 30 2 e.kind.toNat + place 29 1 (b2n e.rep.gap) + place 28 1 (b2n miss) + place 27 1 (b2n e.order) + c)
  { dest := BitVec.ofNat 16 (fld sub 11 0), slot := BitVec.ofNat 5 (fld sub 25 21), op := 0, tag := 0,
    src := BitVec.ofNat 16 src, status := 0, dom := spoolDom s c, vc := false,
    words := [w0, lo32 e.time] ++ (if bitOf sub 30 then [hi32 e.time] else []) ++
      (if miss then [w32 e.rep.miss, lo32 e.rep.first] else []),
    rep := e.rep }
/-- Whether a subscription takes an event of a kind (R229). -/
def subTakes (sub : Word) (kind : BitVec 2) : Bool := bitOf sub 31 && bitOf sub (26 + kind.toNat)
/-- A subscription takes its fields: queued entries that it does not take are discarded and not counted (R234). -/
def putSub (r : Reg) (i c : Nat) (v : Word) (s : State) : State :=
  let s := s.putFields 0 r i 0 v
  let x := chan s c
  let l := keptEntries (subTakes (s.reg r i)) { } x.q.items
  if l.1.length = x.q.items.length then s
  else
    let q := { x.q with items := l.1, wr := (x.q.rd + l.1.length) % 64, wr2 := (x.q.rd2 + l.1.length) % 64 }
    if x.q.ok then s.setChan c { x with q := q, pend := l.2.join x.pend, told := false } else chanFault c s
/-- Whether a gateway's assembled packet of a domain still waits at its injection port: backpressure (R138, R232). -/
def gateFree (s : State) (port : Nat) (d : Fin 4) : Bool := (plane s (laneKey port false d.val)).out.isEmpty

/-! ## Events that are not delivered (R146, R234, R279, R392) -/

/-- The 64-bit time of an event in flight, from its low word: the last such time up to now. -/
def eventTime (s : State) (lo : Word) : Tick := s.now - ((lo32 s.now - lo).setWidth 64)
/-- Whether a packet's words are an event's of a lane or a sense pin: its channel. -/
def eventChan (src : Nat) (w0 : Word) : Option Nat :=
  match target src with
  | .lane _ => some (fld w0 11 0)
  | .pin _ => if bitOf w0 11 then some (fld w0 11 0) else none
  | _ => none
/-- A slot's packet is discarded: it stands nowhere any more, and with the LAST of a run the SLOT_STOPs that wait for it are
answered (R311, R335). -/
def slotMissed (g : Nat) (w0 : Word) (rep : Report) (s : State) : State :=
  let n := fld w0 11 0
  let i := b2n (bitOf w0 31)
  if rep.run = 0 then s
  else
    let s := s.setSlot n i { slotOf s n i with sent := moveSent g (fun _ => true) none (slotOf s n i).sent }
    if bitOf w0 30 then answerStops n i rep.run s else s
/-- A discarded event packet is a missed event; the channel's next event reports it, with what the packet reported. A counter's
sample and a pin event (`short`: one word) are lost: the next packet says so, and the bank counts its event (R284, R418, R425). -/
def missPacket (src : Nat) (short : Bool) (w0 lo : Word) (rep : Report) (s : State) : State :=
  match eventChan src w0, target src with
  | some c, _ => countMissed c 1 (giveBack c (rep.join { miss := 1, first := eventTime s lo }) s)
  | none, .pin _ =>
    if short then
      (s.bump .pinEvtLost (fld w0 8 0 / 48) 1).setPin (fld w0 8 0) { pinSt s (fld w0 8 0) with ovr := true, resample := true }
    else sampleLost w0 s
  | none, .mem g => slotMissed g w0 rep s
  | none, _ => s
/-- The events among flits that are discarded, the last first: the flit after a header names the channel and the time, and is
the packet's last where there is one word, or two. -/
def missFlits (l : List Flit) (s : State) : State :=
  forEach (l.filter (fun f => f.idx == 1)).reverse
    (fun f s => missPacket f.src.toNat f.tail (lo32 f.bits) (hi32 f.bits) f.rep s) s
/-- The events among packets that are discarded. -/
def missPackets (l : List Packet) (s : State) : State :=
  forEach (l.filter (fun p => !isResponse p.op)).reverse
    (fun p s => missPacket p.src.toNat (decide (p.words.length < 2)) (p.words.getD 0 0) (p.words.getD 1 0) p.rep s) s
/-- A gateway's packet crosses to the ply network; one offered to an absent crossing is discarded at once (R392). -/
def gateOut (port : Nat) (p : Packet) (s : State) : State :=
  let k := match target p.src.toNat with
    | .lane n => xkey 1 n 0 true 0
    | t => xkey (attachIsland t / 64) (attachIsland t % 64) 0 true 0
  if (xing s k).absent then missPackets [p] s else queueOut port p s
/-- Pop the oldest event of a channel and send it (R231); with the last, the queue no longer counts as filled. -/
def chanSend (c src port : Nat) (sub : Word) (s : State) : State :=
  let x := chan s c
  match x.q.items with
  | [] => s
  | e :: _ =>
    if !x.q.ok then chanFault c s
    else
      gateOut port (eventPacket s c src sub e) (tally 2 c 1 (s.setChan c { x with q := x.q.pop 64, lastDel := e.time, told := false }))

/-! ## Lane states -/

/-- Whether the lane's receiver is on: QUEUED, TRAINING, RUN, LOST or FAILED (R237). -/
def listening (x : LaneSt) : Bool := x.state == 1 || x.state == 2 || x.state == 3 || x.state == 4 || x.state == 5
/-- No frame is open. -/
def LaneSt.noFrame (x : LaneSt) : LaneSt := { x with frame := none, lostFrame := false, events := 0, skip := false }
/-- Block lock is gone (R226). -/
def LaneSt.noLock (x : LaneSt) : LaneSt := { x.noFrame with lock := false, good := 0, errs := [], lastBase := none, trains := 0 }
/-- LANE_CFG of a lane. -/
def laneCfg (s : State) (n : Nat) : Word := s.reg .laneCfg n
/-- Change a lane. -/
def State.onLane (s : State) (n : Nat) (f : LaneSt → LaneSt) : State := s.setLane n (f (lane s n))
/-- A lane goes to a state; its clock runs (R389), and one that leaves RUN raises LANE_DOWN (R247). -/
def laneGo (n : Nat) (st : BitVec 4) (s : State) : State :=
  let was := (lane s n).state
  let s := wakeIsl 1 n (s.onLane n (fun x => { x with state := st }))
  if was == 3 then notifyOwner 0x91 0 [w32 n, w32 st.toNat] s else s
/-- The causes that end when a lane is in RUN again (R235). -/
def laneCausesEnd (n : Nat) (s : State) : State := forEach (laneSpools n) (endCauses [1, 2, 3, 4]) s
/-- Sync is good again: the causes SYNC_LOST and SYNC_RANGE end (R224). -/
def syncGood (n : Nat) (s : State) : State :=
  let x := lane s n
  if x.syncRange || x.syncLost then
    forEach (laneSpools n) (endCauses [9, 10]) (s.setLane n { x with syncRange := false, syncLost := false })
  else s

/-! ## Blocks (R212–R214) -/

/-- The descrambler (R213): the payload's bits and the 58 received bits before them give the data bits and the next 58. -/
def descramble (scr : BitVec 58) (p : DWord) : DWord × BitVec 58 :=
  let t : BitVec 122 := p ++ scr
  (p ^^^ (t >>> 19).setWidth 64 ^^^ t.setWidth 64, (t >>> 64).setWidth 58)
/-- The type of a control block. -/
def blockType (d : DWord) : Nat := fld d 7 0
/-- Whether a control block's type is known. -/
def knownType (d : DWord) : Bool := blockType d == 0x1E || blockType d == 0x2D || blockType d == 0x33 || blockType d == 0x78
/-- Count a block for block lock (R226): `valid` its sync header, `bad` whether it is a block error. -/
def LaneSt.note (x : LaneSt) (valid bad : Bool) : LaneSt :=
  if x.lock then { x with errs := (x.errs ++ [bad]).drop (x.errs.length + 1 - 64) }
  else { x with good := if valid then min 64 (x.good + 1) else 0 }
/-- A block arrives: it is descrambled, counted, and where `is` holds of it `act` takes it. A block of another type is not
this command's event. -/
def onBlock (n : Nat) (payload : DWord) (valid bad : Bool) (is : DWord → Bool) (act : DWord → State → State) (s : State) :
    State :=
  let x := lane s n
  if listening x then
    let (d, scr) := descramble x.scr payload
    if is d then act d (tally 1 n 1 (s.setLane n ({ x with scr := scr, cdr := true }.note valid bad))) else s
  else s
/-- The block after a block error is discarded: a data block leaves the frame, any other leaves it headless (R227). -/
def discardBlk (n : Nat) (data : Bool) (s : State) : State :=
  s.onLane n (fun x => if data then { x with skip := false, trains := 0 } else { x.noFrame with trains := 0 })
/-- Do `run` with a block of a locked lane in RUN, unless it is to be discarded, and `train` with one of a locked lane in
training. -/
def inRunOrTrain (n : Nat) (data : Bool) (run train : State → State) (s : State) : State :=
  let x := lane s n
  if !x.lock then s
  else if x.state == 3 then (if x.skip then discardBlk n data s else run s)
  else if x.state == 2 then train s
  else s

/-! ## Errors (R227) -/

/-- LANE_FRAME_ERR of a kind (R247). -/
def laneErr (n kind : Nat) (s : State) : State :=
  notifyOnce 0x93 (16 * n + kind) 0 1 [w32 n, w32 kind] s
/-- A frame error, without a gap notice. -/
def countFrameErr (n : Nat) (s : State) : State := laneErr n 6 (s.bump .laneFrameErr n 1)
/-- A frame error with its lane gap notice. -/
def frameErr (n : Nat) (s : State) : State := laneGap 6 false n (countFrameErr n s)
/-- A block error with its lane gap notice. -/
def blkErr (n : Nat) (s : State) : State := laneGap 5 false n (tally 1 n 2 (laneErr n 5 (s.bump .laneBlkErr n 1)))

/-! ## Sync echo (R222–R225) -/

/-- SYNC_DELAY. -/
def syncDelay (s : State) (n : Nat) : Nat := fld (laneCfg s n) 12 0
/-- The error that an echo shows (R223). -/
def echoErr (s : State) (n echo : Nat) : Int := sint 13 (echo + 8192 - syncDelay s n)
/-- Whether an echo with this SEQ names pulse `j`. -/
def namesPulse (s : State) (n j echo seq : Nat) : Bool :=
  (((j : Int) * 2 ^ 20 + syncDelay s n + echoErr s n echo) % 2 ^ 23).toNat / 2 ^ 20 == seq
/-- The index of a pulse counts modulo 2^44, as the count wraps (R267): `k` pulses after `j`. -/
def pulseAfter (j k : Nat) : Nat := (j + k) % 2 ^ 44
/-- Pulse `a` comes before pulse `b`. -/
def pulseLt (a b : Nat) : Bool := decide (1 ≤ pulseAfter b (2 ^ 44 - a % 2 ^ 44) ∧ pulseAfter b (2 ^ 44 - a % 2 ^ 44) < 2 ^ 43)
/-- The last two pulses, the later first. -/
def lastPulses (s : State) : List Nat :=
  match s.time.emitted with
  | some j => [j, pulseAfter j (2 ^ 44 - 1)]
  | none => []
/-- The pulse whose echo a header carries: one of the last two (R223); none where it is stale or accepted already. -/
def echoPulse (s : State) (n echo seq : Nat) : Option Nat :=
  match (lastPulses s).find? (fun j => namesPulse s n j echo seq) with
  | some j => if (lane s n).echoes.contains j then none else some j
  | none => none
/-- Keep an accepted echo. -/
def keepEcho (n j echo seq : Nat) (s : State) : State :=
  s.onLane n (fun x => { x with echo := BitVec.ofNat 13 echo, seq := BitVec.ofNat 3 seq, noEcho := 0,
                                echoes := (j :: x.echoes).filter (lastPulses s).contains })
/-- A signed item of a notification. -/
def intItem (i : Int) : Word := BitVec.ofInt 32 i
/-- The new correction (R224). -/
def correct (n : Nat) (err : Int) (s : State) : State :=
  let x := lane s n
  let new := max (-2048) (min 2048 (-err))
  let old := x.corr.toInt
  let s :=
    if 2048 < err.natAbs then
      if x.syncRange then s
      else laneGap 10 true n (notifyOwner 0x94 0 [w32 n, intItem err] (s.setLane n { x with syncRange := true }))
    else syncGood n s
  let s := if fld (laneCfg s n) 21 16 < (new - old).natAbs then notifyOwner 0x96 0 [w32 n, intItem old, intItem new] s else s
  s.onLane n (fun x => { x with corr := BitVec.ofInt 13 new })

/-! ## Frames (R215–R220, R227) -/

/-- R219: BASE extended against now. -/
def base64 (now : Tick) (base : Nat) : Tick :=
  let b := (now &&& ~~~(0xFFFFFFFFFF : BitVec 64)) ||| BitVec.ofNat 64 base
  let d := (b - now).toInt
  if 2 ^ 39 < d then b - 0x10000000000 else if d < -(2 ^ 39) then b + 0x10000000000 else b
/-- CORR as a difference of ticks. -/
def corrTicks (x : LaneSt) : Tick := x.corr.signExtend 64
/-- R220: at most 4,096 ticks after now, at most 2^26 before. -/
def timely (now : Tick) (t : Tick) : Bool := decide (-(2 ^ 26) ≤ (t - now).toInt ∧ (t - now).toInt ≤ 4096)
/-- Whether a header is accepted: timely, and no earlier than the last frame accepted since lock (R227). -/
def headerOk (s : State) (x : LaneSt) (b : Tick) : Bool :=
  timely s.now (b + corrTicks x) &&
    (match x.lastBase with
     | some l => !tickLt b l
     | none => true)
/-- A header in RUN. -/
def runHeader (n : Nat) (d : DWord) (s : State) : State :=
  let x := lane s n
  let b := base64 s.now (fld d 63 24)
  let echo := fld d 23 11
  let seq := fld d 10 8
  if headerOk s x b then
    let s := match echoPulse s n echo seq with
      | some j => correct n (echoErr s n echo) (keepEcho n j echo seq s)
      | none => s
    s.onLane n (fun x => { x with frame := some (b + corrTicks x), lastBase := some b, events := 0, lostFrame := false, trains := 0 })
  else frameErr n (s.onLane n (fun x => { x with frame := none, lostFrame := true, events := 0, trains := 0 }))
/-- A header in training serves the training checks alone (R225, R238). -/
def trainHeader (n : Nat) (d : DWord) (s : State) : State :=
  let x := lane s n
  let b := base64 s.now (fld d 63 24)
  if headerOk s x b then
    let s := match echoPulse s n (fld d 23 11) (fld d 10 8) with
      | some j => keepEcho n j (fld d 23 11) (fld d 10 8) s
      | none => s
    s.onLane n (fun x => { x with frame := some (b + corrTicks x), lastBase := some b, events := 0, lostFrame := false, trains := 0 })
  else s.onLane n (fun x => { x with frame := none, trains := 0 })
/-- HEADER_BLOCK (R219). -/
def headerBlk (n : Nat) (payload : DWord) (s : State) : State :=
  onBlock n payload true false (fun d => blockType d == 0x78)
    (fun d => inRunOrTrain n false (runHeader n d) (trainHeader n d)) s
def execHeaderBlock (lane : Fin 64) (payload : DWord) (s : State) : Host.Outcome State Fault Refusal :=
  .next (headerBlk lane payload s)

/-- One event word of a frame with base `fb` (R216, R217, R227–R230). -/
def eventWord (n : Nat) (fb : Tick) (w : Word) (s : State) : State :=
  let sub := fld w 31 27
  let c := 32 * n + sub
  if w = 0xFFFFFFFF then s
  else if bitOf w 24 then openGap 7 none (some 1) false c (laneErr n 7 (s.bump .laneEventErr n 1))
  else if !bitOf (s.reg .laneChEn n) sub then s.bump .laneDisabled n 1
  else
    let t := fb + BitVec.ofNat 64 (fld w 23 0)
    let kind := BitVec.ofNat 2 (fld w 26 25)
    let order := match (chan s c).lastTime with
      | some l => tickLt t l
      | none => false
    let s := if order then s.bump .laneOrder n 1 else s
    let s := tally 1 n 0 (acceptEvent c t kind order s)
    let s := s.setChan c { chan s c with lastTime := some t }
    if subTakes (s.reg .laneSub c) kind then
      chanPush c { time := t, kind := kind, order := order } (tellMissed c) s
    else s
/-- An event block enters the ingest queue of its lane (R394–R396, R399), where its records join it: a queue that is full ignores
it, as a block error; one whose pointers disagree loses it with its contents. -/
def ingest (n : Nat) (act : State → State) (s : State) : State :=
  let x := lane s n
  if !x.wq.ok then ingestFault n s
  else if x.wq.items.length < 256 then act (s.setLane n { x with wq := x.wq.push 256 [] })
  else blkErr n (s.setLane n { x with wq := { x.wq with ovr := true } })
/-- An event block of a lane in RUN (R216, R227). -/
def runEvents (n : Nat) (d : DWord) (s : State) : State :=
  let x := lane s n
  let s := s.setLane n { x with trains := 0 }
  let lose (s : State) : State := frameErr n (s.onLane n (fun x => { x with lostFrame := true }))
  match x.frame with
  | none => if x.lostFrame then s else lose s
  | some fb =>
    if x.lostFrame then s
    else if 31 ≤ x.events then lose s
    else
      ingest n (fun s => eventWord n fb (hi32 d) (eventWord n fb (lo32 d) s)) (s.onLane n (fun x => { x with events := x.events + 1 }))
/-- EVENT_BLOCK (R216). -/
def eventBlk (n : Nat) (payload : DWord) (s : State) : State :=
  onBlock n payload true false (fun _ => true)
    (fun d => inRunOrTrain n true (runEvents n d) (fun s => s.onLane n (fun x => { x with trains := 0 }))) s
def execEventBlock (lane : Fin 64) (payload : DWord) (s : State) : Host.Outcome State Fault Refusal :=
  .next (eventBlk lane payload s)

/-- A GAP block of a lane in RUN (R227). -/
def runGap (n : Nat) (d : DWord) (s : State) : State :=
  let x := lane s n
  let mask := fld d 39 8
  let start := x.frame.map (fun fb => fb + BitVec.ofNat 64 (fld d 63 40))
  let hit := (List.range 32).filter (fun i => decide (mask / 2 ^ i % 2 = 1) && bitOf (s.reg .laneChEn n) i)
  let s := s.setLane n { x with trains := 0 }
  notifyOwner 0x98 0 [w32 n, w32 mask] (forEach hit (fun i => openGap 8 start none false (32 * n + i)) s)
/-- GAP_BLOCK (R227). -/
def gapBlk (n : Nat) (payload : DWord) (s : State) : State :=
  onBlock n payload true false (fun d => blockType d == 0x33)
    (fun d => inRunOrTrain n false (runGap n d) (fun s => s.onLane n (fun x => { x with trains := 0 }))) s
def execGapBlock (lane : Fin 64) (payload : DWord) (s : State) : Host.Outcome State Fault Refusal :=
  .next (gapBlk lane payload s)

/-- TRAIN_BLOCK (R227, R238). -/
def trainBlk (n : Nat) (payload : DWord) (s : State) : State :=
  onBlock n payload true false (fun d => blockType d == 0x2D)
    (fun d => inRunOrTrain n false
      (fun s => countFrameErr n (s.onLane n (fun x => { x with trains := x.trains + 1 })))
      (fun s => s.onLane n (fun x => { x with trains := if fld d 13 8 = n then x.trains + 1 else 0 }))) s
def execTrainBlock (lane : Fin 64) (payload : DWord) (s : State) : Host.Outcome State Fault Refusal :=
  .next (trainBlk lane payload s)

/-- IDLE_BLOCK (R214, R215). -/
def idleBlk (n : Nat) (payload : DWord) (s : State) : State :=
  let quiet (s : State) : State := s.onLane n (fun x => { x with trains := 0 })
  onBlock n payload true false (fun d => blockType d == 0x1E) (fun _ => inRunOrTrain n false quiet quiet) s
def execIdleBlock (lane : Fin 64) (payload : DWord) (s : State) : Host.Outcome State Fault Refusal :=
  .next (idleBlk lane payload s)

/-- BLOCK_ERROR (R226, R227): an invalid sync header, or a control block of an unknown type; of a block that is discarded after a
block error the type is not judged. -/
def errorBlk (n : Nat) (sync : BitVec 2) (payload : DWord) (s : State) : State :=
  let valid := sync == 1 || sync == 2
  let skips := (lane s n).lock && (lane s n).state == 3 && (lane s n).skip
  onBlock n payload valid (!(valid && skips)) (fun d => !valid || (sync == 1 && !knownType d))
    (fun _ s =>
      let x := lane s n
      if valid && skips then discardBlk n false s
      else if x.lock && x.state == 3 then blkErr n (s.setLane n { x.noFrame with skip := true, trains := 0 })
      else s.setLane n { x with trains := 0 }) s
def execBlockError (lane : Fin 64) (sync : BitVec 2) (payload : DWord) (s : State) : Host.Outcome State Fault Refusal :=
  .next (errorBlk lane sync payload s)

/-! ## Lock (R226) -/

/-- BLOCK_LOCK. -/
def gainLock (n : Nat) (s : State) : State :=
  let x := lane s n
  if listening x && !x.lock && decide (64 ≤ x.good) then s.setLane n { x.noLock with lock := true } else s
def execBlockLock (lane : Fin 64) (s : State) : Host.Outcome State Fault Refusal := .next (gainLock lane s)
/-- `silent` block times pass without a block (R226): each is a block error, and no clock is recovered. -/
def LaneSt.silent (x : LaneSt) (silent : Nat) : LaneSt :=
  if silent = 0 then x
  else
    let l := x.errs ++ List.replicate silent true
    { x with cdr := false, good := 0, errs := if x.lock then l.drop (l.length - 64) else x.errs }
/-- Whether a lane's window of 64 blocks holds 16 errors, or 64 TRAIN blocks have come in RUN (R226, R227). -/
def losesLock (x : LaneSt) : Bool :=
  x.lock && (decide (16 ≤ (x.errs.filter (fun b => b)).length) || (x.state == 3 && decide (64 ≤ x.trains)))
/-- LOCK_LOST: `silent` block times passed without a block. A lane that is not in RUN loses its lock and keeps its state (DESIGN
CHOICE, notes/assumptions/84.md). -/
def lockLost (n silent : Nat) (s : State) : State :=
  let x := (lane s n).silent silent
  if !listening x then s
  else if losesLock x then
    let s := s.setLane n x.noLock
    if x.state == 3 then
      let s := laneGap 1 true n (laneGo n 4 s)
      if bitOf (laneCfg s n) 30 then laneGo n 1 s else s
    else s
  else s.setLane n x
def execLockLost (lane : Fin 64) (silent : Fin 65) (s : State) : Host.Outcome State Fault Refusal :=
  .next (lockLost lane silent s)
/-- SYNC_LOST (R224). -/
def syncGone (n : Nat) (s : State) : State :=
  let x := lane s n
  if x.state == 3 && !x.syncLost && decide (4 ≤ x.noEcho) then
    laneGap 9 true n (notifyOwner 0x95 0 [w32 n] (s.setLane n { x with syncLost := true }))
  else s
def execSyncLost (lane : Fin 64) (s : State) : Host.Outcome State Fault Refusal := .next (syncGone lane s)

/-! ## The lane gateway (R231) -/

/-- LANE_GATEWAY_SEND: the next channel in turn that has an event whose domain is not held back. -/
def laneSend (n : Nat) (s : State) : State :=
  let x := lane s n
  let port := portOf s (.lane n) 0
  let ready := (List.range 32).filter (fun i =>
    !(chan s (32 * n + i)).q.items.isEmpty && gateFree s port (spoolDom s (32 * n + i)))
  match nextInTurn ready (if x.turn = 0 then none else some (x.turn - 1)) with
  | some i =>
    if coreLive s then
      chanSend (32 * n + i) (0x1000 + n) port (s.reg .laneSub (32 * n + i)) (s.setLane n { x with turn := i + 1 })
    else s
  | none => s
def execLaneGatewaySend (lane : Fin 64) (s : State) : Host.Outcome State Fault Refusal := .next (laneSend lane s)

/-! ## Training (R238, R239) -/

/-- The lane in TRAINING, if one is. -/
def trainingLane (s : State) : Option Nat := (List.range 64).find? (fun n => (lane s n).state == 2)
/-- The part writes a register of a lane's front end (R241, R242). -/
def feWrite (n addr : Nat) (v : Word) (s : State) : State := s.onLane n (fun x => { x with feOut := x.feOut.put addr v })
/-- It writes FE_MODE: 0 OFF, 1 TRAIN, 2 RUN, 3 HOLD. -/
def feMode (n m : Nat) (s : State) : State := feWrite n 0x0C (w32 m) s
/-- Step 1's writes: FE_LANE, FE_CH_EN, FE_TX_EQ, and FE_MODE = TRAIN (R238). -/
def feSetup (n : Nat) (s : State) : State :=
  feMode n 1 (feWrite n 0x14 (s.reg .laneFeEq n) (feWrite n 0x10 (s.reg .laneChEn n) (feWrite n 0x08 (w32 n) s)))
/-- The load of the front end's counter is set up for pulse `l` (R222): FE_LOAD takes l × 2^20 + D, and FE_ARM is set. -/
def feLoad (n l : Nat) (s : State) : State :=
  let v : Tick := BitVec.ofNat 64 (l * 2 ^ 20 + syncDelay s n)
  (feWrite n 0x20 1 (feWrite n 0x1C (hi32 v) (feWrite n 0x18 (lo32 v) s))).onLane n (fun x => { x with loadPulse := some l })
/-- The ticks that the writes of FE_LOAD and FE_ARM take: three transactions of 7 bytes at 50 MHz (R240, R241;
notes/assumptions/75.md). -/
def loadTicks : Nat := 430080
/-- The pulse for which the writes of a load that is ready now are made (R222): the one after the last edge, where that edge has
left the ball, from D + 128 ticks after it, if they end 1 µs before the next; else none yet. -/
def loadPulseNow (s : State) (n : Nat) : Option Nat :=
  let past := s.now.toNat % 2 ^ 20
  let here := s.now.toNat / 2 ^ 20
  if s.time.emitted = some here ∧ max past (syncDelay s n + 128) + loadTicks + 128000 ≤ 2 ^ 20 then some (pulseAfter here 1) else none
/-- An attempt starts at step 1; the first of a training latches SPI_CTL and SPI_CS (R254). RETRAINS counts the attempts after the first training since
load (R260; notes/assumptions/73.md). -/
def startAttempt (n attempt : Nat) (s : State) : State :=
  let s := s.onLane n (fun x =>
    { x.noFrame with state := 2, step := 1, attempt := BitVec.ofNat 4 attempt, trains := 0, loadPulse := none, echoes := [],
                     spiSel := if attempt = 1 then some (BitVec.ofNat 6 (fld (laneCfg s n) 27 22)) else x.spiSel })
  if (lane s n).trained then s.bump .laneRetrains n 1 else s
/-- TRAINING_ATTEMPT_START. -/
def nextTraining (s : State) : State :=
  match trainingLane s, (List.range 64).find? (fun n => (lane s n).state == 1) with
  | none, some n => if s.pwr.state == 0 || s.pwr.state == 1 then startAttempt n 1 s else s
  | _, _ => s
def execTrainingAttemptStart (s : State) : Host.Outcome State Fault Refusal := .next (nextTraining s)
/-- The cause that a front end's identity gives at step 1 (R239); 0 where the check passes. -/
def feCause (id ver : Word) : Nat := if id = 0 ∨ id = 0xFFFFFFFF then 1 else if ver ≠ 0x00010000 then 2 else 0
/-- Whether the echo of an edge after the load has been accepted within range (R238 step 8). -/
def syncedAfterLoad (s : State) (n : Nat) : Bool :=
  let x := lane s n
  (match x.loadPulse, x.echoes with
   | some l, j :: _ => pulseLt l j
   | _, _ => false) && decide ((echoErr s n x.echo.toNat).natAbs ≤ 2048)
/-- Step 8: the lane is in RUN (R225, R238). CORR takes its first value of the training without a LANE_SYNC_JUMP, whatever it
was before (DESIGN CHOICE, notes/assumptions/84.md). -/
def enterRun (n : Nat) (s : State) : State :=
  let x := lane s n
  let corr := BitVec.ofInt 13 (-(echoErr s n x.echo.toNat))
  let x' := { x with state := 3, step := 0, trained := true, corr := corr, trains := 0, noEcho := 0 }
  let s := s.setLane n { x' with frame := if x.frame.isSome then x.lastBase.map (fun b => b + corrTicks x') else none }
  let s := laneCausesEnd n (syncGood n s)
  notifyOwner 0x90 0 [w32 n, w32 x.attempt.toNat, s.reg .laneFeId n] s
/-- TRAINING_STEP_DONE: the step in progress completes where its check passes. -/
def stepDone (feId feVer : Word) (s : State) : State :=
  match trainingLane s with
  | none => s
  | some n =>
    let x := lane s n
    let go (x : LaneSt) : State := s.setLane n { x with step := x.step + 1 }
    match x.step.toNat with
    | 1 => if feCause feId feVer = 0 then feSetup n ((go x).setReg .laneFeId n feId) else s
    | 2 => go { x with cdr := true }
    | 3 => if x.lock then go x else s
    | 4 => if x.lock && decide (16 ≤ x.trains) then go x else s
    | 5 =>
      match loadPulseNow s n with
      | some l => feLoad n l (go x)
      | none => go x
    | 6 => if x.loadPulse.any (fun l => s.time.emitted.any (fun j => !pulseLt j l)) then feMode n 2 (go { x with frame := none }) else s
    | 7 => if x.frame.isSome then go x else s
    | _ => if x.frame.isSome && syncedAfterLoad s n then enterRun n s else s
def execTrainingStepDone (feId feVersion : Word) (s : State) : Host.Outcome State Fault Refusal :=
  .next (stepDone feId feVersion s)
/-- The attempt fails at its step with a cause (R239): FE_MODE = OFF is written, and the next attempt starts, or the lane is
FAILED. With NO_SIGNAL no clock is recovered. -/
def attemptFails (n cause : Nat) (s : State) : State :=
  let x := lane s n
  let s := feMode n 0 (s.setLane n { x with failStep := x.step, cause := BitVec.ofNat 4 cause, cdr := x.cdr && cause != 3 })
  if x.attempt.toNat < fld (laneCfg s n) 29 28 + 1 then startAttempt n (x.attempt.toNat + 1) s
  else
    notifyOwner 0x92 0 [w32 n, w32 x.step.toNat, w32 cause]
      (s.onLane n (fun x => { x.noFrame with state := 5, step := 0, trained := true }))
/-- TRAINING_STEP_LATE: the step's Latest time passes, or its check fails with what was read. -/
def stepLate (check : Option (Word × Word)) (s : State) : State :=
  match trainingLane s with
  | none => s
  | some n =>
    let step := (lane s n).step.toNat
    match check with
    | some (id, ver) =>
      if step = 1 then (if feCause id ver = 0 then s else attemptFails n (feCause id ver) (s.setReg .laneFeId n id))
      else attemptFails n (step + 1) s
    | none => attemptFails n (if step = 1 then 0xA else step + 1) s
def execTrainingStepLate (check : Option (Word × Word)) (s : State) : Host.Outcome State Fault Refusal :=
  .next (stepLate check s)

/-- EYE_SAMPLE (R244): in RUN; outside it the sample is ignored and the counts of four in a row stand (DESIGN CHOICE,
notes/assumptions/84.md). -/
def eyeSample (n : Nat) (h w : Byte) (s : State) : State :=
  let x := lane s n
  if x.state == 3 then
    let r := s.reg .laneEye n
    let s := s.setReg .laneEye n (putFld (putFld r 31 24 h.toNat) 23 16 w.toNat)
    let lowH := decide (h.toNat < fld r 15 8)
    let lowW := decide (w.toNat < fld r 7 0)
    let bh := if lowH then min 4 (x.eyeBadH + 1) else 0
    let bw := if lowW then min 4 (x.eyeBadW + 1) else 0
    let g := if lowH || lowW then 0 else min 4 (x.eyeGood + 1)
    let low := if bh = 4 ∨ bw = 4 then true else if g = 4 then false else x.eyeLow
    let s := s.setLane n { x with eyeBadH := bh, eyeBadW := bw, eyeGood := g, eyeLow := low }
    if low && !x.eyeLow then notifyOwner 0x97 0 [w32 n, w32 h.toNat, w32 w.toNat] s else s
  else s
def execEyeSample (lane : Fin 64) (height width : Byte) (s : State) : Host.Outcome State Fault Refusal :=
  .next (eyeSample lane height width s)

/-! ## Commands (R245, R246, R251) -/

/-- Whether enabling would meet an enabled sub-channel whose spool has no size (R251, R293). -/
def sizesOk (s : State) (n : Nat) (en : Word) : Bool :=
  (List.range 32).all (fun i => !bitOf en i || decide ((spoolOf s (32 * n + i)).size ≠ 0))
/-- The status ENABLE would return beside authority and a running command. -/
def enableStatus (s : State) (n : Nat) : Status :=
  let st := (lane s n).state
  firstBad [within (sizesOk s n (s.reg .laneChEn n)), busyIf !(st == 0 || st == 4 || st == 5)]
/-- ENABLE. -/
def enableLane (n : Nat) (s : State) : State :=
  laneGo n 1 (s.setReg .laneCfg n (putBit (laneCfg s n) 31 true))
/-- DISABLE: FE_MODE = OFF, EN 0, OFF, an attempt abandoned; notices still open are written (R235). -/
def disableLane (n : Nat) (s : State) : State :=
  let s := s.setReg .laneCfg n (putBit (laneCfg s n) 31 false)
  let s := feMode n 0 (s.onLane n (fun x => { x.noLock with state := 0, step := 0, cdr := false, spiSel := none }))
  forEach (laneSpools n) (flushGap s.now) s
/-- RETRAIN of a lane that is not OFF. -/
def retrainLane (n : Nat) (s : State) : State :=
  laneGo n 1 (laneGap 2 true n (s.onLane n (fun x => x.noFrame)))
/-- An attempt that a reset abandons is not counted (R246). -/
def uncountAttempt (n : Nat) (s : State) : State :=
  let x := lane s n
  if x.state == 2 then
    let s := if x.trained then s.setReg .laneRetrains n (s.reg .laneRetrains n - 1) else s
    s.setLane n { x with attempt := x.attempt - 1 }
  else s
/-- The packets that a lane's gateway has formed and the network has not taken are missed (R146, R392). -/
def dropGate (n : Nat) (s : State) : State :=
  forEach (List.range 4) (fun d s =>
    let k := laneKey (portOf s (.lane n) 0) false d
    missPackets (plane s k).out (s.setPlane k { plane s k with out := [] })) s
/-- ISLAND_RESET: the island's state, correction and channel queues are cleared; its crossings are absent, that of its writer once
it has written what it holds (R245, R393). -/
def resetLane (n : Nat) (s : State) : State :=
  let s := dropGate n (forEach (laneSpools n) chanDrop (uncountAttempt n s))
  let s := laneGo n 7 (laneGap 3 true n (syncGood n s))
  let s := s.onLane n (fun x =>
    { LaneSt.init with cause := x.cause, failStep := x.failStep, trained := x.trained, attempt := x.attempt, spiSel := x.spiSel,
                       state := 7, feOut := x.feOut, wq := x.wq, wbuf := x.wbuf, cur := x.cur, slot := x.slot })
  let s := forEach (laneXings n) peerReset s
  if writerEmpty (lane s n) then peerReset (writerXing n) s else s
/-- LANE_CMD_STAT after a command. -/
def laneStatWord (running : Bool) (op : Nat) (st : Status) : Word := w32 (place 31 1 (b2n running) + place 4 4 op + st.toNat)
/-- A lane command (R251): the first status that applies, else its effect; `runs` says that it goes on acting. A tenant's
changes nothing (R248). -/
def laneCommand (p op : Nat) (st : Status) (runs : Bool) (act : State → State) (s : State) : State :=
  if p ≠ 0 then s.stat stDenied
  else if runningCmd s p .laneCmdStat then s.stat (if st = stDenied then stDenied else stBusy)
  else
    if st = stOk then ((act s).setRegP p .laneCmdStat 0 0 (laneStatWord runs op stOk)).stat stOk
    else (s.setRegP p .laneCmdStat 0 0 (laneStatWord false op st)).stat st
/-- A front-end transaction of a command is in progress (R252), with its address and the data it writes. -/
def startFe (p n op : Nat) (s : State) : State :=
  { s with fe := s.fe.put p { lane := n, op := BitVec.ofNat 4 op, addr := fld (s.regP p .laneCmdArg 0 0) 15 0,
                              data := s.regP p .laneCmdData 0 0 } }
def cmdEnable (p n : Nat) (s : State) : State := laneCommand p 1 (enableStatus s n) false (enableLane n) s
def execLaneEnable (port : Fin 4) (lane : Fin 64) (s : State) : Host.Outcome State Fault Refusal := .next (served (cmdEnable port lane) s)
def cmdDisable (p n : Nat) (s : State) : State := laneCommand p 2 stOk true (fun s => startFe p n 2 (disableLane n s)) s
def execLaneDisable (port : Fin 4) (lane : Fin 64) (s : State) : Host.Outcome State Fault Refusal := .next (served (cmdDisable port lane) s)
/-- RETRAIN acts as ENABLE on an OFF lane. -/
def cmdRetrain (p n : Nat) (s : State) : State :=
  let st := (lane s n).state
  if st == 0 then laneCommand p 3 (enableStatus s n) false (enableLane n) s
  else laneCommand p 3 (busyIf (st == 1 || st == 2 || st == 7)) false (retrainLane n) s
def execLaneRetrain (port : Fin 4) (lane : Fin 64) (s : State) : Host.Outcome State Fault Refusal := .next (served (cmdRetrain port lane) s)
def cmdIslandReset (p n : Nat) (s : State) : State := laneCommand p 4 stOk false (resetLane n) s
def execLaneIslandReset (port : Fin 4) (lane : Fin 64) (s : State) : Host.Outcome State Fault Refusal :=
  .next (served (cmdIslandReset port lane) s)
/-- LANE_RESET_END (R245). -/
def laneResetEnd (n : Nat) (s : State) : State :=
  if (lane s n).state == 7 then laneGo n (if bitOf (laneCfg s n) 31 then 1 else 0) s else s
def execLaneResetEnd (lane : Fin 64) (s : State) : Host.Outcome State Fault Refusal := .next (laneResetEnd lane s)
/-- Whether the sequencer holds the lane's front end (R246). -/
def feBusy (s : State) (n : Nat) : Bool := (lane s n).state == 1 || (lane s n).state == 2
def cmdFeRead (p n : Nat) (s : State) : State := laneCommand p 5 (busyIf (feBusy s n)) true (startFe p n 5) s
def execFeRead (port : Fin 4) (lane : Fin 64) (s : State) : Host.Outcome State Fault Refusal := .next (served (cmdFeRead port lane) s)
def cmdFeWrite (p n : Nat) (s : State) : State :=
  laneCommand p 6 (firstBad [allow (decide (0x100 ≤ fld (s.regP p .laneCmdArg 0 0) 15 0)), busyIf (feBusy s n)]) true
    (startFe p n 6) s
def execFeWrite (port : Fin 4) (lane : Fin 64) (s : State) : Host.Outcome State Fault Refusal := .next (served (cmdFeWrite port lane) s)
/-- LANE_CMD_COMPLETE (R252). -/
def laneCmdEnd (p : Nat) (data : Word) (s : State) : State :=
  match s.fe.find p with
  | none => s
  | some x =>
    let s := { s with fe := s.fe.erase p }
    let s := if x.op == 5 then s.setRegP p .laneCmdData 0 0 data else if x.op == 6 then feWrite x.lane x.addr x.data s else s
    s.setRegP p .laneCmdStat 0 0 (laneStatWord false x.op.toNat stOk)
def execLaneCmdComplete (port : Fin 4) (data : Word) (s : State) : Host.Outcome State Fault Refusal :=
  .next (laneCmdEnd port data s)

/-! ## Lane registers -/

/-- What an owner's LANE_CFG write answers: EN from 0 to 1 is checked as an ENABLE (R251, R254). -/
def laneCfgStatus (s : State) (n : Nat) (v : Word) : Status :=
  if !bitOf (laneCfg s n) 31 && bitOf v 31 then
    firstBad [busyIf (runningCmd s 0 .laneCmdStat), enableStatus (s.putFields 0 .laneCfg n 0 (putBit v 31 false)) n]
  else stOk
/-- LANE_CFG takes its fields; EN enables or disables the lane (R254). -/
def putLaneCfg (n : Nat) (v : Word) (s : State) : State :=
  let was := bitOf (laneCfg s n) 31
  let s := s.putFields 0 .laneCfg n 0 (putBit v 31 was)
  match was, bitOf v 31 with
  | true, false => disableLane n s
  | false, true => enableLane n s
  | _, _ => s
/-- LANE_CFG_WRITE (R254). -/
def laneCfgWrite (p n : Nat) (v : Word) (s : State) : State :=
  ownerOnly p (fun s =>
    if laneCfgStatus s n v = stOk then (putLaneCfg n v s).stat stOk
    else (s.putFields 0 .laneCfg n 0 (putBit v 31 (bitOf (laneCfg s n) 31))).stat (laneCfgStatus s n v)) s
def execLaneCfgWrite (port : Fin 4) (lane : Fin 64) (val : Word) (s : State) : Host.Outcome State Fault Refusal :=
  .next (served (laneCfgWrite port lane val) s)
/-- The channels that a LANE_CH_EN value enables have space in their spools (R258, R293). -/
def chEnOk (s : State) (n : Nat) (v : Word) : Bool := !bitOf (laneCfg s n) 31 || sizesOk s n v
/-- LANE_CH_EN takes its value; a lane in RUN passes it to FE_CH_EN (R258). -/
def putChEn (n : Nat) (v : Word) (s : State) : State :=
  let s := s.setReg .laneChEn n v
  if (lane s n).state == 3 then feWrite n 0x10 v s else s
/-- LANE_CH_EN_WRITE (R258). -/
def laneChEnWrite (p n : Nat) (v : Word) (s : State) : State :=
  ownerOnly p (fun s =>
    checked [within (chEnOk s n v)] (putChEn n v) s) s
def execLaneChEnWrite (port : Fin 4) (lane : Fin 64) (val : Word) (s : State) : Host.Outcome State Fault Refusal :=
  .next (served (laneChEnWrite port lane val) s)
/-- The domain of a channel's spool may address the subscription's DEST (R248, R291). -/
def subDestOk (s : State) (c : Nat) (v : Word) : Bool :=
  !bitOf v 31 || spoolDom s c == 0 || tileDom s (fld v 11 0) == spoolDom s c
/-- The checks of a subscription of spool `c` (R248, R261, R291): DENIED before RANGE (notes/assumptions/7.md); a DEST that is no
tile is out of range. -/
def subStatus (s : State) (p c : Nat) (v : Word) : Status :=
  firstBad [allow (mayReach s p c), allow (decide (3968 ≤ fld v 11 0) || subDestOk s c v),
    within (decide (fld v 25 21 ≠ 31 ∧ fld v 11 0 < 3968))]
/-- LANE_SUB_WRITE (R261). -/
def laneSubWrite (p c : Nat) (v : Word) (s : State) : State :=
  checked [subStatus s p c v] (putSub .laneSub c c v) s
def execLaneSubWrite (port : Fin 4) (ch : Fin 2048) (val : Word) (s : State) : Host.Outcome State Fault Refusal :=
  .next (served (laneSubWrite port ch val) s)
/-- CLR_PEAK (R263). -/
def clrPeak (p c : Nat) (s : State) : State :=
  checked [allow (mayReach s p c)] (fun s => s.setChan c { chan s c with peak := (chan s c).q.items.length }) s
def execClrPeak (port : Fin 4) (ch : Fin 2048) (s : State) : Host.Outcome State Fault Refusal := .next (served (clrPeak port ch) s)

/-! ## Lanes and power (R238, R246) -/

/-- Every enabled lane is queued at I/O release (R238). -/
def queueLanes (s : State) : State :=
  forEach (List.range 64) (fun n s => if bitOf (laneCfg s n) 31 && (lane s n).state == 0 then laneGo n 1 s else s) s
/-- Doze or Park (R246): lanes in RUN write FE_MODE = HOLD and are paused, an attempt is abandoned. -/
def pauseLanes (s : State) : State :=
  forEach (List.range 64) (fun n s =>
    let x := lane s n
    if x.state == 3 then laneGo n 6 (laneGap 4 true n (feMode n 3 (s.setLane n { x.noLock with cdr := false })))
    else if x.state == 2 then s.setLane n { x.noFrame with state := 1, step := 0 }
    else s) s
/-- Wake: paused lanes are queued. -/
def wakeLanes (s : State) : State :=
  forEach (List.range 64) (fun n s => if (lane s n).state == 6 then laneGo n 1 s else s) s

end Sys2Proof.Machine
end

