-- ==== Sys2Proof/Machine/SpoolCmd.lean ====
section
/-! DEFINITION. SpoolCmd: the mark table (R317–R321), the spool commands (R322–R326), reader slots A and B (R306–R311),
marks (R312–R314), the start and the end of exports (R315, R316), resize (R327, R328). -/
namespace Sys2Proof.Machine

/-! ## The mark table -/

/-- The first address of a set. -/
def mtAddr (i : Nat) : Nat := 0x1F000000 + 64 * i
/-- The set of a landmark (R318). -/
def mtHash (spool cls : Nat) (key : Word) : Nat :=
  let x := key ^^^ (w32 spool <<< 20) ^^^ (w32 cls <<< 16)
  let x := (x ^^^ (x >>> 16)) * 0x045D9F3B
  let x := (x ^^^ (x >>> 16)) * 0x045D9F3B
  (x ^^^ (x >>> 16)).toNat % 131072
/-- An entry of the table (R317). -/
structure MtEnt where
  valid : Bool
  cls : Nat
  spool : Nat
  key : Word
  off40 : Nat
  tag : Nat
  deriving DecidableEq, Repr
/-- The entry that four words spell. -/
def mtEnt (w0 w1 w2 w3 : Word) : MtEnt :=
  { valid := bitOf w0 31, cls := fld w0 23 20, spool := fld w0 11 0, key := w1, off40 := w2.toNat + fld w3 31 24 * 2 ^ 32,
    tag := fld w3 23 0 }
/-- The words of an entry. -/
def mtWords (e : MtEnt) : List Word :=
  [w32 (place 31 1 (b2n e.valid) + place 20 4 e.cls + place 0 12 e.spool), e.key, w32 e.off40,
   w32 (place 24 8 (e.off40 / 2 ^ 32) + place 0 24 e.tag)]
/-- The four ways of a set, from its sixteen words. -/
def mtWays : List Word → List MtEnt
  | a :: b :: c :: d :: t => mtEnt a b c d :: mtWays t
  | _ => []
/-- Read a set on master 79 for a domain's command (R317, R352): none where a word cannot be corrected. -/
def mtRead (dom i : Nat) (s : State) : Option (List MtEnt) × State :=
  match readReels (1 + dom) 79 dom (mtAddr i / 8) 8 s with
  | (some l, s) => (some (mtWays (wordsOfDwords l)), s)
  | (none, s) => (none, s)
/-- Write a way of a set. -/
def mtWrite (dom i j : Nat) (e : MtEnt) (s : State) : State := writeWordsAs (1 + dom) 79 (mtAddr i + 16 * j) (mtWords e) s
/-- The full offset of an entry, recovered against its spool's W (R318). -/
def mtOff (s : State) (e : MtEnt) : Nat :=
  let w := (spoolOf s e.spool).w
  let off := w / 2 ^ 40 * 2 ^ 40 + e.off40
  if w < off then off - 2 ^ 40 else off
/-- Whether an entry is lapped (R296). -/
def mtLapped (s : State) (e : MtEnt) : Bool := decide (mtOff s e < vOf (spoolOf s e.spool))
/-- Whether an entry is that of a landmark. -/
def mtMatch (sp cls : Nat) (key : Word) (e : MtEnt) : Bool := e.valid && e.spool == sp && e.cls == cls && e.key == key
/-- The way of a set with the greatest W − offset, the lowest where equal (R319). -/
def mtOldest (s : State) (l : List MtEnt) : Nat :=
  (leastBy (fun j => match l[j]? with
    | some e => 2 ^ 64 - ((spoolOf s e.spool).w - mtOff s e)
    | none => 2 ^ 64) (List.range 4)).getD 0
/-- Where a landmark goes in its set (R319): the way, and whether it replaces or evicts. -/
def mtPlace (s : State) (sp cls : Nat) (key : Word) (l : List MtEnt) : Nat × Bool × Bool :=
  match l.findIdx? (mtMatch sp cls key) with
  | some j => (j, true, false)
  | none =>
    match l.findIdx? (fun e => !e.valid || mtLapped s e) with
    | some j => (j, false, false)
    | none => (mtOldest s l, false, true)
/-- Clear VALID of a way. -/
def mtClear (dom i j : Nat) (e : MtEnt) (s : State) : State := mtWrite dom i j { e with valid := false } s
/-- MT_SWEEP (R320): the next set is examined, and its lapped entries are cleared; in the class of domain 0
(notes/assumptions/74.md). -/
def mtSweep (s : State) : State :=
  if !memLive s then s
  else
    let i := s.spl.sweep
    let s := { s with spl := { s.spl with sweep := (i + 1) % 131072 } }
    match mtRead 0 i s with
    | (some l, s) =>
      forEach (List.range 4) (fun j s =>
        match l[j]? with
        | some e => if e.valid && mtLapped s e then (mtClear 0 i j e s).bump .splMtSwept 0 1 else s
        | none => s) s
    | (none, s) => s
def execMtSweep (s : State) : Host.Outcome State Fault Refusal := .next (mtSweep s)

/-! ## Commands waiting (R322, R325, R326) -/

/-- CMD of a command. -/
def cmdOf (c : SplCmd) : Nat := fld (c.words.headD 0) 31 24
/-- SPOOL. -/
def cmdSpool (c : SplCmd) : Nat := fld (c.words.headD 0) 11 0
/-- INDEX. -/
def cmdIndex (c : SplCmd) : Nat := fld (c.words.headD 0) 14 12
/-- WHERE. -/
def cmdWhere (c : SplCmd) : Nat := fld (c.words.headD 0) 19 16
/-- CLASS. -/
def cmdClass (c : SplCmd) : Nat := fld (c.words.headD 0) 23 20
/-- Command word `i`. -/
def cmdWord (c : SplCmd) (i : Nat) : Word := c.words.getD i 0
/-- The words a command uses; none where R323 does not list it. -/
def cmdUses (code : Nat) : Option Nat :=
  match code with
  | 0x02 | 0x03 | 0x05 | 0x06 | 0x07 | 0x21 => some 1
  | 0x11 | 0x12 | 0x30 => some 2
  | 0x04 => some 3
  | 0x10 => some 5
  | 0x01 | 0x20 => some 6
  | _ => none
/-- The checks of R322, before those of R323: none where the command passes. -/
def cmdForm (c : SplCmd) : Option Status :=
  if c.words.isEmpty ∨ 6 < c.words.length then some stRange
  else
    match cmdUses (cmdOf c) with
    | none => some stUnsupported
    | some n =>
      if c.pkt.isSome && decide (0x20 ≤ cmdOf c) then some stUnsupported
      else if c.words.length < n then some stRange
      else none
/-- Whether two commands are executed in the order of their arrival (R326): of one spool, or both of the mark table. -/
def sameOrder (a b : SplCmd) : Bool :=
  let mt (c : SplCmd) : Bool := decide (0x10 ≤ cmdOf c ∧ cmdOf c ≤ 0x12)
  cmdSpool a == cmdSpool b || (mt a && mt b)
/-- The commands that no earlier one keeps back; `before` are those in front of the list. -/
def splFree : List SplCmd → List SplArr → List SplArr
  | _, [] => []
  | before, e :: t =>
    if before.any (sameOrder e.cmd) then splFree (before ++ [e.cmd]) t else e :: splFree (before ++ [e.cmd]) t
/-- The commands of a source that may be executed. -/
def splOf (s : State) (src : SplSrc) : List SplArr :=
  (splFree [] s.spl.queue).filter (fun e => e.src == match src with
    | .host p => 4 + p.val
    | .attach k => k.val)
/-- The command that a source would have executed next, and the turns of its attachment then: the domains in weighted rounds
(R145), each one's in order. -/
def splNext (s : State) (src : SplSrc) : Option (SplArr × (Nat → Nat)) :=
  let l := splOf s src
  match src with
  | .host _ => l.head?.map (fun e => (e, fun _ => 0))
  | .attach k =>
    match roundPick s (fun d => s.ply.epRound.get 0 (4 * (2 * portOf s .spool k.val) + d)) (fun d => l.any (fun e => e.cmd.dom.val == d)) with
    | some (d, turns) => (l.find? (fun e => e.cmd.dom.val == d)).map (fun e => (e, turns))
    | none => none
/-- That command. -/
def splWaiting (s : State) (src : SplSrc) : Option SplCmd := (splNext s src).map (fun e => e.1.cmd)
/-- It leaves its place. -/
def splTake (src : SplSrc) (s : State) : State :=
  match splNext s src with
  | none => s
  | some (e, turns) =>
    let s := { s with spl := { s.spl with queue := s.spl.queue.erase e } }
    match src with
    | .host _ => s
    | .attach k => { s with ply := { s.ply with epRound := putTurns s.ply.epRound (2 * portOf s .spool k.val) turns } }
/-- SPL_CMD.GO (R325, R334): the words of the port's SPL_CMD_ARG become its command, with the domain of the port. -/
def splGo (p : Fin 4) (s : State) : State :=
  if runningCmd s p .splCmdStat then s.stat stBusy
  else
    let c : SplCmd := { dom := p, words := (List.range 6).map (fun i => s.regP p .splCmdArg i 0), pkt := none }
    let s := s.setRegP p .splCmdStat 0 0 (w32 (place 31 1 1 + place 30 1 1 + place 4 8 (cmdOf c)))
    (wakeIsl 3 0 { s with spl := { s.spl with queue := arrive { src := 4 + p.val, time := s.now, cmd := c } s.spl.queue } }).stat stOk
/-- A command completes; one with LAPPED is counted (R313, R339). -/
def splEnd (c : SplCmd) (st : Status) (ws : List Word) (s : State) : State :=
  splAnswer c st ws (if st = stLapped then s.bump .splLappedReq (cmdSpool c) 1 else s)

/-! ## Checks (R323) -/

/-- The destination tile of a SLOT_START. -/
def cmdTile (c : SplCmd) : Nat := fld (cmdWord c 3) 11 0
/-- The port slot of a SLOT_START. -/
def cmdSlot (c : SplCmd) : Nat := fld (cmdWord c 3) 20 16
/-- Whether a command names a position. -/
def cmdSeeks (code : Nat) : Bool := code == 0x01 || code == 0x04 || code == 0x10 || code == 0x20
/-- Whether a spool is being resized. -/
def resizing (s : State) (n : Nat) : Bool := (spoolOf s n).resizing.isSome
/-- The exports of a port that have not ended (R470). -/
def portExports (s : State) (p : Fin 4) : Nat :=
  (s.spl.spools.filter (fun e => match e.2.exp with
    | some x => x.port == p
    | none => false)).length
/-- Check 1: what the command names exists. -/
def splRange (s : State) (c : SplCmd) : Bool :=
  let code := cmdOf c
  decide (cmdSpool c < 2112) && (code == 0x30 || decide ((spoolOf s (cmdSpool c)).size ≠ 0)) &&
    (!(code == 0x01 || code == 0x02 || code == 0x03) || decide (cmdIndex c < 4))
/-- Check 2: the requester may. -/
def splMay (s : State) (c : SplCmd) : Bool :=
  let d := spoolDom s (cmdSpool c)
  (c.dom == 0 || c.dom == d) &&
    (cmdOf c != 0x01 || decide (3968 ≤ cmdTile c) || tileDom s (cmdTile c) == d) && (cmdOf c != 0x30 || c.dom == 0)
/-- Check 3: what the command asks for is built. -/
def splBuilt (s : State) (c : SplCmd) : Bool :=
  let code := cmdOf c
  (!cmdSeeks code || decide (cmdWhere c < 6)) && (code != 0x10 || cmdWhere c != 5) &&
    (!(code == 0x01 || code == 0x02) || decide (cmdIndex c < 2)) &&
    (code != 0x20 || !bitOf (cmdWord c 3) 29 || decide (1 ≤ secState s))
/-- Checks 4 and 5: the destination of a SLOT_START; every tile of a frozen region is in use (R520). -/
def splDest (s : State) (c : SplCmd) : Status :=
  if cmdOf c != 0x01 then stOk
  else if 3968 ≤ cmdTile c ∨ (!mapped s (cmdTile c) ∧ !tileFrozen s (cmdTile c)) ∨ cmdSlot c = 31 then stRange
  else if tileFrozen s (cmdTile c) then stTorn
  else stOk
/-- Check 6. -/
def splBusy (s : State) (c : SplCmd) : Bool :=
  let n := cmdSpool c
  match cmdOf c with
  | 0x01 => inRun (slotOf s n (cmdIndex c)) || resizing s n
  | 0x20 => (spoolOf s n).exp.isSome || resizing s n || decide (64 ≤ portExports s c.dom)
  | 0x30 => resizing s n
  | _ => false
/-- Checks 1 to 6 of R323 in their order. -/
def splCheck (s : State) (c : SplCmd) : Status :=
  firstBad [within (splRange s c), allow (splMay s c), if splBuilt s c then stOk else stUnsupported, splDest s c,
    busyIf (splBusy s c)]

/-- Execute the command that waits at a source if its code is `code`; one that fails R322 is answered by whichever row
names its source. While a spool is being resized a command that cannot answer BUSY waits (R326), and while a group that holds
the spool wakes (R364). -/
def splRun (code : Nat) (src : SplSrc) (act : SplCmd → State → State) (s : State) : State :=
  if !memLive s || s.xng.stopped.contains 192 then s
  else
    match splWaiting s src with
    | none => s
    | some c =>
      match cmdForm c with
      | some st => splEnd c st [] (splTake src s)
      | none =>
        if cmdOf c ≠ code then s
        else if resizing s (cmdSpool c) && !(code == 0x01 || code == 0x20 || code == 0x30) then s
        else if splCheck s c ≠ stOk then splEnd c (splCheck s c) [] (splTake src s)
        else whenAwake (cmdSpool c) (fun s => act c (splTake src s)) s

/-- The position a command names (R304), once what it is resolved by has been read: with FAULT where a word of it cannot be
corrected (R348; DESIGN CHOICE, notes/assumptions/83.md). ENTRY goes by the mark table. -/
def cmdPos (c : SplCmd) (s : State) : Except Status Pos × State :=
  let n := cmdSpool c
  if cmdWhere c = 5 then
    let i := mtHash n (cmdClass c) (cmdWord c 1)
    match mtRead c.dom i s with
    | (none, s) => (.error stFault, s)
    | (some l, s) =>
      match l.find? (mtMatch n (cmdClass c) (cmdWord c 1)) with
      | none => (.error stRange, s)
      | some e =>
        if mtLapped s e then (.error stLapped, s)
        else
          let (good, u) := readSpool n c.dom.val [(pageOf (mtOff s e), mtOff s e)] s
          (if good then .ok { off := mtOff s e, base := runAt s n (mtOff s e) } else .error stFault, u)
  else
    let (good, u) := readSpool n c.dom.val (posReads s n (cmdWhere c) (cmdWord c 1) (cmdWord c 2)) s
    (if good then resolve s n (cmdWhere c) (cmdWord c 1) (cmdWord c 2) else .error stFault, u)
/-- Resolve the position, then act; a position that fails ends the command (R323 check 7). -/
def withPos (c : SplCmd) (act : Pos → State → State) (s : State) : State :=
  match cmdPos c s with
  | (.ok p, s) => act p s
  | (.error st, s) => splEnd c st [] s

/-! ## Marks (R312–R314) -/

/-- Change the marks of a spool. -/
def State.onMarks (s : State) (n : Nat) (f : NMap (Nat × Tick) → NMap (Nat × Tick)) : State :=
  s.setSpool n { spoolOf s n with marks := f (spoolOf s n).marks }
/-- MARK_SET. -/
def markSet (c : SplCmd) (s : State) : State :=
  withPos c (fun p s => splEnd c stOk (pair p.off) (s.onMarks (cmdSpool c) (fun m => m.put (cmdIndex c) (p.off, p.base)))) s
def execMarkSet (src : SplSrc) (s : State) : Host.Outcome State Fault Refusal := .next (splRun 0x04 src markSet s)
/-- MARK_CLEAR. -/
def markClear (c : SplCmd) (s : State) : State := splEnd c stOk [] (s.onMarks (cmdSpool c) (fun m => m.erase (cmdIndex c)))
def execMarkClear (src : SplSrc) (s : State) : Host.Outcome State Fault Refusal := .next (splRun 0x05 src markClear s)
/-- MARK_QUERY. -/
def markQuery (c : SplCmd) (s : State) : State :=
  let x := spoolOf s (cmdSpool c)
  match x.marks.find (cmdIndex c) with
  | some (o, t) =>
    splEnd c stOk ([w32 (place 31 1 1 + place 30 1 (b2n (decide (o < vOf x))))] ++ pair o ++ tickPair t) s
  | none => splEnd c stOk [0, 0, 0, 0, 0] s
def execMarkQuery (src : SplSrc) (s : State) : Host.Outcome State Fault Refusal := .next (splRun 0x06 src markQuery s)
/-- SPOOL_QUERY. -/
def spoolQuery (c : SplCmd) (s : State) : State :=
  let x := spoolOf s (cmdSpool c)
  splEnd c stOk ([w32 x.size] ++ pair x.w ++ pair (vOf x)) s
def execSpoolQuery (src : SplSrc) (s : State) : Host.Outcome State Fault Refusal := .next (splRun 0x07 src spoolQuery s)

/-! ## Mark-table commands (R319, R320) -/

/-- MT_INSERT (R319). SPL_MT_EVICT names the spool and the CLASS of the landmark that is inserted, and tells the domain of that spool
(DESIGN CHOICE, notes/assumptions/86.md). -/
def mtInsert (c : SplCmd) (s : State) : State :=
  withPos c (fun p s =>
    let n := cmdSpool c
    let i := mtHash n (cmdClass c) (cmdWord c 3)
    match mtRead c.dom i s with
    | (none, s) => splEnd c stFault [] s
    | (some l, s) =>
      let (j, rep, ev) := mtPlace s n (cmdClass c) (cmdWord c 3) l
      let s := mtWrite c.dom i j
        { valid := true, cls := cmdClass c, spool := n, key := cmdWord c 3, off40 := p.off % 2 ^ 40,
          tag := fld (cmdWord c 4) 23 0 } (s.bump .splMtInserts 0 1)
      let s := if ev then notifyOnce 0x83 n (spoolDom s n).val 1 [w32 n, w32 (cmdClass c)]
          (s.bump .splMtEvicts 0 1) else s
      splEnd c stOk [w32 (place 1 1 (b2n ev) + b2n rep)] s) s
def execMtInsert (src : SplSrc) (s : State) : Host.Outcome State Fault Refusal := .next (splRun 0x10 src mtInsert s)
/-- The way of a landmark in its set. -/
def mtFind (c : SplCmd) (l : List MtEnt) : Option (Nat × MtEnt) :=
  let is := mtMatch (cmdSpool c) (cmdClass c) (cmdWord c 1)
  match l.findIdx? is, l.find? is with
  | some j, some e => some (j, e)
  | _, _ => none
/-- MT_LOOKUP (R320). -/
def mtLookup (c : SplCmd) (s : State) : State :=
  let i := mtHash (cmdSpool c) (cmdClass c) (cmdWord c 1)
  match mtRead c.dom i (s.bump .splMtLookups 0 1) with
  | (none, s) => splEnd c stFault [] s
  | (some l, s) =>
    match mtFind c l with
    | none => splEnd c stOk [0, 0, 0] (s.bump .splMtMisses 0 1)
    | some (j, e) =>
      if mtLapped s e then splEnd c stLapped [] (mtClear c.dom i j e s)
      else splEnd c stOk ([w32 (place 31 1 1 + place 0 24 e.tag)] ++ pair (mtOff s e)) s
def execMtLookup (src : SplSrc) (s : State) : Host.Outcome State Fault Refusal := .next (splRun 0x11 src mtLookup s)
/-- MT_DELETE (R320). -/
def mtDelete (c : SplCmd) (s : State) : State :=
  let i := mtHash (cmdSpool c) (cmdClass c) (cmdWord c 1)
  match mtRead c.dom i s with
  | (none, s) => splEnd c stFault [] s
  | (some l, s) =>
    match mtFind c l with
    | none => splEnd c stOk [0] s
    | some (j, e) => splEnd c stOk [1] (mtClear c.dom i j e s)
def execMtDelete (src : SplSrc) (s : State) : Host.Outcome State Fault Refusal := .next (splRun 0x12 src mtDelete s)

/-! ## Slots A and B (R307–R311) -/

/-- A run of slot A or B ends other than by SLOT_STOP (R331). -/
def endRun (n i : Nat) (state : BitVec 4) (st : Status) (s : State) : State :=
  notify 0x81 (spoolDom s n).val [w32 n, w32 i, w32 st.toNat] (s.setSlot n i { slotOf s n i with state := state, last := st })
/-- RUNNING, or FOLLOWING where a FOLLOW run stands at W (R340). -/
def runState (s : State) (n : Nat) (follow : Bool) (o : Nat) : BitVec 4 := if follow && o == (spoolOf s n).w then 3 else 2
/-- SLOT_START (R307, R308). -/
def slotStart (c : SplCmd) (s : State) : State :=
  withPos c (fun p s =>
    let n := cmdSpool c
    let i := cmdIndex c
    let v := cmdWord c 3
    let x := slotOf s n i
    splEnd c stOk (pair p.off) (s.setSlot n i { x with
      state := runState s n (bitOf v 31) p.off, pos := p.off, run := p.base, follow := bitOf v 31, endTime := bitOf v 30,
      stop := (join32 (cmdWord c 4) (cmdWord c 5)).toNat, pace := fld v 29 24, slot := BitVec.ofNat 5 (cmdSlot c),
      tile := BitVec.ofNat 12 (cmdTile c), syn := if p.off % 4096 = 0 then 0 else 1, ready := s.now, seg := p.off / 65536,
      runs := x.runs + 1 })) s
def execSlotStart (src : SplSrc) (s : State) : Host.Outcome State Fault Refusal := .next (splRun 0x01 src slotStart s)
/-- SLOT_STOP (R311): the response waits for the LAST packet of a run; an idle slot answers at once. -/
def slotStop (c : SplCmd) (s : State) : State :=
  let x := slotOf s (cmdSpool c) (cmdIndex c)
  if inRun x then s.setSlot (cmdSpool c) (cmdIndex c) { x with stops := x.stops ++ [{ run := x.runs, pos := x.pos, cmd := c }] }
  else splEnd c stOk (pair x.pos) s
def execSlotStop (src : SplSrc) (s : State) : Host.Outcome State Fault Refusal := .next (splRun 0x02 src slotStop s)
/-- SLOT_QUERY: STATE and LAST_STATUS, and the position. -/
def slotQuery (c : SplCmd) (s : State) : State :=
  let x := slotOf s (cmdSpool c) (cmdIndex c)
  splEnd c stOk ([w32 (place 28 4 x.state.toNat + place 24 4 x.last.toNat)] ++ pair x.pos) s
def execSlotQuery (src : SplSrc) (s : State) : Host.Outcome State Fault Refusal := .next (splRun 0x03 src slotQuery s)

/-- How far a run may read: an offset, and whether it is the run's end. -/
structure Limit where
  off : Nat
  done : Bool
  deriving DecidableEq, Repr
/-- The end of the last event record before the first event at `u` or later, from `pos` on (R307): what lies behind it is
held back. -/
def holdBack (s : State) (n : Nat) (u : Tick) (pos : Nat) : Nat → Nat → Tick → Nat → Limit
  | 0, _, _, last => { off := last, done := false }
  | k + 1, o, t, last =>
    if (spoolOf s n).w ≤ o then { off := last, done := false }
    else
      let v := spoolWord s n o
      let len := recLen v
      if (spoolOf s n).w < o + 4 * len then { off := last, done := false }
      else if isEvent v then
        let t' := t + BitVec.ofNat 64 (fld v 28 0)
        if pos ≤ o && tickGe t' u then { off := last, done := true }
        else holdBack s n u pos k (o + 4) t' (if pos ≤ o + 4 then o + 4 else last)
      else
        let t' := if v ≠ 0xFFFFFFFF ∧ (fld v 31 28 = 8 ∨ fld v 31 28 = 9) then timeAt2 s n (o + 4) else t
        holdBack s n u pos k (o + 4 * len) t' last
/-- The limit of a run that ends at an offset: the first record boundary at or beyond END (R307), so that a record begun before END
is read whole. -/
def offLimit (s : State) (n stop pos : Nat) : Limit :=
  let w := (spoolOf s n).w
  if pageOf (stop - 1) + 4096 ≤ pos then { off := pos, done := true }
  else if w < stop then { off := w, done := false }
  else
    let b := (walk s n (w + 24) (fun p _ _ => decide (stop ≤ p ∨ w ≤ p)) 1025 (pageOf (stop - 1)) (spoolOf s n).run).1
    if b ≤ w then { off := max b pos, done := true } else { off := w, done := false }
/-- How far a run of a slot or an export may read from `pos` (R307). -/
def runLimit (s : State) (n : Nat) (follow endTime : Bool) (stop pos : Nat) : Limit :=
  let w := (spoolOf s n).w
  if follow then { off := w, done := false }
  else if endTime then
    holdBack s n (BitVec.ofNat 64 stop) pos ((w - pageOf pos) / 4 + 1) (pageOf pos) (spoolOf s n).run pos
  else offLimit s n stop pos
/-- The running time of the last record that ends at or before an offset that a reader has reached. -/
def lastRun (s : State) (n o : Nat) : Tick :=
  if o % 4096 = 0 ∧ vOf (spoolOf s n) < o then (walk s n o (fun _ _ _ => false) 1025 (o - 4096) (spoolOf s n).run).2
  else runAt s n o
/-- The synthetic records that a packet begins with (R308, R310). -/
def synWords (s : State) (n : Nat) (x : SlotSt) : List Word :=
  if x.syn = 1 then timeRec n false true x.run
  else if x.syn = 2 then gapRec n 0xB true true x.run (pageBase s n x.pos) 0
  else []
/-- Word 0 of a slot packet (R308). -/
def slotWord0 (n i nsyn : Nat) (last stopped : Bool) : Word :=
  w32 (place 31 1 i + place 30 1 (b2n last) + place 29 1 (b2n stopped) + place 24 3 nsyn + place 0 12 n)
/-- The packet of `k` words from the slot's position (R308). -/
def slotPkt (s : State) (n i k : Nat) (last stopped : Bool) : Packet :=
  let x := slotOf s n i
  let syn := synWords s n x
  let g := posOf (spoolOf s n) x.pos / 512
  { dest := BitVec.ofNat 16 x.tile.toNat, slot := x.slot, op := 0, tag := 0, src := BitVec.ofNat 16 (0x1040 + g), status := 0,
    dom := spoolDom s n, vc := false,
    words := [slotWord0 n i syn.length last stopped, w32 x.pos] ++ syn ++
      (List.range k).map (fun j => spoolWord s n (x.pos + 4 * j)),
    rep := { run := x.runs } }
/-- PACE: the time that `k` words take at PACE × 32 MB/s, counted behind at most 4 KiB of unused time (R308). -/
def paceAfter (x : SlotSt) (now : Tick) (k : Nat) : Tick :=
  if x.pace = 0 then now
  else
    let cost (w : Nat) : Tick := BitVec.ofNat 64 (w * 16000 / x.pace)
    let floor := now - cost 1024
    (if tickLt x.ready floor then floor else x.ready) + cost k
/-- Send a packet of `k` words from slot A or B. -/
def sendSlot (n i k : Nat) (last stopped : Bool) (s : State) : State :=
  let x := slotOf s n i
  let p := slotPkt s n i k last stopped
  let q := x.pos + 4 * k
  let g := posOf (spoolOf s n) x.pos / 512
  let y := { x with pos := q, run := if k = 0 then x.run else lastRun s n q, syn := 0, seg := x.pos / 65536,
                    sent := x.sent ++ [(g, 0)], ready := paceAfter x s.now k }
  send p (tally 4 g 0 (s.setSlot n i y))
/-- The words of a packet are read by a master in a class, each in its slot (R42, R348, R353): whether every one could be. -/
def readOk (n cls master o k : Nat) (s : State) : Bool × State :=
  let x := spoolOf s n
  if k = 0 then (true, s)
  else
    (List.range ((o + 4 * k - 1) / 8 + 1 - o / 8)).foldl (fun (ok, s) j =>
      let (d, s) := readReel cls master (spoolDom s n).val (offAddr x (8 * (o / 8 + j)) / 8) s
      (ok && d.isSome, s)) (true, s)
/-- The stops that wait for a run that has ended without a LAST packet are answered. -/
def endStop (n i : Nat) (s : State) : State :=
  let x := slotOf s n i
  answerStops n i x.runs (s.setSlot n i (fixStops x))
/-- SLOT_PACKET_SEND and SLOT_FLUSH_TIMEOUT (R308, R310, R311): a run that is not held back sends its next packet when it
is full, when it reaches its end or the end of the segment, when it is stopped, or — `flush` — when a FOLLOW slot is at
W. -/
def sendNext (n i : Nat) (flush : Bool) (s : State) : State :=
  let x := slotOf s n i
  if !reading x || !memLive s || s.xng.stopped.contains 192 then s
  else
    let g := posOf (spoolOf s n) x.pos / 512
    let port := portOf s (.mem g) x.tile.toNat
    let free := gateFree s port (spoolDom s n)
    if !free then s.setSlot n i { x with state := 4 }
    else if x.pos / 65536 ≠ x.seg ∧ x.sent.any (fun e => e.2 != 2) then s
    else if x.stops.any (fun e => e.run == x.runs) then
      let s := sendSlot n i 0 true true s
      s.setSlot n i { fixStops (slotOf s n i) with state := 6, last := stOk }
    else if tickLt s.now x.ready then s
    else
      let w := (spoolOf s n).w
      let lim := runLimit s n x.follow x.endTime x.stop x.pos
      let cap := 16 - (synWords s n x).length
      let room := min cap ((65536 - x.pos % 65536) / 4)
      let have_ := (lim.off - x.pos) / 4
      let k := min room have_
      let ends := lim.done && decide (have_ ≤ room)
      if ends || (k == room) || (flush && x.follow && decide (0 < k)) then
        let (ok, s) := readOk n (1 + (spoolDom s n).val) (64 + g) x.pos k s
        if !ok then endStop n i (endRun n i 6 stFault s)
        else
          let s := sendSlot n i k ends false s
          if ends then endRun n i 5 stOk s
          else s.setSlot n i { slotOf s n i with state := if x.follow && x.pos + 4 * k == w then 3 else 2 }
      else s.setSlot n i { x with state := if x.follow && lim.off == w && x.pos == w then 3 else 2 }
/-- SLOT_PACKET_SEND and SLOT_FLUSH_TIMEOUT; while a group that holds the spool wakes, they wait (R364). -/
def slotSend (n i : Nat) (flush : Bool) (s : State) : State :=
  if reading (slotOf s n i) && memLive s then whenAwake n (sendNext n i flush) s else s
def execSlotPacketSend (spool : Fin 2112) (slotB : Bool) (s : State) : Host.Outcome State Fault Refusal :=
  .next (slotSend spool (b2n slotB) false s)
def execSlotFlushTimeout (spool : Fin 2112) (slotB : Bool) (s : State) : Host.Outcome State Fault Refusal :=
  .next (slotSend spool (b2n slotB) true s)

/-! ## Exports (R315, R316) -/

/-- EXPORT_START. -/
def exportStart (c : SplCmd) (s : State) : State :=
  withPos c (fun p s =>
    let n := cmdSpool c
    let v := cmdWord c 3
    let e : ExpSt := { port := c.dom, follow := bitOf v 31, endTime := bitOf v 30,
                       stop := (join32 (cmdWord c 4) (cmdWord c 5)).toNat, hash := bitOf v 29, run := p.base, seg := none,
                       bytes := [], lapped := false, sent := 0, skip := none, closing := none, final := none }
    let st := runState s n e.follow p.off
    let s := (s.setExp n (some e)).setSlot n 2 { slotOf s n 2 with state := st, pos := p.off }
    splEnd c stOk (pair p.off) (if e.hash then s.setSlot n 3 { slotOf s n 3 with state := st, pos := p.off } else s)) s
def execExportStart (src : SplSrc) (s : State) : Host.Outcome State Fault Refusal := .next (splRun 0x20 src exportStart s)
/-- An export ends with a status (R316, R331): its ledger entry closes, its LAST packet follows (R470). An entry that stands open at the end
of an export that was lapped before holds all its bytes: the lap closed the one it met. -/
def endExport (n : Nat) (state : BitVec 4) (st : Status) (s : State) : State :=
  match (spoolOf s n).exp with
  | some e =>
    if e.final.isSome then s
    else
      let s := closeEntry n (if st = stLapped then stOk else st) s
      match (spoolOf s n).exp with
      | some e =>
        let s := (s.setExp n (some { e with final := some st })).setSlot n 2 { slotOf s n 2 with state := state, last := st }
        let s := if e.hash then s.setSlot n 3 { slotOf s n 3 with state := state, last := st } else s
        notify 0x82 (spoolDom s n).val ([w32 n, w32 e.port.val, w32 st.toNat] ++ pair e.sent) s
      | none => s
  | none => s
/-- The final status of an export that is stopped or reaches its end. -/
def exportStatus (e : ExpSt) : Status := if e.lapped then stLapped else stOk
/-- EXPORT_STOP (R316); with no export running, OK. -/
def exportStop (c : SplCmd) (s : State) : State :=
  let n := cmdSpool c
  let o := (slotOf s n 2).pos
  match (spoolOf s n).exp with
  | some e => splEnd c stOk (pair o) (endExport n 6 (exportStatus e) s)
  | none => splEnd c stOk (pair o) s
def execExportStop (src : SplSrc) (s : State) : Host.Outcome State Fault Refusal := .next (splRun 0x21 src exportStop s)
/-- An export ends with STALE and without a LAST packet: its entry is written, at once or when it has room (R478, R565). -/
def dropExport (n : Nat) (s : State) : State :=
  let s := endExport n 6 stStale s
  match (spoolOf s n).exp with
  | some e =>
    let s := match e.closing with
      | some ws => addSegment ws s
      | none => s
    s.setExp n none
  | none => s
/-- The runs of slots A and B of a spool end with STALE, without LAST (R330). -/
def staleRuns (n : Nat) (s : State) : State :=
  forEach [0, 1] (fun i s =>
    let s := if inRun (slotOf s n i) then endStop n i (endRun n i 6 stStale s) else s
    s.setSlot n i { slotOf s n i with sent := [] }) s
/-- The numbers of the spools that hold anything. -/
def spoolNums (s : State) : List Nat := s.spl.spools.map (·.1)

/-! ## Resize (R324, R327, R328) -/

/-- Whether the channel or sense pin of a spool is enabled (R293). -/
def channelOn (s : State) (n : Nat) : Bool :=
  if n < 2048 then bitOf (s.reg .laneChEn (n / 32)) (n % 32) && bitOf (laneCfg s (n / 32)) 31
  else fld (s.reg .timeSenseCfg (n - 2048)) 7 6 != 0
/-- The state with a spool's segments freed. -/
def freeSegs (n : Nat) (s : State) : State := s.setSpool n { spoolOf s n with segs := [], swap := none }
/-- RESIZE (R323, R324): accepted, the spool closes at SPOOL_CLOSE. -/
def resizeCmd (c : SplCmd) (s : State) : State :=
  let n := cmdSpool c
  let new := fld (cmdWord c 1) 12 0
  if new = 0 && channelOn s n then splEnd c stBusy [] s
  else if freeUnits s + (spoolOf s n).segs.length < new then splEnd c stRange [] s
  else s.setSpool n { spoolOf s n with resizing := some (new, c) }
def execResize (src : SplSrc) (s : State) : Host.Outcome State Fault Refusal := .next (splRun 0x30 src resizeCmd s)
/-- The records of a spool that wait for its lane writer, oldest first. -/
def waitingRecs (s : State) (n : Nat) : List WRec :=
  let x := lane s (writerOf n)
  (x.wbuf ++ x.wq.items.flatten).filter (fun r => recSpool r == n)
/-- The events among them. -/
def queuedEvents (s : State) (n : Nat) : Nat :=
  ((waitingRecs s n).filter (fun r => match r with
    | .event _ _ _ _ => true
    | .gap _ _ _ _ _ _ => false)).length
/-- They are discarded; a notice among them is open still (R235). -/
def dropQueued (n : Nat) (s : State) : State :=
  let l := waitingRecs s n
  let x := lane s (writerOf n)
  let keep (l : List WRec) : List WRec := l.filter (fun r => recSpool r != n)
  forEach l.reverse reopenGap (s.setLane (writerOf n) { x with wbuf := keep x.wbuf, wq := { x.wq with items := x.wq.items.map keep } })
/-- The record of a spool that its lane writer is writing is finished. -/
def finishCur (n : Nat) (s : State) : State :=
  let k := writerOf n
  match (lane s k).cur with
  | some c => if c.spool = n then recDone c (putRecWords n c.words (s.setLane k { lane s k with cur := none, slot := false })) else s
  | none => s
/-- A notice that stands open is written into its spool now, with END at this moment (R235, R328). -/
def closeGap (n : Nat) (s : State) : State :=
  let x := spoolOf s n
  match x.gap with
  | some g => flagGap n (writeRec (gapOut n g s.now) (s.setSpool n { x with gap := none }))
  | none => s
/-- Slots A and B of a spool that is resized send LAST with STOPPED and end with STALE (R328). -/
def stopSlots (n : Nat) (s : State) : State :=
  forEach [0, 1] (fun i s =>
    if inRun (slotOf s n i) then endRun n i 6 stStale (sendSlot n i 0 true true s) else s) s
/-- Open a spool anew with a size, its reader slots and its export kept. -/
def reopen (n size : Nat) (segs : List Nat) (start : Nat) (s : State) : State :=
  let x := spoolOf s n
  let s := openSpool n size segs start s
  s.setSpool n { spoolOf s n with slots := x.slots, exp := x.exp }
/-- Steps 2 to 5 of R327, the new segments found: the spool is closed with what it is writing and a notice that stands open, and
opened at the next page start; the GAP is written, the command answered and SPL_RESIZED raised (R328). -/
def closeSpool (n new : Nat) (c : SplCmd) (segs : List Nat) (s : State) : State :=
  let size := (spoolOf s n).size
  let s := finishCur n (endExport n 6 stStale (stopSlots n s))
  let lost := queuedEvents s n
  let last := (spoolOf s n).run
  let s := flushHalf n (closeGap n (dropQueued n s))
  let s := reopen n new segs (((spoolOf s n).w + 4095) / 4096 * 4096) s
  let s := if new = 0 then s else flagGap n (writeRec (.gap n 0xC false last s.now lost) s)
  notify 0x84 (spoolDom s n).val [w32 n, w32 size, w32 new, w32 lost] (splEnd c stOk [w32 new] (s.bump .splResizeLost n lost))
/-- SPOOL_CLOSE (R327): once no swap stands and no group that holds the spool, or will hold it, is in retention (R364). -/
def spoolClose (n : Nat) (s : State) : State :=
  let x := spoolOf s n
  match x.resizing with
  | none => s
  | some (new, c) =>
    if x.swap.isSome || !memLive s then s
    else
      match placeSegs (freeSegs n s) n 0 [] new with
      | none => splEnd c stRange [] (s.setSpool n { x with resizing := none })
      | some segs =>
        if segs.any (fun u => retained s (u / 512)) then wakeFor segs s else whenAwake n (closeSpool n new c segs) (wakeFor segs s)
def execSpoolClose (spool : Fin 2112) (s : State) : Host.Outcome State Fault Refusal := .next (spoolClose spool s)

/-! ## Register reads that latch (R339) -/

/-- A read of the low word of an offset: the high word is latched for the port; a tenant that does not hold the spool is
denied and reads 0 (R332). -/
def latchRead (p : Fin 4) (n : Nat) (hi : Reg) (v : Nat) (s : State) : State :=
  if mayReach s p n then ((wakeIsl 3 0 s).setRegP p hi n 0 (w32 (v / 2 ^ 32))).finish stOk [w32 v] else s.finish stDenied [0]
/-- SPL_WPTR_READ. -/
def wptrRead (p : Fin 4) (n : Nat) (s : State) : State := latchRead p n .splWptrHi (spoolOf s n).w s
def execSplWptrRead (port : Fin 4) (spool : Fin 2112) (s : State) : Host.Outcome State Fault Refusal :=
  .next (servedRead (wptrRead port spool) s)
/-- SPL_LIVE_READ. -/
def liveRead (p : Fin 4) (n : Nat) (s : State) : State := latchRead p n .splLiveHi (vOf (spoolOf s n)) s
def execSplLiveRead (port : Fin 4) (spool : Fin 2112) (s : State) : Host.Outcome State Fault Refusal :=
  .next (servedRead (liveRead port spool) s)

/-! ## The engine's status (R333, R335, R339) -/

/-- SPL_STATUS. -/
def splStatus (s : State) : Word :=
  let active := s.spl.spools.foldl (fun a e => a + (e.2.slots.filter (fun x => inRun x.2)).length) 0
  w32 (place 16 13 (freeUnits s) + active)
/-- SPL_STAT of a spool. -/
def splStat (s : State) (n : Nat) : Word :=
  let x := spoolOf s n
  let bits (f : Nat × Nat × Tick → Bool) : Nat := x.marks.foldl (fun a m => if f m then a + 2 ^ m.1 else a) 0
  w32 (place 30 2 (spoolDom s n).val + place 29 1 (b2n (resizing s n)) + place 16 8 (bits (fun _ => true)) +
    place 8 8 (bits (fun m => decide (m.2.1 < vOf x))))
/-- Whether a start of a slot is being held back while a group that holds the spool wakes (R309, R364): its position is being
resolved (R340). -/
def seeking (s : State) (n i : Nat) : Bool :=
  (spoolGroups (spoolOf s n)).any (retained s) && !inRun (slotOf s n i) &&
    (splFree [] s.spl.queue).any (fun e =>
      let c := e.cmd
      cmdSpool c == n && (cmdForm c).isNone && splCheck s c == stOk &&
        (if i < 2 then cmdOf c == 0x01 && cmdIndex c == i else cmdOf c == 0x20 && (i == 2 || bitOf (cmdWord c 3) 29)))
/-- SPL_SLOTA–D. -/
def splSlotWord (s : State) (n i : Nat) : Word :=
  let x := slotOf s n i
  w32 (place 28 4 (if seeking s n i then 1 else x.state.toNat) + place 24 4 x.last.toNat + x.laps)

end Sys2Proof.Machine
end

