-- ==== Sys2Proof/Machine/Pins.lean ====
section
/-! DEFINITION. Pins: banks and pairs (R405–R407), functions and roles (R409–R412), the function switch (R413–R415),
freeze and resets (R416–R418), detectors and their events (R421–R427), output write paths (R428–R431). -/
namespace Sys2Proof.Machine

/-! ## Pins, banks and roles -/

/-- Change the pins' record. -/
def State.onPins (s : State) (f : PinsSt → PinsSt) : State := { s with pins := f s.pins }

/-- The bank of a pin (R405). -/
def bankOfPin (p : Nat) : Nat := p / 48
/-- PIN_CFG of a pin. -/
def pinCfg (s : State) (p : Nat) : Word := s.reg .pinCfg p
/-- PIN_EVT of a pin. -/
def pinEvt (s : State) (p : Nat) : Word := s.reg .pinEvt p
/-- The function of a pin. -/
def pinFunc (s : State) (p : Nat) : Nat := fld (pinCfg s p) 31 29
/-- Whether a pin is the N side of an LVDS pair (R406). -/
def pairedOdd (s : State) (p : Nat) : Bool :=
  p % 48 % 2 == 1 && decide (bankOfPin p < 4) && bitOf (s.reg .pinBankCfg (bankOfPin p)) (p % 48 / 2)
/-- VIOB of a bank lies within its limits (R407). -/
def viobOk (s : State) (b : Nat) : Bool := s.pins.viobOk.contains b
/-- The sense pin of a pin, if it is one (R43). -/
def senseOf (p : Nat) : Option Nat := if p < 96 ∧ p % 48 < 32 then some (32 * (p / 48) + p % 48) else none
/-- The pin of a sense pin. -/
def pinOfSense (k : Nat) : Nat := 48 * (k / 32) + k % 32
/-- The pins that claim role `r` of unit `u` of function `f`, in index order (R410, R411). -/
def claimants (s : State) (f u r : Nat) : List Nat :=
  (List.range 384).filter (fun p => fld (pinCfg s p) 31 21 == 256 * f + 16 * u + r && !pairedOdd s p)
/-- The pins that claim any role of a unit. -/
def unitPins (s : State) (f u : Nat) : List Nat :=
  (List.range 384).filter (fun p => fld (pinCfg s p) 31 25 == 16 * f + u && !pairedOdd s p)
/-- R412: port or domain `d` may reach a unit. -/
def unitReach (s : State) (d f u : Nat) : Bool :=
  d == 0 || (!(unitPins s f u).isEmpty && (unitPins s f u).all (fun p => bankBit s d (bankOfPin p)))
/-- The home bank of a unit: that of its lowest-numbered claimant (R411). -/
def unitBank (s : State) (f u : Nat) : Option Nat := (unitPins s f u).head?.map bankOfPin
/-- The home bank of counter `q` (R281). -/
def homeBank (s : State) (q : Nat) : Nat :=
  match (claimants s 4 q 0).head? with
  | some p => bankOfPin p
  | none => (unitBank s 4 q).getD (q / 2)
/-- Whether a role is an input role, or one of I²C (R411). -/
def inputRole (f r : Nat) : Bool := f == 4 || f == 6 || (f == 5 && r == 2)
/-- The domain of a unit's notifications: its home bank's. -/
def unitDom (s : State) (f u : Nat) : Nat :=
  match unitBank s f u with
  | some b => (bankDom s b).val
  | none => 0
/-- R409, R410: the fields FUNC, UNIT and ROLE name what exists. -/
def roleOk (p : Nat) (v : Word) : Bool :=
  let u := fld v 28 25
  let r := fld v 24 21
  match fld v 31 29 with
  | 2 => (senseOf p).isSome && u == 0 && r == 0
  | 3 => decide (r ≤ 1)
  | 4 => decide (r ≤ 2)
  | 5 => decide (u < 8 ∧ r ≤ 10)
  | 6 => decide (u < 4 ∧ r ≤ 1)
  | _ => u == 0 && r == 0

/-! ## What a pin drives -/

/-- Bank cycles since a PWM channel's period began: one cycle is 640 ticks. -/
def pwmPhase (s : State) (c : Nat) : Nat :=
  let x := s.pins.pwm.get PwmSt.init c
  (s.now - x.start).toNat / 640 % max 1 x.period.toNat
/-- The output of a PWM channel (R432). -/
def pwmOut (s : State) (c : Nat) : Bool :=
  let x := s.pins.pwm.get PwmSt.init c
  let on := x.running && decide (pwmPhase s c < x.duty.toNat)
  on != bitOf (s.reg .pwmCfg c) 29
/-- Whether a pin's SLEEP state holds now (R409, R417, R419, R420), and which. -/
def sleepNow (s : State) (p : Nat) : Option Nat :=
  match (pinSt s p).park with
  | some v => some v.toNat
  | none => if s.pins.asleep || pinFunc s p = 7 then some (fld (pinCfg s p) 13 12) else none
/-- Bit `n` of a bank's register pair. -/
def bankRegBit (s : State) (r : Reg) (p : Nat) : Bool :=
  bitOf (s.regP 0 r (bankOfPin p) (p % 48 / 32)) (p % 48 % 32)
/-- The SPI controller of a lane's front end: as its last training latched it, as LANE_CFG names it before the first (R240, R254). -/
def laneSpi (s : State) (n : Nat) : Nat :=
  match (lane s n).spiSel with
  | some v => fld v 5 3
  | none => fld (laneCfg s n) 27 25
/-- Whether a lane sequencer holds SPI controller `u`: some enabled lane's front end is on it (R240, R434), and no transfer that began
before runs on it (R436). -/
def laneHolds (s : State) (u : Nat) : Bool :=
  (s.pins.spi.find u).isNone && (List.range 64).any (fun n => bitOf (laneCfg s n) 31 && laneSpi s n == u)
/-- The value that the loaded image gave a register (R418). -/
def imageReg (s : State) (r : Reg) (i j : Nat) : Word := s.ldr.image.get r.reset (r.addr i j)
/-- The level at which SCLK rests: of the mode of the last transfer, of the image's before the first (R434); of mode 0 while a lane
sequencer holds the controller. -/
def sclkRest (s : State) (u : Nat) : Bool :=
  !laneHolds s u && bitOf ((s.pins.spiMode.find u).getD (imageReg s .spiCfg u 0)) 29
/-- The value and enable that a pin's function gives (R409). The lines of an SPI or I²C controller carry the transfer;
what MOSI and a running SCLK or I²C line hold is not stated (a free value), SCLK rests at its idle level. A running transfer's chip
select is low and every other one high (R433). -/
def funcDrive (s : State) (p : Nat) : Bool × Bool :=
  let cfg := pinCfg s p
  let u := fld cfg 28 25
  let r := fld cfg 24 21
  let x := pinSt s p
  match fld cfg 31 29 with
  | 0 => (bankRegBit s .pinOut p, bankRegBit s .pinDir p)
  | 1 => (x.fabOut, x.fabOe)
  | 3 => (pwmOut s u != (r == 1), true)
  | 5 =>
    if r = 2 then (false, false)
    else
      match s.pins.spi.find u with
      | some t => (if r = 0 ∨ r = 1 then bitOf (s.freeAt (1 + p)) 0 else fld t.ctl 29 27 != r - 3, true)
      | none =>
        if r = 1 then (bitOf (s.freeAt (1 + p)) 0, true)
        else if r = 0 then (sclkRest s u, true)
        else (!(s.pins.heldCs.get 0 u == r - 2), true)
  | 6 => if (s.pins.i2c.find u).isSome then (false, !x.conflict && bitOf (s.freeAt (1 + p)) 0) else (false, false)
  | _ => (false, false)
/-- The value driven and the output enable now: high impedance before I/O release and while VIOB is out (R407, R416). -/
def drive (s : State) (p : Nat) : Bool × Bool :=
  if !s.fab.released || !viobOk s (bankOfPin p) || pairedOdd s p then (false, false)
  else
    match sleepNow s p with
    | some 1 => (false, true)
    | some 2 => (true, true)
    | some 3 => ((pinSt s p).out, (pinSt s p).oe)
    | some _ => (false, false)
    | none =>
      let d := funcDrive s p
      (d.1, d.2 && !(bitOf (pinCfg s p) 15 && d.1))
/-- The accepted level that PIN_IN and gateways read (R407, R409, R421). -/
def pinLevel (s : State) (p : Nat) : Bool := viobOk s (bankOfPin p) && pinFunc s p != 7 && (pinSt s p).level

/-! ## Pulse crossings (R386, R387) -/

/-- The pulse crossing of a pin's fabric events. -/
def pinXing (p : Nat) : Nat := xkey 4 (bankOfPin p) 2 true (p % 48)
/-- The pin of a pulse crossing, if it is one. -/
def xingPin (k : Nat) : Option Nat :=
  if keyIsl k = 4 ∧ keyKind k = 2 ∧ keyOut k ∧ keySub k < 48 then some (48 * keyIdx k + keySub k) else none
/-- A delivered pulse: an event at the pin's gateway. -/
def deliverPulse (k : Nat) (s : State) : State :=
  match xingPin k with
  | some p => s.setPin p { pinSt s p with pulses := (pinSt s p).pulses + 1 }
  | none => s
/-- `n` events of a pin are lost to the fabric (R418, R424). -/
def losePin (p n : Nat) (s : State) : State :=
  let s := s.bump .pinEvtLost (bankOfPin p) n
  s.setPin p { pinSt s p with ovr := true, resample := true }
/-- A pulse is lost (R387, R424). -/
def losePulse (k : Nat) (s : State) : State :=
  let s := xingLast 1 k ((s.setXing k { xing s k with overrun := true }).bump .fabXingOverrun 0 1)
  let s := notifyOnce 0x6C k 0 1 (xingItems k) s
  match xingPin k with
  | some p =>
    let b := bankOfPin p
    let s := (losePin p 1 s).setReg .pinStat p (putBit (s.reg .pinStat p) 4 true)
    notifyOnce 0xB1 b (bankDom s b).val 1 [w32 b] s
  | none => s
/-- The pulse crossings into an island that carry commit ticks and TBSYNC indices (notes/assumptions/13.md). -/
def tickPulse (k : Nat) : Bool := !keyOut k && decide (keySub k < 2)
/-- A pulse goes into an island whose clock is stopped. -/
def toStopped (s : State) (k : Nat) : Bool := !keyOut k && s.xng.stopped.contains (64 * keyIsl k + keyIdx k)
/-- One more pulse is pending; beyond three it is lost. -/
def holdPulse (k : Nat) (s : State) : State :=
  let x := xing s k
  if x.pending < 3 then s.setXing k { x with pending := x.pending + 1 } else losePulse k s
/-- A pulse reaches a crossing (R386–R388). For a stopped island it is a wake request and pending; commit ticks and TBSYNC
indices neither wake it nor count. -/
def pulseIn (k : Nat) (s : State) : State :=
  let x := xing s k
  if x.absent then s
  else if toStopped s k then (if tickPulse k then s else holdPulse k (wakeIsl (keyIsl k) (keyIdx k) s))
  else if !x.busy && x.pending == 0 then deliverPulse k (s.setXing k { x with busy := true })
  else holdPulse k s
/-- A delivery completes (R386): the next pending pulse is delivered at once; one that waited for the island's wake is the
first. A pin's delivery waits for its gateway. -/
def pulseDone (k : Nat) (s : State) : State :=
  let x := xing s k
  let taken := match xingPin k with
    | some p => (pinSt s p).pulses == 0
    | none => true
  if x.busy && x.pending == 0 && taken then s.setXing k { x with busy := false }
  else if x.pending != 0 && (!x.busy || taken) then
    deliverPulse k (s.setXing k { x with busy := true, pending := x.pending - 1, overrun := x.overrun && x.pending != 1 })
  else s

/-! ## Detectors (R421–R424) -/

/-- MODE of a detector. -/
def evtMode (s : State) (p : Nat) : Nat := fld (pinEvt s p) 31 29
/-- Whether a pin's detector works: released, supplied, awake, not parked (R407, R409, R416, R417). -/
def detects (s : State) (p : Nat) : Bool :=
  s.fab.released && viobOk s (bankOfPin p) && (sleepNow s p).isNone && !pairedOdd s p
/-- The bank's PEND words. -/
def pendItems (s : State) (b : Nat) : List Word := [s.regP 0 .pinPend b 0, s.regP 0 .pinPend b 1]
/-- Set a pin's PEND bit; PIN_EVENT where the bank's were all 0 (R424). -/
def setPend (p : Nat) (s : State) : State :=
  let b := bankOfPin p
  let j := p % 48 / 32
  let none := (pendItems s b).all (fun w => w == 0)
  let s := s.setRegP 0 .pinPend b j (putBit (s.regP 0 .pinPend b j) (p % 48 % 32) true)
  if none then notify 0xB0 (bankDom s b).val ([w32 b] ++ pendItems s b) s else s
/-- An event at a detector goes to the destinations that PIN_EVT enables (R424). -/
def firePin (p : Nat) (s : State) : State :=
  let e := pinEvt s p
  let s := if bitOf e 23 then setPend p s else s
  if bitOf e 22 then pulseIn (pinXing p) s else s
/-- Whether a level detector's level is the pin's. -/
def atLevel (s : State) (p : Nat) : Bool :=
  (evtMode s p == 4 && (pinSt s p).level) || (evtMode s p == 5 && !(pinSt s p).level)
/-- An armed level detector fires where the pin is at its level, and disarms (R414, R423, R427). -/
def levelFire (p : Nat) (s : State) : State :=
  if (pinSt s p).armed && atLevel s p && detects s p then firePin p (s.setPin p { pinSt s p with armed := false }) else s
/-- Re-arm a level detector (R423); one of a parked pin stays disarmed (R417). -/
def rearm (p : Nat) (s : State) : State :=
  if (evtMode s p = 4 ∨ evtMode s p = 5) ∧ (pinSt s p).park.isNone then levelFire p (s.setPin p { pinSt s p with armed := true }) else s
/-- Whether a change from `a` to `b` is the event of an edge detector. -/
def edgeEvent (mode : Nat) (a b : Bool) : Bool :=
  a != b && (mode == 3 || (mode == 1 && b) || (mode == 2 && !b))
/-- PIN_LEVEL_ACCEPT (R421–R423): a change at a pin whose bank's clock is stopped wakes the bank (R427). While nothing sees the pin
(R407, R409) its level is only kept, as the starting level of the switch that ends this (R414). -/
def acceptLevel (p : Nat) (level : Bool) (s : State) : State :=
  let x := pinSt s p
  if !viobOk s (bankOfPin p) || pinFunc s p = 7 then s.setPin p { x with level := level }
  else
    let s := (wakeIsl 4 (bankOfPin p) s).setPin p { x with level := level }
    if edgeEvent (evtMode s p) x.level level && detects s p then firePin p s
    else if (evtMode s p = 4 ∨ evtMode s p = 5) ∧ !atLevel s p then
      if bitOf (pinEvt s p) 25 && x.park.isNone then s.setPin p { pinSt s p with armed := true } else s
    else levelFire p s
def execPinLevelAccept (pin : Fin 384) (level : Bool) (s : State) : Host.Outcome State Fault Refusal :=
  .next (acceptLevel pin level s)

/-! ## Sense capture and counters beside their pins -/

/-- A sense pin's filter. -/
def sense (s : State) (k : Nat) : SenseSt := s.pins.sense.get SenseSt.init k
/-- Store it. -/
def State.setSense (s : State) (k : Nat) (x : SenseSt) : State :=
  { s with pins := { s.pins with sense := s.pins.sense.set SenseSt.init k x } }
/-- Discarded pulses of a sense pin (R276, R279). -/
def glitch (k : Nat) (s : State) : State :=
  notifyOnce 0xA4 k (spoolDom s (2048 + k)).val 1 [w32 k] (s.bump .timeSenseGlitch k 1)
/-- The pin leaves F2: an open edge is discarded as a glitch (R279). -/
def stopSense (k : Nat) (s : State) : State :=
  let x := sense s k
  let s := s.setSense k { open_ := none, capture := false }
  if x.open_.isSome then glitch k s else s
/-- The pin takes F2: capture starts (R279). -/
def startSense (k : Nat) (s : State) : State := s.setSense k { open_ := none, capture := true }

/-! ## The function switch (R413–R415) -/

/-- Set or clear the CONFLICT of a pin; a new one is raised (R411). -/
def setConflict (p : Nat) (c : Bool) (s : State) : State :=
  let x := pinSt s p
  let s := s.setPin p { x with conflict := c }
  if c && !x.conflict then
    let v := pinCfg s p
    notify 0xB2 (bankDom s (bankOfPin p)).val [w32 p, w32 (fld v 31 29), w32 (fld v 28 25), w32 (fld v 24 21)] s
  else s
/-- Settle who holds role `r` of unit `u`: the lowest claimant of an input role; every other is in conflict (R411). -/
def settleRole (f u r : Nat) (s : State) : State :=
  if inputRole f r then
    match claimants s f u r with
    | [] => s
    | p :: t => forEach t (fun q => setConflict q true) (setConflict p false s)
  else s
/-- A new function sees a counter input: its first state starts without a step (R285). -/
def freshQd (v : Word) (s : State) : State :=
  if fld v 31 29 = 4 then s.setQd (fld v 28 25) { qd s (fld v 28 25) with fresh := true } else s
/-- A counter that has lost its last claimant sees its inputs at 0, and no step for it (R281, R411). -/
def emptyQd (old : Word) (s : State) : State :=
  let q := fld old 28 25
  if fld old 31 29 = 4 ∧ (unitPins s 4 q).isEmpty then s.setQd q { qd s q with ab := 0, fresh := false } else s
/-- A detector's starting level (R414) is what its gateway's kept level comes to once the events on their way are delivered, each of
which toggles it (R425). -/
def keptLevel (s : State) (p : Nat) : Bool :=
  (pinSt s p).level != (((pinSt s p).pulses + (xing s (pinXing p)).pending) % 2 == 1)
/-- A pin that held the input of unit `u` leaves its role: a transfer in progress sees the level accepted last (R415). -/
def leaveRole (p : Nat) (s : State) : State :=
  let v := pinCfg s p
  let u := fld v 28 25
  let leave (l : NMap XferSt) : NMap XferSt :=
    match l.find u with
    | some t => l.put u { t with held := some (pinLevel s p) }
    | none => l
  if fld v 31 29 = 5 ∧ fld v 24 21 = 2 ∧ (claimants s 5 u 2).head? = some p then
    s.onPins (fun x => { x with spi := leave x.spi })
  else if fld v 31 29 = 6 ∧ fld v 24 21 = 1 ∧ (claimants s 6 u 1).head? = some p then
    s.onPins (fun x => { x with i2c := leave x.i2c })
  else s
/-- A pin, which drives `d` until then, runs the switch sequence into a configuration; the whole sequence is done in one
command. -/
def switchFrom (d : Bool × Bool) (p : Nat) (v : Word) (s : State) : State :=
  let old := pinCfg s p
  let s := s.nextFree.setPin p { pinSt s p with out := d.1, oe := d.2, evLevel := keptLevel s p }
  let s := if fld old 31 21 = fld v 31 21 then s else leaveRole p s
  let s := s.setReg .pinCfg p v
  let s := if fld old 31 21 = fld v 31 21 then s else
    let s := setConflict p false s
    emptyQd old (settleRole (fld v 31 29) (fld v 28 25) (fld v 24 21)
      (settleRole (fld old 31 29) (fld old 28 25) (fld old 24 21) s))
  let s := freshQd v s
  let s := match senseOf p with
    | some k =>
      if fld old 31 29 = 2 ∧ fld v 31 29 ≠ 2 then stopSense k s
      else if fld v 31 29 = 2 then startSense k s
      else s
    | none => s
  levelFire p s
/-- A pin runs the switch sequence from what it drives now. -/
def switchPin (p : Nat) (v : Word) (s : State) : State := switchFrom (drive s p) p v s
/-- Access to a pin's own registers: the owner, or the tenant that holds its bank (R438). -/
def pinAllow (s : State) (p pin : Nat) : Status := allow (p == 0 || bankBit s p (bankOfPin pin))
/-- A write that would change what a frozen region parks (R417). -/
def tornIf (b : Bool) : Status := if b then stTorn else stOk
/-- Whether a PIN_CFG value is one the pin may hold (R406, R410, R442). -/
def pinCfgOk (s : State) (p : Nat) (v : Word) : Bool := !pairedOdd s p && roleOk p v
/-- What a PIN_CFG write answers: a parked pin keeps its configuration (R417). -/
def pinCfgStatus (s : State) (port p : Nat) (v : Word) : Status :=
  firstBad [pinAllow s port p, within (pinCfgOk s p v),
    tornIf ((pinSt s p).park.isSome && written .pinCfg (pinCfg s p) v != pinCfg s p)]
/-- PIN_CFG takes its fields; a change of function, unit or role switches the pin (R413). -/
def putPinCfg (p : Nat) (v : Word) (s : State) : State :=
  let new := written .pinCfg (pinCfg s p) v
  if fld new 31 21 = fld (pinCfg s p) 31 21 then s.setReg .pinCfg p new else switchPin p new s
/-- FUNCTION_SWITCH: a PIN_CFG write (R413, R442). -/
def pinCfgWrite (port p : Nat) (v : Word) (s : State) : State :=
  checked [pinCfgStatus s port p v] (fun s => putPinCfg p v (wakeIsl 4 (bankOfPin p) s)) s
def execFunctionSwitch (port : Fin 4) (pin : Fin 384) (val : Word) (s : State) : Host.Outcome State Fault Refusal :=
  .next (served (pinCfgWrite port pin val) s)
/-- The pins of a bank. -/
def bankPins (b : Nat) : List Nat := (List.range 48).map (fun n => 48 * b + n)
/-- An STD of banks that may have LVDS pairs (R406). -/
def pairStd (v : Word) : Bool := fld v 31 29 == 2 || fld v 31 29 == 3
/-- R405, R406: a PIN_BANK_CFG value that may be written while `old` stands. LVDS bits need an STD for pairs both in force and in
the value. -/
def bankCfgOk (old : Word) (b : Nat) (v : Word) : Bool :=
  decide (fld v 31 29 ≤ 4) && (fld v 23 0 == 0 || (decide (b < 4) && pairStd old && pairStd v))
/-- A pin's role is settled anew: the N side of a pair claims none (R406, R411). -/
def settlePin (p : Nat) (s : State) : State :=
  let v := pinCfg s p
  let s := if pairedOdd s p then setConflict p false s else s
  emptyQd v (settleRole (fld v 31 29) (fld v 28 25) (fld v 24 21) s)
/-- PIN_BANK_CFG takes its fields; a change switches every pin of the bank (R440). -/
def putBankCfg (b : Nat) (v : Word) (s : State) : State :=
  if written .pinBankCfg (s.reg .pinBankCfg b) v = s.reg .pinBankCfg b then s
  else
    let s := forEach (bankPins b) (fun p s => switchPin p (pinCfg s p) s) (s.putFields 0 .pinBankCfg b 0 v)
    forEach (bankPins b) settlePin s
/-- PIN_BANK_CFG_WRITE (R440). -/
def bankCfgWrite (port b : Nat) (v : Word) (s : State) : State :=
  ownerOnly port (checked [within (bankCfgOk (s.reg .pinBankCfg b) b v)] (fun s => putBankCfg b v (wakeIsl 4 b s))) s
def execPinBankCfgWrite (port : Fin 4) (b : Fin 8) (val : Word) (s : State) : Host.Outcome State Fault Refusal :=
  .next (served (bankCfgWrite port b val) s)

/-! ## Supplies (R407) -/

/-- VIOB_FAULT. -/
def viobLost (b : Nat) (s : State) : State :=
  if viobOk s b then
    let s := s.onPins (fun x => { x with viobOk := removeNat b x.viobOk })
    if (bankPins b).all (fun p => pinFunc s p == 7) then s else notify 0xB3 (bankDom s b).val [w32 b] s
  else s
def execViobFault (b : Fin 8) (s : State) : Host.Outcome State Fault Refusal := .next (viobLost b s)
/-- VIOB_RESTORE: every pin of the bank switches from high impedance into its function. -/
def viobBack (b : Nat) (s : State) : State :=
  if viobOk s b then s
  else
    let s := s.onPins (fun x => { x with viobOk := insertNat b x.viobOk })
    if s.fab.released then forEach (bankPins b) (fun p s => switchFrom (false, false) p (pinCfg s p) s) s else s
def execViobRestore (b : Fin 8) (s : State) : Host.Outcome State Fault Refusal := .next (viobBack b s)

/-! ## Detector registers -/

/-- Events of a pin on their way to its gateway's next packets. -/
def outstanding (s : State) (p : Nat) : Nat := (pinSt s p).pulses + (xing s (pinXing p)).pending
/-- Whether a PIN_EVT value is one the detector may hold (R422). -/
def pinEvtOk (s : State) (p : Nat) (v : Word) : Bool :=
  !pairedOdd s p && decide (fld v 31 29 < 6 ∧ fld v 21 17 ≠ 31 ∧ fld v 11 0 < 3968)
/-- The domain of a pin may address the event's DEST (R424). -/
def pinDestOk (s : State) (p : Nat) (v : Word) : Bool :=
  let d := bankDom s (bankOfPin p)
  d == 0 || tileDom s (fld v 11 0) == d
/-- What a PIN_EVT write answers. -/
def pinEvtStatus (s : State) (port p : Nat) (v : Word) : Status :=
  firstBad [pinAllow s port p, within (pinEvtOk s p v), allow (pinDestOk s p v),
    tornIf ((pinSt s p).park.isSome && written .pinEvt (pinEvt s p) v != pinEvt s p)]
/-- PIN_EVT takes its fields: the events on their way keep the old value, the detector samples anew and arms (R423). -/
def putPinEvt (p : Nat) (v : Word) (s : State) : State :=
  let old := pinEvt s p
  let x := pinSt s p
  let l := x.oldEvts ++ List.replicate (outstanding s p - x.oldEvts.length) old
  rearm p ((s.setReg .pinEvt p (written .pinEvt old v)).setPin p { x with oldEvts := l, resample := true, armed := false })
/-- PIN_EVT_WRITE (R422–R424, R427, R442). -/
def pinEvtWrite (port p : Nat) (v : Word) (s : State) : State :=
  checked [pinEvtStatus s port p v] (fun s => putPinEvt p v (wakeIsl 4 (bankOfPin p) s)) s
def execPinEvtWrite (port : Fin 4) (pin : Fin 384) (val : Word) (s : State) : Host.Outcome State Fault Refusal :=
  .next (served (pinEvtWrite port pin val) s)
/-- PIN_ARM (R423). -/
def pinArm (port p : Nat) (s : State) : State := checked [pinAllow s port p] (fun s => rearm p (wakeIsl 4 (bankOfPin p) s)) s
def execPinArm (port : Fin 4) (pin : Fin 384) (s : State) : Host.Outcome State Fault Refusal := .next (served (pinArm port pin) s)
/-- The access status of a bank register. -/
def bankAllow (s : State) (p b : Nat) : Status := allow (p == 0 || bankBit s p b)
/-- The pins whose bits are 1 in the low or high half of a bank's register. -/
def halfPins (b : Nat) (hi : Bool) (v : Word) : List Nat :=
  ((List.range (if hi then 16 else 32)).filter (bitOf v)).map (fun n => 48 * b + (if hi then 32 else 0) + n)
/-- PIN_PEND_CLEAR (R423). -/
def pendClear (port b : Nat) (hi : Bool) (v : Word) (s : State) : State :=
  checked [bankAllow s port b] (fun s =>
    let old := s.regP 0 .pinPend b (b2n hi)
    forEach (halfPins b hi (old &&& v)) rearm ((wakeIsl 4 b s).setRegP 0 .pinPend b (b2n hi) (old &&& ~~~v))) s
def execPinPendClear (port : Fin 4) (b : Fin 8) (hi : Bool) (val : Word) (s : State) : Host.Outcome State Fault Refusal :=
  .next (served (pendClear port b hi val) s)

/-! ## Host outputs (R428) -/

/-- The bits of a bank's half that are parked (R417). -/
def parkedBits (s : State) (b : Nat) (hi : Bool) : Word :=
  (halfPins b hi 0xFFFFFFFF).foldl (fun w p => if (pinSt s p).park.isSome then putBit w (p % 48 % 32) true else w) 0
/-- The bits that a half's register holds. -/
def halfBits (hi : Bool) (v : Word) : Word := if hi then v &&& 0xFFFF else v
/-- TORN where a write would change the bit of a parked pin (R417). -/
def hostOutTorn (s : State) (r : Reg) (b : Nat) (hi : Bool) (v : Word) : Status :=
  tornIf ((halfBits hi v ^^^ s.regP 0 r b (b2n hi)) &&& parkedBits s b hi != 0)
/-- A host output register takes its bits; those of parked pins stand (R417, R428). -/
def putHostOut (r : Reg) (b : Nat) (hi : Bool) (v : Word) (s : State) : State :=
  let held := parkedBits s b hi
  s.setRegP 0 r b (b2n hi) ((halfBits hi v &&& ~~~held) ||| (s.regP 0 r b (b2n hi) &&& held))
/-- Give a host output or direction register a value: parked bits stay, with TORN where they would change. A stopped bank wakes
(R431). -/
def hostOut (r : Reg) (port b : Nat) (hi : Bool) (f : Word → Word) (s : State) : State :=
  if firstBad [bankAllow s port b] = stOk then
    let new := f (s.regP 0 r b (b2n hi))
    (putHostOut r b hi new (wakeIsl 4 b s)).stat (hostOutTorn s r b hi new)
  else s.stat stDenied
def pinOutWrite (port b : Nat) (hi : Bool) (v : Word) (s : State) : State := hostOut .pinOut port b hi (fun _ => v) s
def execPinOutWrite (port : Fin 4) (b : Fin 8) (hi : Bool) (val : Word) (s : State) : Host.Outcome State Fault Refusal :=
  .next (served (pinOutWrite port b hi val) s)
def pinSetBits (port b : Nat) (hi : Bool) (v : Word) (s : State) : State := hostOut .pinOut port b hi (fun o => o ||| v) s
def execPinSet (port : Fin 4) (b : Fin 8) (hi : Bool) (val : Word) (s : State) : Host.Outcome State Fault Refusal :=
  .next (served (pinSetBits port b hi val) s)
def pinClrBits (port b : Nat) (hi : Bool) (v : Word) (s : State) : State := hostOut .pinOut port b hi (fun o => o &&& ~~~v) s
def execPinClr (port : Fin 4) (b : Fin 8) (hi : Bool) (val : Word) (s : State) : Host.Outcome State Fault Refusal :=
  .next (served (pinClrBits port b hi val) s)
def pinTglBits (port b : Nat) (hi : Bool) (v : Word) (s : State) : State := hostOut .pinOut port b hi (fun o => o ^^^ v) s
def execPinTgl (port : Fin 4) (b : Fin 8) (hi : Bool) (val : Word) (s : State) : Host.Outcome State Fault Refusal :=
  .next (served (pinTglBits port b hi val) s)
def pinDirWrite (port b : Nat) (hi : Bool) (v : Word) (s : State) : State := hostOut .pinDir port b hi (fun _ => v) s
def execPinDirWrite (port : Fin 4) (b : Fin 8) (hi : Bool) (val : Word) (s : State) : Host.Outcome State Fault Refusal :=
  .next (served (pinDirWrite port b hi val) s)

/-! ## Event packets (R425) -/

/-- PIN_EVENT_SEND. -/
def pinSend (p : Nat) (s : State) : State :=
  let x := pinSt s p
  let b := bankOfPin p
  let pt := portOf s (.pin b) 0
  let d := bankDom s b
  if 0 < x.pulses ∧ gateFree s pt d ∧ coreLive s ∧ !s.pins.asleep then
    let e := x.oldEvts.headD (pinEvt s p)
    let mode := fld e 31 29
    let level :=
      if mode = 1 ∨ mode = 4 then true
      else if mode = 2 ∨ mode = 5 then false
      else if x.ovr || x.resample then x.level
      else !x.evLevel
    let w := w32 (place 29 3 mode + place 28 1 (b2n level) + place 27 1 (b2n x.ovr) + p)
    let pk : Packet := { dest := BitVec.ofNat 16 (fld e 11 0), slot := BitVec.ofNat 5 (fld e 21 17), op := 0, tag := 0,
                         src := BitVec.ofNat 16 (0x1050 + b), status := 0, dom := d, vc := false, words := [w] }
    queueOut pt pk (s.setPin p { x with pulses := x.pulses - 1, oldEvts := x.oldEvts.drop 1, ovr := false, resample := false,
                                        evLevel := level })
  else s
def execPinEventSend (pin : Fin 384) (s : State) : Host.Outcome State Fault Refusal := .next (pinSend pin s)

/-! ## Crossing rows for pulses -/

/-- The key of a crossing named by an operand. -/
def xidKey (x : XId) : Nat := xkey x.isl.code.val x.isl.index.val x.kind.val x.out x.sub.val
def pulseArrive (x : XId) (s : State) : State := if x.kind = 2 then pulseIn (xidKey x) s else s
/-- PULSE_ARRIVAL (R386). -/
def execPulseArrival (x : XId) (s : State) : Host.Outcome State Fault Refusal := .next (pulseArrive x s)
def pulseComplete (x : XId) (s : State) : State := if x.kind = 2 then pulseDone (xidKey x) s else s
/-- PULSE_DELIVERY_DONE (R386). -/
def execPulseDeliveryDone (x : XId) (s : State) : Host.Outcome State Fault Refusal := .next (pulseComplete x s)

/-! ## Loads, resets and power (R416–R420) -/

/-- The image's bit for a pin in a bank's register pair. -/
def imageBit (s : State) (r : Reg) (p : Nat) : Bool := bitOf (imageReg s r (bankOfPin p) (p % 48 / 32)) (p % 48 % 32)
/-- F1 pins take the image's output value and enable. -/
def imageFab (p : Nat) (s : State) : State :=
  s.setPin p { pinSt s p with fabOut := imageBit s .pinOut p, fabOe := imageBit s .pinDir p }
/-- A pin, which drives `d` until then, enters its function at I/O or region release (R416, R417): its level detector is armed. -/
def releasePin (d : Bool × Bool) (p : Nat) (s : State) : State :=
  let v := pinCfg s p
  let s := imageFab p (s.setPin p
    { pinSt s p with park := none, out := d.1, oe := d.2, evLevel := keptLevel s p })
  let s := settleRole (fld v 31 29) (fld v 28 25) (fld v 24 21) (freshQd v s)
  let s := match senseOf p with
    | some k => if fld v 31 29 = 2 then startSense k s else s
    | none => s
  rearm p s
/-- Discard the events of a pin that wait for the fabric, counting them lost (R418). -/
def dropPinEvents (p : Nat) (s : State) : State :=
  let n := outstanding s p
  if n = 0 then s
  else
    let s := s.setXing (pinXing p) { xing s (pinXing p) with busy := false, pending := 0, overrun := false }
    losePin p n (s.setPin p { pinSt s p with pulses := 0, oldEvts := [] })
/-- A fabric reset, or a domain reset with `host`, on the pins of the banks that `inBank` names (R418). -/
def resetPins (inBank : Nat → Bool) (host : Bool) (s : State) : State :=
  forEach ((List.range 384).filter (fun p => inBank (bankOfPin p))) (fun p s =>
    let s := if pinFunc s p = 1 then imageFab p s else s
    let s := if host && pinFunc s p == 0 then
        let b := bankOfPin p
        let j := p % 48 / 32
        let put (r : Reg) (s : State) : State :=
          s.setRegP 0 r b j (putBit (s.regP 0 r b j) (p % 48 % 32) (imageBit s r p))
        put .pinDir (put .pinOut s)
      else s
    let s := dropPinEvents p s
    if bitOf (pinEvt s p) 22 then rearm p s else s) s
/-- Pins enter their sleep states (R420); a pin whose SLEEP holds keeps what it drives. Sense capture has stopped (R279). -/
def sleepPins (s : State) : State :=
  let s := forEach ((List.range 384).filter (fun p => fld (pinCfg s p) 13 12 == 3)) (fun p s =>
    let d := drive s p
    s.setPin p { pinSt s p with out := d.1, oe := d.2 }) s
  s.nextFree.onPins (fun x => { x with asleep := true })
/-- Pins take their functions again (R420): an armed level detector whose pin is at its level fires then (R414). -/
def wakePins (s : State) : State :=
  forEach (List.range 384) (fun p s => levelFire p s)
    (s.onPins (fun x => { x with asleep := false, pins := x.pins.map (fun e => (e.1, { e.2 with evLevel := keptLevel s e.1 })) }))
/-- Sense capture stops for Doze or Park: a POWER notice opens in the spools of pins that capture; an edge whose window is open is
discarded and counts for no glitch (R279; DESIGN CHOICE, notes/assumptions/85.md). -/
def stopSenses (s : State) : State :=
  forEach ((List.range 64).filter (fun k => (sense s k).capture)) (fun k s =>
    openGap 4 none none true (2048 + k) (s.setSense k { open_ := none, capture := false })) s
/-- Capture resumes on wake. -/
def wakeSenses (s : State) : State :=
  forEach ((List.range 64).filter (fun k => pinFunc s (pinOfSense k) == 2)) (fun k s =>
    endCauses [4] (2048 + k) (startSense k s)) s

end Sys2Proof.Machine
end

