-- ==== Sys2Proof/Machine/Units.lean ====
section
/-! DEFINITION. Units: PWM channels (R432, R443), SPI and I²C controllers (R433–R436, R444) and the fabric's operations
through the pin gateways (R429, R430). -/
namespace Sys2Proof.Machine

/-! ## PWM (R432, R443) -/

/-- A PWM channel. -/
def pwm (s : State) (c : Nat) : PwmSt := s.pins.pwm.get PwmSt.init c
/-- Store it. -/
def State.setPwm (s : State) (c : Nat) (x : PwmSt) : State :=
  s.onPins (fun y => { y with pwm := y.pwm.set PwmSt.init c x })
/-- The channel begins a period with the shadow's values. -/
def pwmBegin (c : Nat) (s : State) : State :=
  s.setPwm c { period := (s.reg .pwmPeriod c).setWidth 24, duty := (s.reg .pwmDuty c).setWidth 24, pending := false,
               running := true, waitTbsync := false, start := s.now }
/-- PWM_PERIOD_BOUNDARY. -/
def pwmBoundary (c : Nat) (s : State) : State := if (pwm s c).running && !s.pins.asleep then pwmBegin c s else s
def execPwmPeriodBoundary (c : Fin 16) (s : State) : Host.Outcome State Fault Refusal := .next (pwmBoundary c s)
/-- A channel is enabled: at once, or aligned to the next TBSYNC value. -/
def pwmEnable (c : Nat) (s : State) : State :=
  if bitOf (s.reg .pwmCfg c) 30 then s.setPwm c { pwm s c with waitTbsync := true } else pwmBegin c s
/-- PWM_CFG takes its fields; EN starts or stops the channel (R432). -/
def putPwmCfg (c : Nat) (v : Word) (s : State) : State :=
  let was := bitOf (s.reg .pwmCfg c) 31
  let s := s.putFields 0 .pwmCfg c 0 v
  match was, bitOf v 31 with
  | false, true => pwmEnable c s
  | true, false => s.setPwm c { pwm s c with running := false, waitTbsync := false }
  | _, _ => s
/-- A PWM period is 2 bank-clock cycles or more (R443). -/
def pwmPeriodOk (v : Word) : Bool := decide (2 ≤ fld v 23 0)
/-- An SPI divider is not 0 (R444). -/
def spiCfgOk (v : Word) : Bool := decide (fld v 7 0 ≠ 0)
/-- I²C SPEED 3 is reserved (R444). -/
def i2cCfgOk (v : Word) : Bool := decide (fld v 27 26 ≠ 3)
/-- PWM_CFG_WRITE. -/
def pwmCfgWrite (port c : Nat) (v : Word) (s : State) : State :=
  checked [allow (unitReach s port 3 c)] (putPwmCfg c v) s
def execPwmCfgWrite (port : Fin 4) (c : Fin 16) (val : Word) (s : State) : Host.Outcome State Fault Refusal :=
  .next (served (pwmCfgWrite port c val) s)
/-- A value enters a shadow register and waits for the boundary of a running channel. -/
def pwmShadow (r : Reg) (c : Nat) (v : Word) (s : State) : State :=
  let s := s.putFields 0 r c 0 v
  s.setPwm c { pwm s c with pending := (pwm s c).running }
/-- PWM_DUTY_WRITE. -/
def pwmDutyWrite (port c : Nat) (v : Word) (s : State) : State :=
  checked [allow (unitReach s port 3 c), busyIf (bitOf (s.reg .pwmCfg c) 28)] (pwmShadow .pwmDuty c v) s
def execPwmDutyWrite (port : Fin 4) (c : Fin 16) (val : Word) (s : State) : Host.Outcome State Fault Refusal :=
  .next (served (pwmDutyWrite port c val) s)
/-- PWM_PERIOD_WRITE (R443). -/
def pwmPeriodWrite (port c : Nat) (v : Word) (s : State) : State :=
  checked [allow (unitReach s port 3 c), within (pwmPeriodOk v)] (pwmShadow .pwmPeriod c v) s
def execPwmPeriodWrite (port : Fin 4) (c : Fin 16) (val : Word) (s : State) : Host.Outcome State Fault Refusal :=
  .next (served (pwmPeriodWrite port c val) s)
/-- A TBSYNC value starts the channels that wait for it (R432). -/
def pwmAlign (s : State) : State :=
  forEach ((List.range 16).filter (fun c => (pwm s c).waitTbsync)) pwmBegin s

/-! ## Transfers -/

/-- Units take new transfers: from the request of Doze or Park until the wake they take none (R420, R436). -/
def unitsRun (s : State) : Bool := !s.pins.asleep && s.pwr.entering.isNone

/-- The bytes of a unit's DATA registers. -/
def unitBytes (s : State) (r : Reg) (u n : Nat) : List Byte :=
  bytesOfWords ((List.range n).map (fun j => s.regP 0 r u j))
/-- Write words into a unit's DATA registers from number `j`. -/
def putData (r : Reg) (u : Nat) : Nat → List Word → State → State
  | _, [], s => s
  | j, w :: t, s => putData r u (j + 1) t (s.setRegP 0 r u j w)
/-- Replace the first bytes of a unit's DATA registers. -/
def putBytesData (r : Reg) (u n : Nat) (bs : List Byte) (s : State) : State :=
  putData r u 0 (wordsOfBytes (bs ++ (unitBytes s r u n).drop bs.length)) s
/-- An input role of a unit reads 0: no pin claims it, or its pin's VIOB is out (R407, R411). -/
def roleDead (s : State) (f u r : Nat) : Bool := !(claimants s f u r).head?.any (fun p => viobOk s (bankOfPin p))
/-- Received bytes: as many as were asked for. -/
def takeBytes (n : Nat) (rx : List Byte) : List Byte := (rx ++ List.replicate n 0).take n
/-- What a transfer receives on input role `r`, where `rx` is what comes at its pin. Where no pin holds the role any more, the bytes
from its leaving on are its last accepted level (R415); how many came before that is a free value. -/
def received (s : State) (f u r : Nat) (t : XferSt) (n : Nat) (rx : List Byte) : List Byte :=
  if !roleDead s f u r then takeBytes n rx
  else if t.deaf then List.replicate n 0
  else
    let k := (s.freeAt 0).toNat % (n + 1)
    takeBytes k rx ++ List.replicate (n - k) (if t.held.getD false then 0xFF else 0)
/-- PIN_XFER_DONE of a host transfer (R437): kind 0 SPI, 1 I²C (notes/assumptions/20.md). -/
def xferDone (f kind u : Nat) (st : Status) (cause : Nat) (s : State) : State :=
  notify 0xB4 (unitDom s f u) [w32 kind, w32 u, w32 st.toNat, w32 cause] s
/-- The answer to the request of a fabric transfer. -/
def unitAnswer (req : Packet) (st : Status) (s : State) : State :=
  if req.op == 4 && st != stOk then refuseAtExit req st s else answer req st [] s

/-! ## SPI (R433, R434) -/

/-- What a transfer's control word asks that cannot be: RANGE. -/
def spiRange (s : State) (u : Nat) (ctl : Word) : Status :=
  within (decide (1 ≤ fld ctl 6 0 ∧ fld ctl 6 0 ≤ 64) && !(claimants s 5 u 0).isEmpty && !(claimants s 5 u (3 + fld ctl 29 27)).isEmpty)
/-- Whether the controller cannot take a transfer of the fabric (`fab`) or the host now (R430, R434, R436). -/
def spiBusy (s : State) (u : Nat) (fab : Bool) : Status :=
  busyIf (bitOf (s.reg .spiCfg u) 31 != fab || laneHolds s u || (s.pins.spi.find u).isSome || !unitsRun s)
/-- A transfer starts. -/
def spiStart (u : Nat) (ctl : Word) (fab : Option (Packet × Nat)) (s : State) : State :=
  let s := s.onPins (fun x => { x with spi := x.spi.put u { ctl := ctl, fabric := fab, discard := false, deaf := roleDead s 5 u 2, held := none }, heldCs := x.heldCs.erase u,
                                       spiMode := x.spiMode.put u (s.reg .spiCfg u) })
  s.setReg .spiStat u 0xC0000000
/-- SPI_TRANSFER_START: SPI_CMD with GO. -/
def spiCmd (port u : Nat) (v : Word) (s : State) : State :=
  if bitOf v 31 then
    checked [allow (unitReach s port 5 u), spiRange s u v, spiBusy s u false] (spiStart u v none) s
  else checked [allow (unitReach s port 5 u)] (fun s => s) s
def execSpiTransferStart (port : Fin 4) (u : Fin 8) (val : Word) (s : State) : Host.Outcome State Fault Refusal :=
  .next (served (spiCmd port u val) s)
/-- SPI_TRANSFER_END. A controller whose MISO reads 0 receives zeros (R407, R411, R415). -/
def spiEnd (u : Nat) (rx : List Byte) (s : State) : State :=
  match s.pins.spi.find u with
  | none => s
  | some t =>
    let n := fld t.ctl 6 0
    let rx := received s 5 u 2 t n rx
    let s := s.nextFree.onPins (fun x =>
      { x with spi := x.spi.erase u, heldCs := if bitOf t.ctl 30 then x.heldCs.put u (fld t.ctl 29 27 + 1) else x.heldCs })
    match t.fabric with
    | some (req, _) =>
      if t.discard then s.setReg .spiStat u (0x40000000 + w32 stStale.toNat)
      else unitAnswer req stOk ((putBytesData .spiData u 16 rx s).setReg .spiStat u 0x40000000)
    | none =>
      let st := if t.discard then stStale else stOk
      xferDone 5 0 u st 0 ((putBytesData .spiData u 16 rx s).setReg .spiStat u (0x40000000 + w32 st.toNat))
def execSpiTransferEnd (u : Fin 8) (rx : List Byte) (s : State) : Host.Outcome State Fault Refusal := .next (spiEnd u rx s)
/-- An SPI_CFG write (R444). -/
def spiCfgWrite (port u : Nat) (v : Word) (s : State) : State :=
  checked [allow (unitReach s port 5 u), within (spiCfgOk v)] (fun s => s.putFields 0 .spiCfg u 0 v) s

/-! ## I²C (R435) -/

def i2cRange (ctl : Word) : Status := within (decide (fld ctl 11 6 ≤ 32 ∧ fld ctl 5 0 ≤ 32))
def i2cBusy (s : State) (u : Nat) (fab : Bool) : Status :=
  busyIf (bitOf (s.reg .i2cCfg u) 31 != fab || (s.pins.i2c.find u).isSome || !unitsRun s)
def i2cStart (u : Nat) (ctl : Word) (fab : Option (Packet × Nat)) (s : State) : State :=
  let s := s.onPins (fun x => { x with i2c := x.i2c.put u { ctl := ctl, fabric := fab, discard := false, deaf := roleDead s 6 u 1, held := none } })
  s.setReg .i2cStat u 0xC0000000
/-- I2C_TRANSFER_START: I2C_CMD with GO. -/
def i2cCmd (port u : Nat) (v : Word) (s : State) : State :=
  if bitOf v 31 then
    checked [allow (unitReach s port 6 u), i2cRange v, i2cBusy s u false] (i2cStart u v none) s
  else checked [allow (unitReach s port 6 u)] (fun s => s) s
def execI2cTransferStart (port : Fin 4) (u : Fin 4) (val : Word) (s : State) : Host.Outcome State Fault Refusal :=
  .next (served (i2cCmd port u val) s)
/-- The transfer in progress ends with a cause of R435, `xferred` bytes acknowledged. -/
def i2cEnd (u cause xferred : Nat) (rx : List Byte) (s : State) : State :=
  match s.pins.i2c.find u with
  | none => s
  | some t =>
    let n := if bitOf t.ctl 30 then fld t.ctl 11 6 else 0
    let st := if cause = 0 then stOk else stFault
    let stat (st : Status) : Word := w32 (place 30 1 1 + place 16 6 xferred + place 8 4 cause + st.toNat)
    let rx := received s 6 u 1 t n rx
    let s := s.nextFree.onPins (fun x => { x with i2c := x.i2c.erase u })
    let got (s : State) : State := if cause = 0 then putBytesData .i2cData u 8 rx s else s
    match t.fabric with
    | some (req, _) =>
      if t.discard then s.setReg .i2cStat u (stat stStale) else unitAnswer req st ((got s).setReg .i2cStat u (stat st))
    | none =>
      let st := if t.discard then stStale else st
      xferDone 6 1 u st cause ((got s).setReg .i2cStat u (stat st))
/-- I2C_TRANSFER_END: the causes 0x6 to 0xF are never recorded (R435). -/
def i2cFinish (u : Nat) (cause : BitVec 4) (xferred : BitVec 6) (rx : List Byte) (s : State) : State :=
  if cause.toNat < 6 then i2cEnd u cause.toNat xferred.toNat rx s else s
def execI2cTransferEnd (u : Fin 4) (cause : BitVec 4) (xferred : BitVec 6) (rx : List Byte) (s : State) :
    Host.Outcome State Fault Refusal := .next (i2cFinish u cause xferred rx s)
/-- STRETCH_TIMEOUT (R435). -/
def stretchEnd (u : Nat) (xferred : BitVec 6) (s : State) : State := i2cEnd u 4 xferred.toNat [] s
def execStretchTimeout (u : Fin 4) (xferred : BitVec 6) (s : State) : Host.Outcome State Fault Refusal :=
  .next (stretchEnd u xferred s)
/-- An I2C_CFG write (R444). -/
def i2cCfgWrite (port u : Nat) (v : Word) (s : State) : State :=
  checked [allow (unitReach s port 6 u), within (i2cCfgOk v)] (fun s => s.putFields 0 .i2cCfg u 0 v) s
/-- A write of an SPI_DATA or I2C_DATA register. -/
def unitDataWrite (r : Reg) (f port u j : Nat) (v : Word) (s : State) : State :=
  checked [allow (unitReach s port f u)] (fun s => s.setRegP 0 r u j v) s
/-- A fabric reset on units, or a domain reset with `host` (R418): transfers of the fabric are discarded, the host's end
with STALE; PWM channels of the fabric, and with `host` the host's, take the image's DUTY and PERIOD. -/
def resetUnits (reach : Nat → Nat → Bool) (host : Bool) (s : State) : State :=
  let drop (f : Nat) (e : Nat × XferSt) : Nat × XferSt :=
    if reach f e.1 && (e.2.fabric.isSome || host) then (e.1, { e.2 with discard := true }) else e
  let s := s.onPins (fun x => { x with spi := x.spi.map (drop 5), i2c := x.i2c.map (drop 6) })
  forEach ((List.range 16).filter (fun c => (bitOf (s.reg .pwmCfg c) 28 || host) && reach 3 c)) (fun c s =>
    let s := (s.setReg .pwmPeriod c (imageReg s .pwmPeriod c 0)).setReg .pwmDuty c (imageReg s .pwmDuty c 0)
    s.setPwm c { pwm s c with period := (s.reg .pwmPeriod c).setWidth 24, duty := (s.reg .pwmDuty c).setWidth 24, pending := false }) s
/-- Whether a transfer runs: it holds an entry to Doze or Park (R436, R580). -/
def xferRunning (s : State) : Bool := !s.pins.spi.isEmpty || !s.pins.i2c.isEmpty

/-! ## Pin gateways (R429, R430) -/

/-- SEL of a request. -/
def selOfReq (p : Packet) : Nat := fld (p.words.getD 0 0) 7 0
/-- Whether R429's table has a SEL. -/
def selKnown (n : Nat) : Bool := decide (n ≤ 2 ∨ (16 ≤ n ∧ n < 32) ∨ (32 ≤ n ∧ n < 40) ∨ (48 ≤ n ∧ n < 52))
/-- Gateway `b` serves its requests in the order of their arrival (R431): the first, where it is domain `d`'s and `mine` holds of
it; `act` does it. -/
def gateServe (b d : Nat) (mine : Packet → Bool) (act : Packet → State → State) (s : State) : State :=
  let pt := portOf s (.pin b) 0
  match firstReq s pt with
  | some p => if p.dom.val = d && mine p then act p (takeHead pt d s) else s
  | none => s
/-- A read request with SEL in a range. -/
def readSel (lo hi : Nat) (p : Packet) : Bool := p.op == 2 && decide (lo ≤ selOfReq p ∧ selOfReq p ≤ hi)
/-- A write request with SEL in a range. -/
def writeSel (lo hi : Nat) (p : Packet) : Bool := (p.op == 3 || p.op == 4) && decide (lo ≤ selOfReq p ∧ selOfReq p ≤ hi)
/-- Refuse with the first status that is not OK, else `act`. -/
def gateChecked (p : Packet) (l : List Status) (act : State → State) (s : State) : State :=
  if firstBad l = stOk then act s else refuseAtExit p (firstBad l) s
/-- A bank's 48 bits as two words. -/
def bankWords (b : Nat) (f : Nat → Bool) : List Word :=
  let half (lo n : Nat) : Word := (List.range n).foldl (fun w i => putBit w i (f (48 * b + lo + i))) 0
  [half 0 32, half 32 16]
/-- GATEWAY_PINS_READ; a read whose SEL the table does not have is refused with RANGE here. -/
def gwPinsRead (b d : Nat) (s : State) : State :=
  gateServe b d (fun p => p.op == 2 && (selOfReq p == 0 || selOfReq p == 2 || !selKnown (selOfReq p))) (fun p s =>
    gateChecked p [within (selOfReq p == 0 && p.words.length == 1)]
      (fun s => answer p stOk (bankWords b (pinLevel s) ++ bankWords b (fun i => (drive s i).1)) s.nextFree) s) s
def execGatewayPinsRead (b : Fin 8) (dom : Fin 4) (s : State) : Host.Outcome State Fault Refusal := .next (gwPinsRead b dom s)
/-- The pins of a bank that two mask words name. -/
def maskedPins (b : Nat) (lo hi : Word) : List Nat := halfPins b false lo ++ halfPins b true hi
/-- Put masked F1 pins' values by `f`; the others are ignored and counted (R417, R430). -/
def gwPut (f : Nat → Bool → State → State) (b : Nat) (p : Packet) (s : State) : State :=
  let w (i : Nat) : Word := p.words.getD i 0
  forEach (maskedPins b (w 1) (w 2)) (fun i s =>
    let v := if i % 48 < 32 then bitOf (w 3) (i % 48) else bitOf (w 4) (i % 48 - 32)
    if pinFunc s i = 1 ∧ (pinSt s i).park.isNone ∧ !pairedOdd s i then f i v s else s.bump .pinGwIgnored b 1) s
/-- GATEWAY_PINS_WRITE; a write whose SEL the table does not have is refused with RANGE here. -/
def gwPinsWrite (b d : Nat) (s : State) : State :=
  gateServe b d (fun p => (p.op == 3 || p.op == 4) && (selOfReq p == 0 || !selKnown (selOfReq p))) (fun p s =>
    gateChecked p [within (selOfReq p == 0 && p.words.length == 5)]
      (fun s => answer p stOk [] (gwPut (fun i v s => s.setPin i { pinSt s i with fabOut := v }) b p s)) s) s
def execGatewayPinsWrite (b : Fin 8) (dom : Fin 4) (s : State) : Host.Outcome State Fault Refusal := .next (gwPinsWrite b dom s)
/-- GATEWAY_OE_READ. -/
def gwOeRead (b d : Nat) (s : State) : State :=
  gateServe b d (readSel 1 1) (fun p s =>
    gateChecked p [within (p.words.length == 1)] (fun s => answer p stOk (bankWords b (fun i => (drive s i).2)) s.nextFree) s) s
def execGatewayOeRead (b : Fin 8) (dom : Fin 4) (s : State) : Host.Outcome State Fault Refusal := .next (gwOeRead b dom s)
/-- GATEWAY_OE_WRITE. -/
def gwOeWrite (b d : Nat) (s : State) : State :=
  gateServe b d (writeSel 1 1) (fun p s =>
    gateChecked p [within (p.words.length == 5)]
      (fun s => answer p stOk [] (gwPut (fun i v s => s.setPin i { pinSt s i with fabOe := v }) b p s)) s) s
def execGatewayOeWrite (b : Fin 8) (dom : Fin 4) (s : State) : Host.Outcome State Fault Refusal := .next (gwOeWrite b dom s)
/-- GATEWAY_REARM: masked pins that are not in F1, or that are parked, are ignored and counted (R430). -/
def gwRearm (b d : Nat) (s : State) : State :=
  gateServe b d (writeSel 2 2) (fun p s =>
    gateChecked p [within (p.words.length == 3)]
      (fun s => answer p stOk [] (gwPut (fun i _ s => rearm i s) b p s)) s) s
def execGatewayRearm (b : Fin 8) (dom : Fin 4) (s : State) : Host.Outcome State Fault Refusal := .next (gwRearm b dom s)
/-- GATEWAY_PWM_READ: PERIOD and DUTY. -/
def gwPwmRead (b d : Nat) (s : State) : State :=
  gateServe b d (readSel 16 31) (fun p s =>
    let c := selOfReq p - 16
    gateChecked p [allow (unitReach s d 3 c), within (p.words.length == 1)]
      (fun s => answer p stOk [s.reg .pwmPeriod c, s.reg .pwmDuty c] s) s) s
def execGatewayPwmRead (b : Fin 8) (dom : Fin 4) (s : State) : Host.Outcome State Fault Refusal := .next (gwPwmRead b dom s)
/-- GATEWAY_PWM_WRITE: DUTY. -/
def gwPwmWrite (b d : Nat) (s : State) : State :=
  gateServe b d (writeSel 16 31) (fun p s =>
    let c := selOfReq p - 16
    gateChecked p [allow (unitReach s d 3 c), within (p.words.length == 2), busyIf (!bitOf (s.reg .pwmCfg c) 28)]
      (fun s => answer p stOk [] (pwmShadow .pwmDuty c (p.words.getD 1 0) s)) s) s
def execGatewayPwmWrite (b : Fin 8) (dom : Fin 4) (s : State) : Host.Outcome State Fault Refusal := .next (gwPwmWrite b dom s)
/-- GATEWAY_SPI_READ: the status word and SPI_DATA0–15. -/
def gwSpiRead (b d : Nat) (s : State) : State :=
  gateServe b d (readSel 32 39) (fun p s =>
    let u := selOfReq p - 32
    gateChecked p [allow (unitReach s d 5 u), within (p.words.length == 1)]
      (fun s => answer p stOk (s.reg .spiStat u :: (List.range 16).map (fun j => s.regP 0 .spiData u j)) s) s) s
def execGatewaySpiRead (b : Fin 8) (dom : Fin 4) (s : State) : Host.Outcome State Fault Refusal := .next (gwSpiRead b dom s)
/-- GATEWAY_SPI_WRITE: the transfer starts; its answer comes when it ends. -/
def gwSpiWrite (b d : Nat) (s : State) : State :=
  gateServe b d (writeSel 32 39) (fun p s =>
    let u := selOfReq p - 32
    let ctl := p.words.getD 1 0
    gateChecked p [allow (unitReach s d 5 u), within (p.words.length == 2 + (fld ctl 6 0 + 3) / 4), spiRange s u ctl, spiBusy s u true]
      (fun s => spiStart u ctl (some (p, b)) (putData .spiData u 0 (p.words.drop 2) s)) s) s
def execGatewaySpiWrite (b : Fin 8) (dom : Fin 4) (s : State) : Host.Outcome State Fault Refusal := .next (gwSpiWrite b dom s)
/-- GATEWAY_I2C_READ: the status word and I2C_DATA0–7. -/
def gwI2cRead (b d : Nat) (s : State) : State :=
  gateServe b d (readSel 48 51) (fun p s =>
    let u := selOfReq p - 48
    gateChecked p [allow (unitReach s d 6 u), within (p.words.length == 1)]
      (fun s => answer p stOk (s.reg .i2cStat u :: (List.range 8).map (fun j => s.regP 0 .i2cData u j)) s) s) s
def execGatewayI2cRead (b : Fin 8) (dom : Fin 4) (s : State) : Host.Outcome State Fault Refusal := .next (gwI2cRead b dom s)
/-- GATEWAY_I2C_WRITE. -/
def gwI2cWrite (b d : Nat) (s : State) : State :=
  gateServe b d (writeSel 48 51) (fun p s =>
    let u := selOfReq p - 48
    let ctl := p.words.getD 1 0
    gateChecked p [allow (unitReach s d 6 u), within (p.words.length == 2 + (fld ctl 5 0 + 3) / 4), i2cRange ctl, i2cBusy s u true]
      (fun s => i2cStart u ctl (some (p, b)) (putData .i2cData u 0 (p.words.drop 2) s)) s) s
def execGatewayI2cWrite (b : Fin 8) (dom : Fin 4) (s : State) : Host.Outcome State Fault Refusal := .next (gwI2cWrite b dom s)

end Sys2Proof.Machine
end

