-- ==== Sys2Proof/Machine/Time.lean ====
section
/-! DEFINITION. Time: the timebase and its reference (R264–R269), sense capture (R274–R279), position counters
(R280–R285) and their registers (R287–R292). -/
namespace Sys2Proof.Machine

/-- Change the timebase. -/
def State.onTime (s : State) (f : TimeSt → TimeSt) : State := { s with time := f s.time }

/-! ## Reference (R266–R268) -/

/-- TIMEBASE_START. -/
def timeStart (s : State) : State := if s.time.locked then s else s.onTime (fun x => { x with locked := true, count := 0 })
def execTimebaseStart (s : State) : Host.Outcome State Fault Refusal := .next (timeStart s)
/-- The reference is lost; holdover begins unless it runs already. -/
def refGone (s : State) : State :=
  s.onTime (fun x => { x with refLost := true, holdover := true, holdStart := if x.holdover then x.holdStart else x.count })
/-- TBREF_START_TIMEOUT (R266). -/
def startTimeout (s : State) : State :=
  if s.time.locked then s else notifyOwner 0xA0 0 (tickPair 0) (refGone (timeStart s))
def execTbrefStartTimeout (s : State) : Host.Outcome State Fault Refusal := .next (startTimeout s)
/-- TBREF_LOST (R268). -/
def tbrefGone (s : State) : State :=
  if s.time.locked && !s.time.refLost then notifyOwner 0xA0 0 (tickPair s.now) ((refGone s).bump .timeRefCount 0 1) else s
def execTbrefLost (s : State) : Host.Outcome State Fault Refusal := .next (tbrefGone s)
/-- TBREF_BACK (R268). -/
def tbrefFound (s : State) : State := if s.time.refLost then s.onTime (fun x => { x with refLost := false }) else s
def execTbrefBack (s : State) : Host.Outcome State Fault Refusal := .next (tbrefFound s)
/-- HOLDOVER_END (R268). -/
def holdEnd (s : State) : State :=
  if s.time.holdover && !s.time.refLost then
    notifyOwner 0xA1 0 (tickPair s.now ++ tickPair (s.now - s.time.holdStart)) (s.onTime (fun x => { x with holdover := false }))
  else s
def execHoldoverEnd (s : State) : Host.Outcome State Fault Refusal := .next (holdEnd s)
/-- Whether bits [63:56] of the count are all 1 (R267). -/
def topSet (t : Tick) : Bool := t >>> 56 == 0xFF
/-- WRAP_NEAR (R267). -/
def nearWrap (s : State) : State :=
  if topSet s.now && !s.time.wrapNear then notifyOwner 0xA2 0 [] (s.onTime (fun x => { x with wrapNear := true })) else s
def execWrapNear (s : State) : Host.Outcome State Fault Refusal := .next (nearWrap s)
/-- TIMEBASE_WRAP (R267): the count stands at 0 after the wrap. -/
def wrap (s : State) : State :=
  if s.time.wrapNear then
    s.onTime (fun x => { x with wrapNear := false, count := if topSet x.count then 0 else x.count })
  else s
def execTimebaseWrap (s : State) : Host.Outcome State Fault Refusal := .next (wrap s)
/-- The next multiple of 2^k after the count. -/
def nextMultiple (k : Nat) (t : Tick) : Tick := (t >>> k + 1) <<< k
/-- The value at which a commanded tick falls: the count itself where it stands on a multiple not yet handled, else the
next multiple (notes/assumptions/5.md). -/
def dueAt (k : Nat) (count last : Tick) : Tick :=
  let here := (count >>> k) <<< k
  if here ≠ last ∧ tickLt last here ∧ (count - here).toNat < 256 then here else nextMultiple k count
/-- The count moves on to a value, if it has not passed it. -/
def advanceTo (t : Tick) (s : State) : State := s.onTime (fun x => { x with count := if tickLt x.count t then t else x.count })
/-- TIMEBASE_SNAPSHOT (R383). -/
def snapshot (s : State) : State :=
  if s.time.locked then
    let t := dueAt 12 s.now s.time.lastSnap
    agree 5 ((advanceTo t s).onTime (fun x => { x with snap := t, lastSnap := t }))
  else s
def execTimebaseSnapshot (s : State) : Host.Outcome State Fault Refusal := .next (snapshot s)
/-- TBSYNC_EN_WRITE (R271, R290). -/
def tbsyncWrite (p : Nat) (v : Word) (s : State) : State := ownerOnly p (okAfter (fun s => s.putFields 0 .timeTbsync 0 0 v)) s
def execTbsyncEnWrite (port : Fin 4) (val : Word) (s : State) : Host.Outcome State Fault Refusal := .next (served (tbsyncWrite port val) s)
/-- TIME_NOW_READ (R289, R384). -/
def nowRead (p : Nat) (s : State) : State :=
  let l := accepted s 5 0
  readFrom 5 0 [l.getD 0 0 &&& 0xFFFFFF00] (s.setRegP p .timeNowHi 0 0 (l.getD 1 0))
def execTimeNowRead (port : Fin 4) (s : State) : Host.Outcome State Fault Refusal := .next (servedRead (nowRead port) s)

/-! ## Position counters (R280–R285) -/

/-- R281: port or domain `d` may reach counter `q`. -/
def qdReach (s : State) (d q : Nat) : Bool := unitReach s d 4 q
/-- The domain of a counter's packets (R284). -/
def qdPktDom (s : State) (q : Nat) : Fin 4 := if (unitPins s 4 q).isEmpty then 0 else bankDom s (homeBank s q)
/-- TIME_QD_CFG. -/
def qdCfg (s : State) (q : Nat) : Word := s.reg .timeQdCfg q
/-- A missed sample of a full queue (R284). -/
def missSample (q : Nat) (s : State) : State :=
  notifyOnce 0xA6 q (qdPktDom s q).val 1 [w32 q] (sampleMissed q s)
/-- The count that stood at a time: before the first change after it, of those of the last 256 bank cycles (163,840 ticks). -/
def QdSt.countAt (x : QdSt) (t : Tick) : Word :=
  match x.hist.reverse.find? (fun e => tickLt t e.1) with
  | some e => e.2
  | none => x.count
/-- The count changes; what stood before is kept for 256 bank cycles (R283). -/
def setCount (q : Nat) (c : Word) (s : State) : State :=
  let x := qd s q
  let l := x.hist.filter (fun e => decide ((s.now - e.1).toNat < 163840))
  s.setQd q { x with count := c, hist := if l.any (fun e => e.1 == s.now) then l else (s.now, x.count) :: l }
/-- The bank cycle of a time: 640 ticks. -/
def bankCycle (t : Tick) : Nat := t.toNat / 640
/-- A trigger at time `t` falls on the bank cycle of the last sample, whose causes do not hold it yet (R283). -/
def sameCycle (x : QdSt) (cause : Nat) (t : Tick) : Bool :=
  match x.cycle with
  | some (c, l) => c == bankCycle t && l &&& cause == 0
  | none => false
/-- The last sample gains a cause: the entry that it made in the queue, if it stands there still, shows it. -/
def addCause (x : QdSt) (cause : Nat) : QdSt :=
  let q := match x.q.items.getLast?, x.cycle with
    | some (w, c, t), some (b, _) =>
      if bankCycle t = b then { x.q with items := x.q.items.dropLast ++ [(w ||| w32 (place 27 5 cause), c, t)] } else x.q
    | _, _ => x.q
  { x with q := q, cycle := x.cycle.map (fun e => (e.1, e.2 ||| cause)) }
/-- A sample (R283, R284); `cause` as word 0's bits [31:27]. Its count is the one that stood at its time. Triggers that fall on one
bank cycle yield one sample (notes/assumptions/76.md). -/
def sample (q cause : Nat) (t : Tick) (s : State) : State :=
  let x := qd s q
  if sameCycle x cause t then s.setQd q (addCause x cause)
  else
    let c := x.countAt t
    let s := s.setQd q { x with lastCnt := c, lastTime := t, cycle := some (bankCycle t, cause) }
    if bitOf (s.reg .timeQdSub q) 31 then
      if s.pwr.state == 2 || s.pwr.state == 3 then sampleMissed q s
      else if !x.q.ok then
        queueFault 4 q (qdPktDom s q).val (s.setQd q { qd s q with q := x.q.clear, miss := true })
      else if x.q.items.length < 8 then
        s.setQd q { qd s q with q := x.q.push 8 (w32 (place 27 5 cause), c, t) }
      else missSample q (s.setQd q { qd s q with q := { x.q with ovr := true } })
    else s
/-- The step between two states, in the order of R282's columns x1, x2, x4; none where it is illegal. -/
def qdStep (mode : Nat) (a b : BitVec 2) : Option Int :=
  let pick (x1 x2 x4 : Int) : Option Int := some (if mode = 0 then x1 else if mode = 1 then x2 else x4)
  match a.toNat, b.toNat with
  | 0, 2 => pick 1 1 1
  | 2, 3 => pick 0 0 1
  | 3, 1 => pick 0 1 1
  | 1, 0 => pick 0 0 1
  | 2, 0 => pick (-1) (-1) (-1)
  | 3, 2 => pick 0 0 (-1)
  | 1, 3 => pick 0 (-1) (-1)
  | 0, 1 => pick 0 0 (-1)
  | 0, 0 => some 0
  | 1, 1 => some 0
  | 2, 2 => some 0
  | 3, 3 => some 0
  | _, _ => none
/-- The level that a counter sees at a role: 0 while VIOB of its pin's bank is out (R407); where the role's pin has left it, the last
accepted one (R285); a counter without a claimant sees 0 (R281). -/
def qdInput (s : State) (q r : Nat) (now : Bool) (was : Bool) : Bool :=
  match (claimants s 4 q r).head? with
  | some p => now && viobOk s (bankOfPin p)
  | none => was && !(unitPins s 4 q).isEmpty
/-- QUADRATURE_STEP (R282). -/
def quadrature (q : Nat) (a b : Bool) (s : State) : State :=
  let x := qd s q
  let a := qdInput s q 0 a (x.ab.getLsbD 1)
  let b := qdInput s q 1 b (x.ab.getLsbD 0)
  let ab : BitVec 2 := BitVec.ofNat 2 (2 * b2n a + b2n b)
  let s' := s.setQd q { x with ab := ab, fresh := false }
  if x.fresh || !bitOf (qdCfg s q) 31 then s'
  else
    match qdStep (fld (qdCfg s q) 30 29) x.ab ab with
    | some d =>
      let d := if bitOf (qdCfg s q) 28 then -d else d
      setCount q (x.count + BitVec.ofInt 32 d) s'
    | none =>
      let s' := s'.setQd q { qd s' q with err := true }
      let s' := s'.setReg .timeQdErrcnt q (satFld (s'.reg .timeQdErrcnt q) 15 0 1)
      notifyOnce 0xA5 q (qdPktDom s q).val 1 [w32 q] s'
def execQuadratureStep (q : Fin 16) (a b : Bool) (s : State) : Host.Outcome State Fault Refusal := .next (quadrature q a b s)
/-- The count becomes 0. -/
def qdZero (q : Nat) (s : State) : State := setCount q 0 s
/-- INDEX_EDGE (R283, R285): the sample takes the count before the clear. A bank whose VIOB is out sees no edge (R407). -/
def indexEdge (q : Nat) (s : State) : State :=
  let i := fld (qdCfg s q) 27 26
  if !(claimants s 4 q 2).head?.any (fun p => viobOk s (bankOfPin p)) || i = 0 then s
  else
    let s := s.setQd q { qd s q with idx := true }
    let s := if i = 2 ∨ i = 3 then sample q 2 s.now s else s
    if i = 1 ∨ i = 3 then qdZero q s else s
def execIndexEdge (q : Fin 16) (s : State) : Host.Outcome State Fault Refusal := .next (indexEdge q s)
/-- QD_SAMPLE (R292). -/
def qdSample (p q : Nat) (s : State) : State := checked [allow (qdReach s p q)] (fun s => sample q 1 s.now s) s
def execQdSample (port : Fin 4) (q : Fin 16) (s : State) : Host.Outcome State Fault Refusal := .next (served (qdSample port q) s)
/-- QD_CLEAR (R285). -/
def qdClear (p q : Nat) (s : State) : State := checked [allow (qdReach s p q)] (qdZero q) s
def execQdClear (port : Fin 4) (q : Fin 16) (s : State) : Host.Outcome State Fault Refusal := .next (served (qdClear port q) s)
/-- QD_SAMPLE_SEND (R284): to the subscription as it stands now; without one the sample is dropped, uncounted (DESIGN CHOICE,
notes/assumptions/85.md). -/
def qdSend (q : Nat) (s : State) : State :=
  let x := qd s q
  let b := homeBank s q
  let pt := portOf s (.pin b) 0
  let d := qdPktDom s q
  match x.q.items with
  | [] => s
  | (cause, cnt, t) :: _ =>
    if !gateFree s pt d || !coreLive s || s.pins.asleep then s
    else if !x.q.ok then queueFault 4 q d.val (s.setQd q { x with q := x.q.clear, miss := true })
    else if bitOf (s.reg .timeQdSub q) 31 then
      let w0 := cause + w32 (place 26 1 (b2n x.miss) + place 25 1 (b2n x.err) + place 24 1 (b2n x.idx) + q)
      let sub := s.reg .timeQdSub q
      let pk : Packet := { dest := BitVec.ofNat 16 (fld sub 11 0), slot := BitVec.ofNat 5 (fld sub 25 21), op := 0, tag := 0,
                           src := BitVec.ofNat 16 (0x1050 + b), status := 0, dom := d, vc := false,
                           words := [w0, cnt, lo32 t, hi32 t] }
      queueOut pt pk (s.setQd q { x with q := x.q.pop 8, miss := false, err := false, idx := false })
    else s.setQd q { x with q := x.q.pop 8 }
def execQdSampleSend (q : Fin 16) (s : State) : Host.Outcome State Fault Refusal := .next (qdSend q s)
/-- MODE 3 is reserved (R292). -/
def qdCfgOk (v : Word) : Bool := decide (fld v 30 29 ≠ 3)
/-- A subscription's SLOT is not 31 and its DEST is a logical tile of images (R261, R291, R292). -/
def subOk (v : Word) : Bool := decide (fld v 25 21 ≠ 31 ∧ fld v 11 0 < 3968)
/-- TIME_QD_CFG takes its fields: an enabled counter starts from the present state of its inputs, which it has followed (R285). -/
def putQdCfg (q : Nat) (v : Word) (s : State) : State := s.putFields 0 .timeQdCfg q 0 v
/-- QD_CFG_WRITE (R285, R292). -/
def qdCfgWrite (p q : Nat) (v : Word) (s : State) : State :=
  checked [allow (qdReach s p q), within (qdCfgOk v)] (putQdCfg q v) s
def execQdCfgWrite (port : Fin 4) (q : Fin 16) (val : Word) (s : State) : Host.Outcome State Fault Refusal :=
  .next (served (qdCfgWrite port q val) s)
/-- A TIME_QD_SUB write (R292). -/
def qdSubWrite (p q : Nat) (v : Word) (s : State) : State :=
  checked [allow (qdReach s p q), within (subOk v)]
    (fun s => s.putFields 0 .timeQdSub q 0 v) s
/-- QD_LAST_CNT_READ (R292). -/
def qdLastRead (p q : Nat) (s : State) : State :=
  if qdReach s p q then
    let x := qd s q
    ((s.setRegP p .timeQdLastLo q 0 (lo32 x.lastTime)).setRegP p .timeQdLastHi q 0 (hi32 x.lastTime)).finish stOk [x.lastCnt]
  else s.finish stDenied [0]
def execQdLastCntRead (port : Fin 4) (q : Fin 16) (s : State) : Host.Outcome State Fault Refusal := .next (servedRead (qdLastRead port q) s)
/-- The CAUSE of the sample that a counter takes at a commit tick: COMMIT, and TBSYNC with it where the tick is a TBSYNC value
too (R283). -/
def tickCause (s : State) (q : Nat) (t : Tick) : Nat :=
  (if bitOf (qdCfg s q) 25 then 16 else 0) + (if bitOf (qdCfg s q) 24 && t.toNat % 2 ^ 20 == 0 then 8 else 0)
/-- The counters sample at a commit tick, once each; `done` says that they have for this tick. -/
def sampleTick (t : Tick) (done : Bool) (s : State) : State :=
  if done then s else forEach ((List.range 16).filter (fun q => tickCause s q t != 0)) (fun q s => sample q (tickCause s q t) t s) s

/-! ## Sense capture (R274–R279) -/

/-- Whether sense pin `k` captures. -/
def captures (s : State) (k : Nat) : Bool :=
  let p := pinOfSense k
  (sense s k).capture && pinFunc s p == 2 && !pairedOdd s p && viobOk s (bankOfPin p) && s.fab.released && (sleepNow s p).isNone
/-- The time of an edge (R275): TRIM × 8 ticks added, quantised to 8 ticks. -/
def senseTime (s : State) (k : Nat) (t : Tick) : Tick :=
  let trim := BitVec.ofInt 64 (sint 5 (fld (s.reg .timeSenseCfg k) 4 0) * 8)
  (t + trim) &&& ~~~(7 : BitVec 64)
/-- The filter window in ticks (R276): 4 ns are 512. -/
def senseWindow (s : State) (k : Nat) : Nat := max 2 (fld (s.reg .timeSenseCfg k) 15 8) * 512
/-- An edge has passed the filter (R274, R278, R283). -/
def senseEvent (k : Nat) (t : Tick) (rise : Bool) (s : State) : State :=
  let edges := fld (s.reg .timeSenseCfg k) 7 6
  if edges = 3 ∨ (edges = 1 ∧ rise) ∨ (edges = 2 ∧ !rise) then
    let c := 2048 + k
    let kind : BitVec 2 := if rise then 0 else 1
    let s := acceptEvent c t kind false s
    let s := s.setChan c { chan s c with lastTime := some t }
    let s := forEach ((List.range 16).filter (fun q => bitOf (qdCfg s q) 23 && fld (qdCfg s q) 21 16 == k))
      (fun q => sample q 4 t) s
    if subTakes (s.reg .timeSenseSub k) kind then
      chanPush c { time := t, kind := kind, order := false }
        (notifyOnce 0xA3 k (spoolDom s c).val 1 [w32 k]) s
    else s
  else s
/-- SENSE_EDGE (R276): `time` is the instant at which the edge crossed the threshold. -/
def senseEdge (k : Nat) (rise : Bool) (time : Tick) (s : State) : State :=
  if captures s k then
    match (sense s k).open_ with
    | none => s.setSense k { sense s k with open_ := some (time, rise) }
    | some (t0, r0) =>
      if (time - t0).toNat < senseWindow s k then glitch k (s.setSense k { sense s k with open_ := none })
      else senseEvent k (senseTime s k t0) r0 (s.setSense k { sense s k with open_ := some (time, rise) })
  else s
def execSenseEdge (k : Fin 64) (rise : Bool) (time : Tick) (s : State) : Host.Outcome State Fault Refusal :=
  .next (senseEdge k rise time s)
/-- FILTER_WINDOW_CLOSED (R276). -/
def windowClosed (k : Nat) (s : State) : State :=
  match (sense s k).open_ with
  | some (t0, r0) => senseEvent k (senseTime s k t0) r0 (s.setSense k { sense s k with open_ := none })
  | none => s
def execFilterWindowClosed (k : Fin 64) (s : State) : Host.Outcome State Fault Refusal := .next (windowClosed k s)
/-- SENSE_EVENT_SEND (R278). -/
def senseSend (k : Nat) (s : State) : State :=
  let b := k / 32
  let pt := portOf s (.pin b) 0
  if gateFree s pt (spoolDom s (2048 + k)) && coreLive s then
    chanSend (2048 + k) (0x1050 + b) pt (s.reg .timeSenseSub k) s
  else s
def execSenseEventSend (k : Fin 64) (s : State) : Host.Outcome State Fault Refusal := .next (senseSend k s)
/-- SENSE_SUB_WRITE (R291). -/
def senseSubWrite (p k : Nat) (v : Word) (s : State) : State :=
  checked [subStatus s p (2048 + k) v] (putSub .timeSenseSub k (2048 + k) v) s
def execSenseSubWrite (port : Fin 4) (k : Fin 64) (val : Word) (s : State) : Host.Outcome State Fault Refusal :=
  .next (served (senseSubWrite port k val) s)
/-- A sense pin may be enabled only where its spool has space (R293). -/
def senseSized (s : State) (k : Nat) (v : Word) : Bool := fld v 7 6 == 0 || (spoolOf s (2048 + k)).size != 0
/-- A TIME_SENSE_CFG write (R291). -/
def senseCfgWrite (p k : Nat) (v : Word) (s : State) : State :=
  checked [allow (mayReach s p (2048 + k)), within (senseSized s k v)]
    (fun s => s.putFields 0 .timeSenseCfg k 0 v) s

end Sys2Proof.Machine
end

