-- ==== Sys2Proof/Machine/Crossings.lean ====
section
/-! DEFINITION. Crossings: unstable value crossings, stopped island clocks and their wake, the end of a crossing's absence
(R384, R389–R392), and the commands of the MEM block (R362, R363, R369, R370, R376). -/
namespace Sys2Proof.Machine

/-! ## Crossings -/

/-- XING_UNSTABLE (R384): a value crossing's eighth disagreement in a row, reported once for each run. Its readers stay with the
words that they have (notes/assumptions/13.md). -/
def xingUnstable (k : Nat) (s : State) : State :=
  if keyKind k = 1 ∧ !(xing s k).unstable then
    let x := xing s k
    let last := if x.absent then x.last else xingWords s (keyIsl k) (keyIdx k)
    let s := xingLast 0 k ((s.setXing k { x with unstable := true, last := last }).bump .fabXingUnstable 0 1)
    notifyOwner 0x67 0 (xingItems k) s
  else s
def execXingUnstable (x : XId) (s : State) : Host.Outcome State Fault Refusal := .next (xingUnstable (xidKey x) s)

/-- Whether the crossings of an island hold nothing: no pulse pending. -/
def pulsesIdle (s : State) (isl idx : Nat) : Bool :=
  s.xng.xings.all (fun e => !(keyIsl e.1 == isl && keyIdx e.1 == idx) || (!e.2.busy && e.2.pending == 0))
/-- Whether an attachment's ring and inbox hold nothing. -/
def attachIdle (s : State) (port : Nat) : Bool :=
  (ring s port).isEmpty && (List.range 4).all (fun d =>
    (inbox s (laneKey port false d)).isEmpty && (inbox s (laneKey port true d)).isEmpty)
/-- Whether nothing of an attachment's gateway waits at its injection port. -/
def outIdle (s : State) (port : Nat) : Bool := (List.range 4).all (fun d => (plane s (laneKey port false d)).out.isEmpty)
/-- Whether the sense pins of a bank have nothing to do: no filter window open, no event queued. -/
def sensesIdle (s : State) (b : Nat) : Bool :=
  (List.range 64).all (fun k => k / 32 != b || ((sense s k).open_.isNone && (chan s (2048 + k)).q.items.isEmpty))
/-- Whether a lane's island has nothing to do and may stop (R389): OFF or PAUSED, no event, record or transaction waiting. -/
def laneIdle (s : State) (n : Nat) : Bool :=
  let x := lane s n
  (x.state == 0 || x.state == 6) && attachIdle s (portOf s (.lane n) 0) && outIdle s (portOf s (.lane n) 0) && pulsesIdle s 1 n &&
    writerEmpty x && (laneSpools n).all (fun c => (chan s c).q.items.isEmpty) && s.fe.all (fun e => e.2.lane != n)
/-- Whether a pin bank has nothing to do (R389): no pin in F3 to F6, no event or sample waiting. -/
def bankIdle (s : State) (b : Nat) : Bool :=
  attachIdle s (portOf s (.pin b) 0) && outIdle s (portOf s (.pin b) 0) && pulsesIdle s 4 b && sensesIdle s b &&
    (List.range 16).all (fun q => homeBank s q != b || (qd s q).q.items.isEmpty) &&
    (bankPins b).all (fun p => let f := pinFunc s p; ((f == 0 || f == 1 || f == 2 || f == 7) && (pinSt s p).pulses == 0))
/-- Whether a port's mailboxes have nothing to do: every entry has been sent, no request awaits its response. -/
def mailIdle (s : State) (p : Nat) : Bool :=
  (List.range 16).all (fun m => let y := mbox s p m
    (y.inb ++ y.resp ++ y.store).all (fun e => e.sent.isSome) && y.reqs.isEmpty && y.late.isEmpty)
/-- Whether a host port's packet layer is ACTIVE and has nothing to do (R389, R477). -/
def portIdle (s : State) (p : Nat) : Bool :=
  let x := port s p
  x.state == 5 && x.reqq.items.isEmpty && s.memory.ops.all (fun e => match e.2.src with
    | .host q _ => q.val != p
    | _ => true) && (List.range 2).all (fun k => attachIdle s (portOf s (.mbox p 0) k) && outIdle s (portOf s (.mbox p 0) k)) && pulsesIdle s 2 p &&
    mailIdle s p && x.rspq.items.isEmpty && x.ntfq.items.isEmpty && x.ntfBack.isEmpty && x.wins.isEmpty && x.unacked.isEmpty &&
    x.plyq.isEmpty && !x.nakOut && (s.host.batch.get BatchSt.init p).checking.isNone && s.host.accepted.all (fun b => b.port.val != p) &&
    s.spl.spools.all (fun e => e.2.exp.all (fun x => x.port.val != p))
/-- Whether reel memory has nothing to do: no background tests, no request, no retention change, no command, no run, no corrected
word to be written back, no pulse pending. -/
def reelIdle (s : State) : Bool :=
  pulsesIdle s 3 0 && s.memory.fixq.all (fun e => e.2.isEmpty) && !bitOf (s.reg .memCtl 0) 31 && s.memory.ops.isEmpty && s.memory.waking.isEmpty && s.memory.test.isNone &&
    s.memory.bankTest.isNone && s.spl.queue.isEmpty && s.lanes.all (fun e => writerEmpty e.2) &&
    s.spl.spools.all (fun e => e.2.exp.isNone && e.2.resizing.isNone && e.2.slots.all (fun x => !inRun x.2)) &&
    (List.range 4).all (fun k => attachIdle s (portOf s .spool k)) &&
    (List.range 64).all (fun k => attachIdle s (portOf s (.mem (k / 4)) k) && outIdle s (portOf s (.mem (k / 4)) k))
/-- Whether the observation island has nothing to do: no probe and no counter enabled, no record waiting. -/
def obsIdle (s : State) : Bool :=
  pulsesIdle s 7 0 && attachIdle s (portOf s .obs 0) && outIdle s (portOf s .obs 0) && s.obs.trcq.isEmpty && s.obs.probes.all (fun e => e.2.q.isEmpty) &&
    (List.range 512).all (fun k => s.reg .obsCntSrc k == 0) &&
    (List.range 16).all (fun j => s.reg .obsProbeSrc j == 0)
/-- Whether an island may stop its clock now (R389). -/
def islandIdle (s : State) (isl idx : Nat) : Bool :=
  match isl with
  | 1 => laneIdle s idx
  | 2 => portIdle s idx
  | 3 => reelIdle s
  | 4 => bankIdle s idx
  | 7 => obsIdle s
  | _ => false
/-- The number of an island. -/
def islNum (i : Isl) : Nat := 64 * i.code.val + i.index.val
/-- ISLAND_CLOCK_STOP (R389): 64 periods have passed with nothing to do. -/
def clockStop (i : Isl) (s : State) : State :=
  if islandIdle s i.code.val i.index.val then { s with xng := { s.xng with stopped := insertNat (islNum i) s.xng.stopped } }
  else s
def execIslandClockStop (i : Isl) (s : State) : Host.Outcome State Fault Refusal := .next (clockStop i s)
/-- WAKE_REQUEST (R390, R391): the clock runs again; further requests merge. -/
def wakeIsland (i : Isl) (s : State) : State :=
  { s with xng := { s.xng with stopped := removeNat (islNum i) s.xng.stopped } }
def execWakeRequest (i : Isl) (s : State) : Host.Outcome State Fault Refusal := .next (wakeIsland i s)
/-- Whether an island is held in reset. -/
def inReset (s : State) (i : Isl) : Bool :=
  (i.code == 1 && (lane s i.index.val).state == 7) || (i.code == 2 && (port s i.index.val).state == 6)
/-- CROSSING_PRESENT (R392): after the release an empty handshake has completed across the island's crossings. -/
def crossingPresent (i : Isl) (s : State) : State :=
  if inReset s i then s
  else
    forEach s.xng.xings (fun e s =>
      if keyIsl e.1 = i.code.val ∧ keyIdx e.1 = i.index.val then s.setXing e.1 { e.2 with absent := false, last := if e.2.unstable then e.2.last else [] } else s) s
def execCrossingPresent (i : Isl) (s : State) : Host.Outcome State Fault Refusal := .next (crossingPresent i s)

/-! ## The MEM block's commands -/

/-- BANK_TEST_START: MEM_TEST_CMD.START (R362, R370). -/
def testStart (p g b : Nat) (s : State) : State := ownerOnly p (bankTestStart g b) s
def execBankTestStart (port : Fin 4) (g bank : Fin 16) (s : State) : Host.Outcome State Fault Refusal :=
  .next (served (testStart port g bank) s)
/-- BANK_TEST_STOP: MEM_TEST_CMD.STOP (R370). -/
def testStop (p : Nat) (s : State) : State := ownerOnly p (fun s => bankTestStop (wakeIsl 3 0 s)) s
def execBankTestStop (port : Fin 4) (s : State) : Host.Outcome State Fault Refusal := .next (served (testStop port) s)
/-- MEM_CTL_WRITE (R363, R369). -/
def memCtlWrite (p : Nat) (v : Word) (s : State) : State := ownerOnly p (memCtl v) s
def execMemCtlWrite (port : Fin 4) (val : Word) (s : State) : Host.Outcome State Fault Refusal := .next (served (memCtlWrite port val) s)
/-- MEM_CONF_READ (R376): a read of MEM_CONF_LO latches the high bits for the port; a tenant reads its own host port
master's counter alone (R367). -/
def confRead (p m : Nat) (s : State) : State :=
  if p = 0 ∨ m = 80 + p then
    let l := accepted s 3 0
    readFrom 3 0 [l.getD (2 * m) 0] ((wakeIsl 3 0 s).setRegP p .memConfHi m 0 (l.getD (2 * m + 1) 0))
  else s.finish stDenied [0]
def execMemConfRead (port : Fin 4) (m : Fin 88) (s : State) : Host.Outcome State Fault Refusal := .next (servedRead (confRead port m) s)

end Sys2Proof.Machine
end

