-- ==== Sys2Proof/Machine/Link.lean ====
section
/-! DEFINITION. Link: the host ports — training and loss (R445–R450), acceptance, acknowledgement, replay and credits
(R451–R456), reel memory and tile RAM window accesses (R460–R462), mailboxes (R464–R466), notification records (R468,
R469), export packets (R470), and the reset of a port (R476, R478). -/
namespace Sys2Proof.Machine

/-! ## Link state (R448–R450) -/

/-- Change a port. -/
def State.onPort (s : State) (p : Nat) (f : PortSt → PortSt) : State := s.setPort p (f (port s p))
/-- The link's address among the registers, and its counters. -/
def bumpLink (r : Reg) (p : Nat) (s : State) : State := s.bump r p 1
/-- A port enters DETECT. The lanes that hold block lock keep it (R484). -/
def portDetect (p : Nat) (s : State) : State :=
  s.onPort p (fun x => { x with state := 1, step := 1, wait := false, aligned := 0 })
/-- A word of four free bits: which lanes hold block lock is seen by no command (notes/assumptions/87.md). -/
def freeLanes (s : State) : BitVec 4 := BitVec.ofNat 4 s.free.toNat
/-- A lane of a port loses block lock, or its signal and with it the lock: which one, and whether others do, is free. -/
def loseLock (p : Nat) (s : State) : State :=
  let f := s.free.toNat
  let still : BitVec 4 := putBit (BitVec.ofNat 4 (f / 4)) (f % 4) false
  (s.onPort p (fun x => { x with locked := x.locked &&& still })).nextFree
/-- A port that is ACTIVE leaves it for DETECT with a cause (R450): its packet layer is kept. -/
def leaveActive (p : Nat) (cause : BitVec 4) (s : State) : State :=
  if (port s p).state = 5 then
    let s := (portDetect p s).onPort p (fun x => { x with cause := cause, leftAt := some s.now })
    notifyOwner 0xC1 0 [w32 p, w32 cause.toNat] (bumpLink .hlkRetrains p s)
  else s
/-- Each unacknowledged packet is replayed once more (R454). -/
def replayFrom (p : Nat) (which : HPkt → Bool) (s : State) : State :=
  let x := port s p
  if x.unacked.any which then
    let s := s.setPort p { x with unacked := x.unacked.map (fun k => if which k then { k with replays := k.replays + 1 } else k) }
    notifyOnce 0xC2 p p 1 [w32 p] (tally 5 p 2 (bumpLink .hlkReplays p s))
  else s
/-- The replay limit (R454): the oldest unacknowledged packet has been replayed 4 times, and the port retrains. -/
def replayLimit (p : Nat) (s : State) : State :=
  match (port s p).unacked with
  | k :: _ =>
    if 4 ≤ k.replays then
      leaveActive p 4 (s.onPort p (fun x => { x with unacked := x.unacked.map (fun k => { k with replays := 0 }) }))
    else s
  | [] => s
/-- The requests that stand in the request queue, of those that the link brought. -/
def reqsHeld (x : PortSt) : Nat := (x.reqq.items.filter (fun r => match r with
  | .word _ => false
  | _ => true)).length
/-- The port is ACTIVE (R449 step 6, R450, R455, R456): it grants 64 REQ credits after a cleared packet layer, else what is left of
them, and replays what is unacknowledged. -/
def portActive (p : Nat) (s : State) : State :=
  let x := port s p
  let y := { x with state := 5, step := 0, activeAt := s.now, leftAt := none }
  let s := notify 0xC0 p [w32 p]
    (s.setPort p (if x.clearedLayer then { y with clearedLayer := false, reqCredit := 64, regrant := [] }
      else { y with reqCredit := 64 - reqsHeld x, regrant := [1, 2, 3, 4] }))
  replayLimit p (replayFrom p (fun _ => true) s)
/-- LINK_TRAINING_STEP (R449): the step in progress completes; of steps 3 to 6 only where every lane holds its lock. Between steps 1 and 2
lanes gain lock one by one. -/
def linkStep (p : Nat) (s : State) : State :=
  let x := port s p
  if x.wait || !(x.state == 1 || x.state == 2 || x.state == 3 || x.state == 4) || (decide (3 ≤ x.step) && x.locked != 0xF) then s
  else
    match x.step with
    | 1 => (s.setPort p { x with state := 2, step := 2, locked := x.locked ||| freeLanes s }).nextFree
    | 2 => s.setPort p { x with state := 3, step := 3, locked := 0xF }
    | 3 => if x.aligned = 0xF then s.setPort p { x with state := 4, step := 4 } else s
    | 4 => s.setPort p { x with step := 5 }
    | 5 => s.setPort p { x with step := 6 }
    | _ => portActive p s
def execLinkTrainingStep (p : Fin 4) (s : State) : Host.Outcome State Fault Refusal := .next (linkStep p s)
/-- ALIGN_BLOCK (R446): the lane is aligned. -/
def alignBlk (p l : Nat) (s : State) : State :=
  if (port s p).state = 3 then s.onPort p (fun x => { x with aligned := putBit x.aligned l true }) else s
def execAlignBlock (p lane : Fin 4) (s : State) : Host.Outcome State Fault Refusal := .next (alignBlk p lane s)
/-- TRAIN_TIMEOUT (R449). -/
def trainTimeout (p : Nat) (s : State) : State :=
  let x := port s p
  if x.state == 1 || x.state == 2 || x.state == 3 || x.state == 4 then s.setPort p { x with cause := 9, wait := true } else s
def execTrainTimeout (p : Fin 4) (s : State) : Host.Outcome State Fault Refusal := .next (trainTimeout p s)
/-- TRAIN_RETRY (R449). -/
def trainRetry (p : Nat) (s : State) : State := if (port s p).wait then portDetect p s else s
def execTrainRetry (p : Fin 4) (s : State) : Host.Outcome State Fault Refusal := .next (trainRetry p s)
/-- The cause code of a loss (R450). -/
def lossCode : LossCause → BitVec 4
  | .signal => 1
  | .lock => 2
  | .align => 3
/-- Lock or signal, and not alignment alone, is lost on a lane. -/
def lockGone : LossCause → Bool
  | .align => false
  | _ => true
/-- LINK_DOWN (R450). -/
def linkGone (p : Nat) (c : LossCause) (s : State) : State := leaveActive p (lossCode c) (if lockGone c then loseLock p s else s)
def execLinkDown (p : Fin 4) (cause : LossCause) (s : State) : Host.Outcome State Fault Refusal := .next (linkGone p cause s)
/-- HOST_TRAIN (R450): a TRAIN block in ACTIVE; one with ACK within 20 µs (2,560,000 ticks) counts for nothing. -/
def trainBlock (p : Nat) (ack : Bool) (s : State) : State :=
  if ack && decide ((s.now - (port s p).activeAt).toNat ≤ 2560000) then s else leaveActive p 5 s
def execHostTrain (p : Fin 4) (ack : Bool) (s : State) : Host.Outcome State Fault Refusal := .next (trainBlock p ack s)

/-! ## Reset of a packet layer (R476, R478) -/

/-- A request whose RSP is discarded. -/
def HReq.silent : HReq → HReq
  | .rd _ l => .rd none l
  | .wr _ l => .wr none l
  | .ply _ a l => .ply none a l
  | .other _ => .other none
  | .word v => .word v
/-- The requests of a port are performed and their RSPs discarded (R476): reel memory accesses, window accesses, PLY packets and what stands
in the request queue. -/
def silence (p : Nat) (s : State) : State :=
  let s := s.onMem (fun m => { m with ops := m.ops.map (fun e => (e.1, match e.2.src with
    | .host q _ => if q.val = p then { e.2 with src := .host q none } else e.2
    | _ => e.2)) })
  s.onPort p (fun x => { x with wins := x.wins.map (fun w => { w with tag := none }), plyq := x.plyq.map (fun e => (e.1, none)),
                                reqq := { x.reqq with items := x.reqq.items.map HReq.silent } })
/-- An RSP that a reset of the packet layer does not discard: a full reset takes effect once it is sent (R478). -/
def Rsp.stays (r : Rsp) : Bool := r.after.any (fun e => match regAt e.1 with
  | some (.sysReset, _, _) => true
  | _ => false)
/-- The records a host has not consumed, pushed again where PUSH is 1 (R476). -/
def unread (s : State) (p : Nat) : List Nat :=
  let r := s.regP p .hlkNtfRptr 0 0
  let w := s.regP p .hlkNtfWptr 0 0
  if bitOf (s.regP p .hlkNtfCfg 0 0) 31 then (List.range (w - r).toNat).map (fun i => (r + w32 i).toNat) else []
/-- Mailbox entries are sent anew. -/
def unsend (l : List MbxEnt) : List MbxEnt := l.map (fun e => { e with sent := none })
/-- The exports towards a port end without a LAST packet (R330, R478). -/
def dropPortExports (p : Nat) (s : State) : State :=
  forEach (spoolNums s) (fun n s =>
    match (spoolOf s n).exp with
    | some e => if e.port.val = p then dropExport n s else s
    | none => s) s
/-- The packet layer of a port is cleared (R476). -/
def clearLayer (p : Nat) (s : State) : State :=
  let s := silence p (dropPortExports p s)
  let x := port s p
  let s := s.setPort p { x with rxSeq := 0, nakOut := false, txSeq := 0, unacked := [], regrant := [], credits := [],
                                reqCredit := 0, clearedLayer := true,
                                rspq := { x.rspq.clear with items := x.rspq.items.filter Rsp.stays }, ntfq := x.ntfq.clear,
                                ntfBack := unread s p }
  forEach (List.range 16) (fun m s =>
    let y := mbox s p m
    s.setMbox p m { y with inb := unsend y.inb, resp := unsend y.resp, store := unsend y.store }) s
/-- ISLAND_RESET of a port: its packet layer is held in RESET (R476). -/
def resetPort (p : Nat) (s : State) : State :=
  if (port s p).state = 0 then s
  else
    let s := leaveActive p 7 (wakeIsl 2 p s)
    let s := clearLayer p (s.onPort p (fun x => { x with state := 6, step := 0, wait := false, cause := 7, leftAt := none }))
    forEach (portXings p) peerReset s
/-- Whether a port may command a port (R457). -/
def mayPort (p t : Nat) : Status := allow (p == 0 || p == t)
/-- PORT_RETRAIN. -/
def portRetrain (p t : Nat) (s : State) : State := checked [mayPort p t] (leaveActive t 6) s
def execPortRetrain (port target : Fin 4) (s : State) : Host.Outcome State Fault Refusal := .next (served (portRetrain port target) s)
/-- PORT_ISLAND_RESET. -/
def portReset (p t : Nat) (s : State) : State := checked [mayPort p t] (resetPort t) s
/-- PORT_RESET_END (R476): after 1 µs the port trains. -/
def portResetEnd (p : Nat) (s : State) : State := if (port s p).state = 6 then portDetect p s else s
def execPortResetEnd (p : Fin 4) (s : State) : Host.Outcome State Fault Refusal := .next (portResetEnd p s)
/-- PACKET_LAYER_TIMEOUT (R478): 10 ms without ACTIVE. -/
def layerTimeout (p : Nat) (s : State) : State :=
  let x := port s p
  if x.state ≠ 5 ∧ x.leftAt.isSome then clearLayer p (s.setPort p { x with leftAt := none }) else s

/-! ## Queues that hold nothing between steps (R399, R455) -/

/-- Whether the copies of a pointer of queue `k` of a port differ. -/
def qBad (s : State) (p k : Nat) : Bool := (port s p).qdiff.get 0 k != 0
/-- Queue `k` of a port is reset to empty with a QUEUE_FAULT; 16 + m is mailbox m. -/
def portQFault (p k : Nat) (s : State) : State :=
  let s := s.onPort p (fun x => { x with qdiff := x.qdiff.erase k })
  if k < 16 then queueFault 8 (16 * p + k) p s else queueFault 9 (16 * p + (k - 16)) p s
/-- The TAG of a request. -/
def HReq.tag : HReq → Option Byte
  | .rd t _ => t
  | .wr t _ => t
  | .ply t _ _ => t
  | .other t => t
  | .word _ => none
/-- A pointer fault of the request queue (R399, R455): it is reset to empty, and every request that it held, `more` among them, completes
with FAULT; their credits are granted anew. -/
def reqFault (p : Nat) (more : List HReq) (s : State) : State :=
  let x := port s p
  let s := queueFault 8 (16 * p) p (s.setPort p { x with reqq := x.reqq.clear, reqCredit := x.reqCredit + reqsHeld x })
  forEach (x.reqq.items ++ more) (fun r s => formRsp p r.tag stFault [] s) s
/-- A request reaches a port's request queue, which has room for it: it takes one REQ credit. -/
def takeRequest (p : Nat) (r : HReq) (s : State) : State :=
  let x := port s p
  if x.reqq.ok then s.setPort p { x with reqq := x.reqq.push 64 r, reqCredit := x.reqCredit - 1 } else reqFault p [r] s
/-- Whether the crossing of one of a port's paths out of its island is absent (R392): to attachment 0 or 1, to the registers (8), to
reel memory (9). -/
def pathAbsent (s : State) (p k : Nat) : Bool := (xing s (xkey 2 p 0 true k)).absent

/-! ## Acceptance, acknowledgement, credits (R454–R456) -/

/-- A request packet from the host (R454, R456): in sequence it is accepted where the request queue has room, else discarded; an earlier
one is discarded; a later one, as one that is discarded, makes a NAK stand. -/
def onPacket (p : Nat) (seq : BitVec 12) (r : HReq) (s : State) : State :=
  let x := port s p
  if x.state ≠ 5 then s
  else if seq = x.rxSeq then
    if x.reqq.items.length < 64 then
      takeRequest p r (tally 5 p 0 ((wakeIsl 2 p s).setPort p { x with rxSeq := x.rxSeq + 1, nakOut := false }))
    else s.setPort p { x with nakOut := true }
  else if (seq - x.rxSeq).toNat < 2048 then s.setPort p { x with nakOut := true }
  else s
/-- PACKET_CRC_ERROR (R453, R454). -/
def crcError (p : Nat) (s : State) : State :=
  if (port s p).state = 5 then (bumpLink .hlkCrcErr p s).onPort p (fun x => { x with nakOut := true }) else s
def execPacketCrcError (p : Fin 4) (s : State) : Host.Outcome State Fault Refusal := .next (crcError p s)
/-- The credits a port holds for a class. -/
def creditOf (x : PortSt) (cls : Nat) : Nat := x.credits.get 0 cls
/-- LINK_CREDIT (R455, R456): COUNT packets are added to a class; the first grant after a short retrain is the whole
grant. -/
def linkCredit (p cls count : Nat) (s : State) : State :=
  let x := port s p
  if x.state ≠ 5 ∨ cls < 1 ∨ 4 < cls then s
  else if x.regrant.contains cls then
    s.setPort p { x with credits := x.credits.set 0 cls count, regrant := removeNat cls x.regrant }
  else s.setPort p { x with credits := x.credits.set 0 cls (creditOf x cls + count) }
def execLinkCredit (p : Fin 4) (cls : BitVec 4) (count : BitVec 16) (s : State) : Host.Outcome State Fault Refusal :=
  .next (linkCredit p cls.toNat count.toNat s)
/-- Whether a port may send a packet of a class now (R454, R455). -/
def maySend (s : State) (p cls : Nat) : Bool :=
  let x := port s p
  x.state == 5 && decide (1 ≤ creditOf x cls ∧ x.unacked.length < 512)
/-- Send a packet of a class: it spends a credit and is kept until it is acknowledged. -/
def sendPkt (p cls : Nat) (typ : BitVec 4) (tag : Byte) (st : Status) (arg : Nat) (words : List DWord) (s : State) : State :=
  let x := port s p
  let k : HPkt := { seq := x.txSeq, typ := typ, tag := tag, status := st, arg := BitVec.ofNat 16 arg, words := words, replays := 0 }
  tally 5 p 1 (s.setPort p { x with txSeq := x.txSeq + 1, unacked := x.unacked ++ [k], credits := x.credits.set 0 cls (creditOf x cls - 1) })
/-- The packets that an ACK of `seq` frees: those sent up to it. -/
def ackedPkts (x : PortSt) (seq : BitVec 12) : List HPkt :=
  if x.unacked.any (fun k => k.seq == seq) then
    x.unacked.filter (fun k => decide ((seq - k.seq).toNat < 2048))
  else []
/-- A mailbox entry's packet is acknowledged. -/
def entAcked (seqs : List (BitVec 12)) (e : MbxEnt) : Bool :=
  match e.sent with
  | some q => seqs.contains q
  | none => false
/-- The entries of a mailbox whose packets are acknowledged are freed (R464, R465): a MSG_ACK is answered, a response gives
its space back. -/
def freeEntries (p : Nat) (seqs : List (BitVec 12)) (m : Nat) (s : State) : State :=
  let y := mbox s p m
  let bad := qBad s p (16 + m) && y.inb.any (entAcked seqs)
  let y := if bad then { y with inb := [] } else y
  let s := if bad then portQFault p (16 + m) s else s
  let gone := y.inb.filter (entAcked seqs)
  let back := y.resp.filter (entAcked seqs)
  let reqs := back.foldl (fun l e => l.eraseP (Resv.answers e.pkt)) y.reqs
  let s := s.setMbox p m { y with inb := y.inb.filter (fun e => !entAcked seqs e), reqs := reqs,
                                  resp := y.resp.filter (fun e => !entAcked seqs e),
                                  store := y.store.filter (fun e => !entAcked seqs e) }
  forEach gone (fun e s => answer e.pkt stOk [] s) s
/-- LINK_ACK (R454). -/
def linkAck (p : Nat) (seq : BitVec 12) (s : State) : State :=
  let x := port s p
  if x.state ≠ 5 then s
  else
    let gone := ackedPkts x seq
    let seqs := gone.map (·.seq)
    let s := s.setPort p { x with unacked := x.unacked.filter (fun k => !seqs.contains k.seq) }
    forEach (List.range 16) (freeEntries p seqs) s
def execLinkAck (p : Fin 4) (seq : BitVec 12) (s : State) : Host.Outcome State Fault Refusal := .next (linkAck p seq s)
/-- LINK_NAK (R454): the packets after the one named are replayed. -/
def linkNak (p : Nat) (seq : BitVec 12) (s : State) : State :=
  if (port s p).state = 5 then
    replayLimit p (replayFrom p (fun k => decide (0 < (k.seq - seq).toNat ∧ (k.seq - seq).toNat < 2048)) s)
  else s
def execLinkNak (p : Fin 4) (seq : BitVec 12) (s : State) : Host.Outcome State Fault Refusal := .next (linkNak p seq s)
/-- REPLAY_TIMEOUT (R454). -/
def replayTimeout (p : Nat) (s : State) : State :=
  if (port s p).state = 5 then replayLimit p (replayFrom p (fun _ => true) s) else s
def execReplayTimeout (p : Fin 4) (s : State) : Host.Outcome State Fault Refusal := .next (replayTimeout p s)

/-! ## Reel memory from a host (R460) -/

/-- What an RSP carries for an access that is refused: for an RD its COUNT bytes, all 0 (R21, R452). -/
def noBytes (wr : Bool) (n : Nat) : List DWord := if wr then [] else List.replicate ((min n 256 + 7) / 8) 0
/-- A reel memory access of a host (R36, R40, R343, R350, R365, R460). `bs` are the bytes of a write. -/
def hostMem (p : Fin 4) (tag : Option Byte) (wr : Bool) (addr n : Nat) (bs : List Byte) (s : State) : State :=
  let a := addr % 0x20000000
  if pathAbsent s p.val 9 then formRsp p tag stStale (noBytes wr n) s
  else if !memLive s then formRsp p tag stBusy (noBytes wr n) s
  else if n < 1 ∨ 256 < n ∨ 256 < a % 256 + n then formRsp p tag stRange (noBytes wr n) s
  else if !memAllowed s true p.val wr a then formRsp p tag stDenied (noBytes wr n) (memDenied p.val s)
  else
    let kind : MemKind := if !wr then .rd else
      match aliasOf addr with
      | 1 => .set
      | 2 => .clr
      | _ => .wr
    startOp { kind := kind, master := 80 + p.val, dom := p, src := .host p tag, addr := a, count := n, left := 0, got := [],
              status := stOk, refused := false } bs (wakeIsl 3 0 s)

/-! ## Tile RAM windows from a host (R37, R461) -/

/-- A TAG that no request of a mailbox uses. -/
def freeTag (y : Mbox) : BitVec 7 :=
  BitVec.ofNat 7 (((List.range 128).find? (fun t => y.reqs.all (fun r => r.tag.toNat != t))).getD 0)
/-- The mailboxes hold at most 8 requests that await a response (R465). -/
def mboxFull (y : Mbox) : Bool := decide (8 ≤ y.reqs.length)
/-- A mailbox's own ply address. -/
def mboxAddr (d m : Nat) : BitVec 16 := BitVec.ofNat 16 (0x1080 + 16 * d + m)
/-- The words of the next window operation: up to 16, within one tile. -/
def winCount (w : WinAcc) : Nat := min (min 16 w.left) (2048 - w.word % 2048)
/-- Issue the next window operation of an access. -/
def winIssue (p : Fin 4) (w : WinAcc) (s : State) : WinAcc × State :=
  let y := mbox s p.val 15
  if mboxFull y then (w, s)
  else
    let n := winCount w
    let t := freeTag y
    let k : Packet := { dest := BitVec.ofNat 16 (w.word / 2048), slot := 31, op := if w.write then 3 else 2, tag := t,
                        src := mboxAddr p.val 15, status := 0, dom := p, vc := false,
                        words := w32 (place 16 5 n + w.word % 2048) :: (if w.write then w.data.take n else []) }
    let r : Resv := { dest := k.dest, slot := k.slot, tag := k.tag, flits := respFlits k }
    ({ w with wait := some t }, send k (s.setMbox p.val 15 { y with reqs := y.reqs ++ [r] }))
/-- The response of the window operation of an access that is out under a TAG, if it has come: from that operation's tile. -/
def winAnswer (s : State) (p : Nat) (w : WinAcc) (t : BitVec 7) : Option MbxEnt :=
  (mbox s p 15).resp.find? (fun e => e.pkt.tag == t && e.pkt.slot == 31 && e.pkt.src == BitVec.ofNat 16 (w.word / 2048))
/-- An access takes the response of its operation. -/
def winTake (p : Nat) (e : MbxEnt) (s : State) : State :=
  let y := mbox s p 15
  s.setMbox p 15 { y with resp := y.resp.erase e,
                          reqs := y.reqs.eraseP (Resv.answers e.pkt) }
/-- The RSP of a finished access: of an RD, the words read, the rest 0. -/
def winRsp (p : Nat) (w : WinAcc) (st : Status) (s : State) : State :=
  let data := (w.got ++ List.replicate w.total 0).take w.total
  formRsp p w.tag st (if w.write then [] else dwordsOfWords data) s
/-- The next operation of an access is issued; across an absent crossing the access ends with STALE (R392). -/
def winNext (p : Fin 4) (w : WinAcc) (s : State) : Option WinAcc × State :=
  if pathAbsent s p.val (w.word / 2048 % 2) then (none, winRsp p.val w stStale s)
  else
    let (w, s) := winIssue p w s
    (some w, s)
/-- One access moves on: it takes a response, issues its next operation, or is answered. -/
def winServe (p : Fin 4) (w : WinAcc) (s : State) : Option WinAcc × State :=
  match w.wait with
  | none => winNext p w s
  | some t =>
    match winAnswer s p.val w t with
    | none => (some w, s)
    | some e =>
      let s := winTake p.val e s
      let n := winCount w
      if e.pkt.status ≠ stOk then (none, winRsp p.val w e.pkt.status s)
      else
        let w := { w with left := w.left - n, word := w.word + n, data := w.data.drop n, got := w.got ++ e.pkt.words, wait := none }
        if w.left = 0 then (none, winRsp p.val w stOk s) else winNext p w s
/-- Every access of a port moves on. -/
def serveWins (p : Fin 4) (s : State) : State :=
  let (l, s) := (port s p.val).wins.foldl (fun (l, s) w =>
    match winServe p w s with
    | (some w, s) => (l ++ [w], s)
    | (none, s) => (l, s)) (([] : List WinAcc), s)
  s.onPort p.val (fun x => { x with wins := l })
/-- A tile RAM window access of a host. -/
def hostWin (p : Fin 4) (tag : Option Byte) (wr : Bool) (addr n : Nat) (bs : List Byte) (s : State) : State :=
  if n < 1 ∨ 256 < n ∨ n % 4 ≠ 0 ∨ addr % 4 ≠ 0 then formRsp p tag stRange (noBytes wr n) s
  else
    let w : WinAcc := { tag := tag, write := wr, word := (addr - 0x60000000) / 4, left := n / 4, data := wordsOfBytes bs,
                        got := [], total := n / 4, wait := none }
    serveWins p (s.onPort p.val (fun x => { x with wins := x.wins ++ [w] }))

/-! ## Ply packets from a host (R465) -/

/-- A PLY packet that breaks R125 is refused by the port itself: counted and recorded (R143), the status in its RSP (R465). -/
def refusePly (p : Nat) (tag : Option Byte) (k : Packet) (st : Status) (s : State) : State := formRsp p tag st [] (recordRefusal k st true s)
/-- HOST_PLY (R465): `words` are the ply header word and the payload words (notes/assumptions/18.md). -/
def hostPly (p : Fin 4) (tag : Option Byte) (arg : BitVec 16) (words : List Word) (s : State) : State :=
  let m := arg.toNat % 16
  let y := mbox s p.val m
  match words with
  | [] => formRsp p tag stRange [] s
  | h :: ws =>
    let k := packetOf h (0x1080 + 16 * p.val + m) p ws
    if 18 < ws.length then refusePly p tag k stRange s
    else if 7 ≤ k.op.toNat then refusePly p tag k stUnsupported s
    else if outAbsent s k then formRsp p tag stStale [] s
    else if hasResponse k.op && mboxFull y then formRsp p tag stBusy [] s
    else
      let r : Resv := { dest := k.dest, slot := k.slot, tag := k.tag, flits := respFlits k }
      let s := if hasResponse k.op then s.setMbox p.val m { y with reqs := y.reqs ++ [r] } else s
      send k (s.onPort p.val (fun x => { x with plyq := x.plyq ++ [(k, tag)] }))

/-- MAILBOX_ARRIVAL (R464, R465): at attachment `k` of host port `p` a response uses its reserved space, a message takes an
entry or is refused with BUSY. -/
def mboxArrive (p : Fin 4) (k : Nat) (s : State) : State :=
  let at_ := portOf s (.mbox p.val 0) k
  let number (a : Nat) : Nat := (a - 0x1080) % 16
  if s.xng.stopped.contains (128 + p.val) then s
  else
    match (List.range 4).find? (fun d => !(inbox s (laneKey at_ true d)).isEmpty) with
    | some d =>
      match inbox s (laneKey at_ true d) with
      | r :: rest => serveWins p (respToMbox p.val (number r.dest.toNat) r (s.setInbox (laneKey at_ true d) rest))
      | [] => s
    | none =>
      match nextReq s at_ with
      | none => s
      | some r =>
        let s := takeReq at_ s
        let m := number r.dest.toNat
        let y := mbox s p.val m
        if qBad s p.val (16 + m) then portQFault p.val (16 + m) (s.setMbox p.val m { y with inb := [] })
        else if y.inb.length < 16 then s.setMbox p.val m { y with inb := y.inb ++ [{ pkt := r, exit := at_, sent := none }] }
        else refuseAtExit r stBusy s
def execMailboxArrival (p : Fin 4) (k : Fin 2) (s : State) : Host.Outcome State Fault Refusal := .next (mboxArrive p k s)

/-! ## Packets to a host (R455, R460, R464, R468) -/

/-- RSP_SEND (R460): the oldest RSP is sent. What waits for that, `act` does (R478). -/
def rspSend (p : Fin 4) (act : Nat → Word → State → State) (s : State) : State :=
  let s := serveWins p s
  let x := port s p
  if !maySend s p 1 then s
  else
    match x.rspq.items with
    | [] => s
    | r :: _ =>
      if x.rspq.ok then
        let s := sendPkt p 1 4 r.tag r.status 0 r.words (s.setPort p { x with rspq := x.rspq.pop 64 })
        match r.after with
        | some (a, v) => act a v s
        | none => s
      else
        let held := x.rspq.items.map (fun r => { r with status := stFault, words := [] })
        queueFault 8 (16 * p + 1) p (s.setPort p { x with rspq := { x.rspq.clear with items := held } })
/-- The first entry of a list that has not been sent. -/
def unsent (l : List MbxEnt) : Option MbxEnt := l.find? (fun e => e.sent.isNone)
/-- The entry a mailbox sends next: responses and refusals, then messages, each in arrival order. -/
def mboxNext (y : Mbox) : Option MbxEnt :=
  match unsent y.resp with
  | some e => some e
  | none =>
    match unsent y.store with
    | some e => some e
    | none => unsent y.inb
/-- The data words of an MBX packet (R452). -/
def mbxWords (k : Packet) : List DWord :=
  join32 (arrivalWord k) (w32 (place 5 1 (b2n k.vc) + k.slot.toNat)) :: dwordsOfWords k.words
/-- Mark the first entry that has not been sent as sent under a SEQ. -/
def markSent (q : BitVec 12) : List MbxEnt → List MbxEnt
  | [] => []
  | x :: t => if x.sent.isNone then { x with sent := some q } :: t else x :: markSent q t
/-- MBX_SEND (R464, R465): the next mailbox in turn that has an entry to send. -/
def mbxSend (p : Fin 4) (s : State) : State :=
  let s := serveWins p s
  let x := port s p
  if !maySend s p 2 then s
  else if qBad s p 2 then portQFault p 2 s
  else
    let ready := (List.range 16).filter (fun m => (mboxNext (mbox s p m)).isSome)
    match nextInTurn ready (if x.mbxTurn = 0 then none else some (x.mbxTurn - 1)) with
    | none => s
    | some m =>
      let y := mbox s p m
      match mboxNext y with
      | none => s
      | some e =>
        let q := x.txSeq
        let y' := if (unsent y.resp).isSome then { y with resp := markSent q y.resp }
          else if (unsent y.store).isSome then { y with store := markSent q y.store }
          else { y with inb := markSent q y.inb }
        sendPkt p 2 5 0 stOk m (mbxWords e.pkt) ((s.setMbox p m y').onPort p (fun x => { x with mbxTurn := m + 1 }))
def execMbxSend (p : Fin 4) (s : State) : Host.Outcome State Fault Refusal := .next (mbxSend p s)
/-- The words of a record in a port's queue, read as its master (R347, R468). For one that is uncorrectable the spec states no
result: a free value (notes/assumptions/75.md). -/
def ntfWords (p : Nat) : Nat → Nat → State → List DWord × State
  | _, 0, s => ([], s)
  | w, n + 1, s =>
    let (d, s) := readReel (1 + p) (80 + p) p w s
    let (v, s) := match d with
      | some v => (v, s)
      | none => (s.free, s.nextFree)
    let (l, s) := ntfWords p (w + 1) n s
    (v :: l, s)
/-- The push queue of a port is reset to empty, and its records wait anew (R399, R455). -/
def ntfFault (p : Nat) (s : State) : State :=
  queueFault 8 (16 * p + 3) p (s.onPort p (fun x => { x with ntfq := x.ntfq.clear, ntfBack := x.ntfq.items ++ x.ntfBack }))
/-- NTF_SEND (R468): the records that wait to be pushed enter the push queue of 16, and the oldest is sent. -/
def ntfSend (p : Nat) (s : State) : State :=
  let x := port s p
  if !x.ntfq.ok && !(x.ntfq.items.isEmpty && x.ntfBack.isEmpty) then ntfFault p s else
  let n := 16 - x.ntfq.items.length
  let q := (x.ntfBack.take n).foldl (fun q r => q.push 16 r) x.ntfq
  let s := s.setPort p { x with ntfq := q, ntfBack := x.ntfBack.drop n }
  if !maySend s p 3 || !memLive s then s
  else
    match q.items with
    | [] => s
    | r :: _ =>
      let (l, s) := ntfWords p (ntfAddr p r / 8) 4 s
      sendPkt p 3 6 0 stOk 0 l (s.onPort p (fun x => { x with ntfq := q.pop 16 }))
def execNtfSend (p : Fin 4) (s : State) : Host.Outcome State Fault Refusal := .next (ntfSend p s)
/-- NTF_RPTR_WRITE (R468, R483): records are consumed; once space frees, the records lost are told in one record. -/
def rptrWrite (p : Nat) (v : Word) (s : State) : State :=
  let r := s.regP p .hlkNtfRptr 0 0
  let w := s.regP p .hlkNtfWptr 0 0
  if (w - r).toNat < (v - r).toNat then s.stat stRange
  else
    let s := s.setRegP p .hlkNtfRptr 0 0 v
    let n := s.ntf.owed.get 0 p
    let s := if n ≠ 0 ∧ (w - v).toNat < 8192 then
        notifyPorts 0xC3 p [w32 p, w32 n] [p] { s with ntf := { s.ntf with owed := s.ntf.owed.erase p } }
      else s
    s.stat stOk
def execNtfRptrWrite (port : Fin 4) (val : Word) (s : State) : Host.Outcome State Fault Refusal := .next (served (rptrWrite port val) s)
/-- Whether ALERT_N is asserted (R469). -/
def alerted (s : State) : Bool :=
  let cfg := s.regP 0 .hlkNtfCfg 0 0
  s.fab.released && ((bitOf cfg 30 && (s.regP 0 .hlkNtfWptr 0 0 != s.regP 0 .hlkNtfRptr 0 0)) ||
    (bitOf cfg 29 && (port s 0).state != 5))

/-! ## Export packets (R315, R316, R470) -/

/-- Word 1 of an EXP packet. -/
def expFlags (last skip hash : Bool) (st : Status) : DWord :=
  BitVec.ofNat 64 (b2n last + place 1 1 (b2n skip) + place 2 1 (b2n hash) + place 4 4 st.toNat)
/-- Send an EXP packet. -/
def sendExp (n : Nat) (e : ExpSt) (off : Nat) (flags : DWord) (rest : List DWord) (s : State) : State :=
  sendPkt e.port 4 7 0 stOk n (BitVec.ofNat 64 off :: flags :: rest) s
/-- Slots C and D of an export take a state. -/
def exportState (n : Nat) (e : ExpSt) (st : BitVec 4) (s : State) : State :=
  let s := s.setSlot n 2 { slotOf s n 2 with state := st }
  if e.hash then s.setSlot n 3 { slotOf s n 3 with state := st } else s
/-- Slots C and D have read `k` words. -/
def exportMoved (n k : Nat) (e : ExpSt) (s : State) : State :=
  let o := (slotOf s n 2).pos
  let q := o + 4 * k
  let bs := bytesOfWords ((List.range k).map (fun j => spoolWord s n (o + 4 * j)))
  let e' := { e with seg := if e.hash then some (e.seg.getD o) else none, bytes := if e.hash then e.bytes ++ bs else [],
                     sent := e.sent + 4 * k, run := lastRun s n q }
  let s := sendExp n e o (expFlags false false e.hash stOk) (dwordsOfBytes bs) s
  let s := (s.setExp n (some e')).setSlot n 2 { slotOf s n 2 with pos := q }
  let s := if e.hash then s.setSlot n 3 { slotOf s n 3 with pos := q } else s
  if e.hash && q % 2 ^ 22 == 0 then closeEntry n stOk s else s
/-- The next bytes of an export: up to 256 of them, within one export segment; less than that at its end, or as they become
readable where it follows the writer. -/
def exportBytes (n : Nat) (e : ExpSt) (s : State) : State :=
  let o := (slotOf s n 2).pos
  let lim := runLimit s n e.follow e.endTime e.stop o
  let room := min 64 ((2 ^ 22 - o % 2 ^ 22) / 4)
  let have_ := (lim.off - o) / 4
  let k := min room have_
  if lim.done && have_ == 0 then endExport n 5 (exportStatus e) s
  else if (k == room) || lim.done || (e.follow && decide (0 < k)) then
    let (okD, s) := if e.hash then readOk n (1 + e.port.val) 86 o k s else (true, s)
    let (okC, s) := readOk n (1 + e.port.val) (80 + e.port.val) o k s
    if okC && okD then exportState n e (if e.follow && lim.off == o + 4 * k then 3 else 2) (exportMoved n k e s)
    else endExport n 6 stFault s
  else exportState n e (if e.follow then 3 else 2) s
/-- EXPORT_PACKET_SEND (R470): a closed ledger entry that waits goes first, and every HASH export waits with it (R565); then a skip, the LAST packet, the next bytes. -/
def exportSend (n : Nat) (s : State) : State :=
  let s := tryClose n s
  match (spoolOf s n).exp with
  | none => s
  | some e =>
    if (slotOf s n 2).state == 7 || !memLive s || s.xng.stopped.contains 192 then s
    else if e.closing.isSome || (e.hash && s.sec.ledWait) || !maySend s e.port 4 then (if e.final.isSome then s else exportState n e 4 s)
    else if qBad s e.port 4 then portQFault e.port 4 s
    else
      match e.skip with
      | some (a, b) =>
        let s := sendExp n e b (expFlags false true e.hash stOk) [BitVec.ofNat 64 a] (s.setExp n (some { e with skip := none }))
        notify 0xC7 e.port.val ([w32 (place 24 8 e.port.val + place 0 12 n)] ++ pair a ++ pair b) s
      | none =>
        match e.final with
        | some st => (sendExp n e (slotOf s n 2).pos (expFlags true false e.hash st) [] s).setExp n none
        | none => whenAwake n (exportBytes n e) s
def execExportPacketSend (spool : Fin 2112) (s : State) : Host.Outcome State Fault Refusal := .next (exportSend spool s)

end Sys2Proof.Machine
end

