-- ==== Sys2Proof/Machine/Observe.lean ====
section
/-! DEFINITION. Observe: event counters, trace probes, the trace writer, ply counter reads and the TAP (R602–R617). -/
namespace Sys2Proof.Machine

/-- Change the observation block. -/
def State.onObs (s : State) (f : ObsSt → ObsSt) : State := { s with obs := f s.obs }
/-- The observation level (R561). -/
def obsLevel (s : State) : Nat := secState s

/-! ## Sources (R603, R604) -/

/-- The indexes of a class and its highest event, and whether probes alone may name it (R603). -/
def srcRow (cls : Nat) : Option (Nat × Nat × Bool) :=
  if cls < 12 then
    some ([1, 64, 2112, 4096, 16, 4, 3968, 1, 1, 3968, 3968, 2112].getD cls 0, [0, 3, 2, 6, 3, 2, 2, 2, 1, 0, 1, 0].getD cls 0,
      decide (9 ≤ cls))
  else none
/-- Whether a word names a source, for a probe or for a counter (R603). -/
def srcOk (probe : Bool) (v : Word) : Bool :=
  match srcRow (srcClass v) with
  | some (n, ev, only) =>
    decide (srcIndex v < n ∧ fld v 15 12 ≤ ev) && (srcClass v == 9 || fld v 11 6 == 0) && (probe || !only)
  | none => false
/-- Whether a port's domain holds a source: the owner may name every one (R604). -/
def srcMine (s : State) (p : Nat) (v : Word) : Bool :=
  p == 0 ||
    (match srcClass v with
     | 0 => true
     | 2 | 11 => (spoolDom s (srcIndex v)).val == p
     | 5 => srcIndex v == p
     | 6 | 9 | 10 => (tileDom s (srcIndex v)).val == p
     | _ => false)
/-- A source word without its reserved bits. -/
def srcWord (v : Word) : Word := v &&& 0xFFFFFFC0

/-! ## Counters -/

/-- Counter `k`. -/
def obsCnt (s : State) (k : Nat) : ObsCnt := s.obs.cnts.get ObsCnt.init k
/-- Store counter `k`. -/
def State.setCnt (s : State) (k : Nat) (x : ObsCnt) : State := s.onObs (fun o => { o with cnts := o.cnts.set ObsCnt.init k x })
/-- What a write of a counter's source answers (R603–R605). -/
def cntSrcStatus (s : State) (p k : Nat) (v : Word) : Status :=
  firstBad [allow (p == 0 || p == k / 128), within (srcOk false v), allow (srcMine s p v)]
/-- A counter's source is set and the counter cleared (R605). -/
def putCntSrc (k : Nat) (v : Word) (s : State) : State :=
  ((wakeIsl 7 0 s).setReg .obsCntSrc k (srcWord v)).setCnt k { obsCnt s k with count := 0, base := none }
/-- A write of OBS_CNT_SRC. -/
def cntSrcWrite (p k : Nat) (v : Word) (s : State) : State := checked [cntSrcStatus s p k v] (putCntSrc k v) s
/-- OBS_CNT_SRC_WRITE (R605). -/
def execObsCntSrcWrite (port : Fin 4) (k : Fin 512) (val : Word) (s : State) : Host.Outcome State Fault Refusal :=
  .next (served (cntSrcWrite port k val) s)
/-- A source's tally cannot be read: its crossing has been reported, or its island is in reset (R384, R607). -/
def srcUnstable (s : State) (v : Word) : Bool :=
  match srcIsland v with
  | some (i, k) => s.xng.xings.any (fun e => valueOf i k e.1 && (e.2.unstable || e.2.absent))
  | none => false
/-- A counter after a tally read (R606, R607): the difference is added, up to the greatest count. -/
def cntRead (t : BitVec 16) (x : ObsCnt) : ObsCnt :=
  match x.base with
  | none => { x with base := some t }
  | some b => { x with base := some t, count := BitVec.ofNat 48 (min (x.count.toNat + (t - b).toNat) (2 ^ 48 - 1)) }
/-- Read one counter's source. -/
def readCnt (k : Nat) (s : State) : State :=
  let v := s.reg .obsCntSrc k
  if v = 0 || srcUnstable s v then s
  else
    let x := obsCnt s k
    let y := cntRead (s.obs.tally.get 0 v.toNat) x
    let s := s.setCnt k y
    if y.count = BitVec.allOnes 48 ∧ x.count ≠ BitVec.allOnes 48 then notify 0xD3 (k / 128) [w32 k] s else s
/-- A round of tally reads (R606); a source that was reported agrees again from here on (R384). -/
def tallyRound (s : State) : State :=
  let s := forEach (List.range 512) readCnt s
  forEach [1, 2, 3, 4, 5, 6, 7] agree s
/-- TALLY_READ (R606). -/
def execTallyRead (s : State) : Host.Outcome State Fault Refusal := .next (tallyRound s)
/-- OBS_CTL.SNAP captures all counters from one round (R606). -/
def snapAll (s : State) : State :=
  let s := tallyRound (wakeIsl 7 0 s)
  (s.onObs (fun o => { o with cnts := o.cnts.map (fun e => (e.1, { e.2 with snap := e.2.count })) })).stat stOk
/-- SNAP (R606). -/
def execSnap (_port : Fin 4) (s : State) : Host.Outcome State Fault Refusal := .next (served (snapAll) s)
/-- The count that a port reads: live, or the snapshot that its READ_SNAP selects (R606). -/
def cntValue (s : State) (p k : Nat) : BitVec 48 :=
  if bitOf (s.regP p .obsCtl 0 0) 30 then (obsCnt s k).snap else (obsCnt s k).count
/-- A read of OBS_CNT_LO latches OBS_CNT_HI (R617). -/
def cntLoRead (p k : Nat) (s : State) : State :=
  if p = 0 ∨ p = k / 128 then
    let n := (cntValue s p k).toNat
    ((wakeIsl 7 0 s).setRegP p .obsCntHi k 0 (w32 (n / 2 ^ 32))).finish stOk [w32 n]
  else s.finish stDenied [0]
/-- OBS_CNT_READ (R617). -/
def execObsCntRead (port : Fin 4) (k : Fin 512) (s : State) : Host.Outcome State Fault Refusal := .next (servedRead (cntLoRead port k) s)
/-- Answer an RD of counters (R614). -/
def plyCntRead (dom : Nat) (s : State) : State :=
  let pt := portOf s .obs 0
  match nextReq s pt with
  | none => s
  | some p =>
    if p.dom.val ≠ dom ∨ p.op ≠ 2 then s
    else
      let k := (p.words.getD 0 0).toNat
      let n := (p.words.getD 1 0).toNat
      let s := takeReq pt s
      if n = 0 ∨ 8 < n ∨ 512 < k + n then refuseAtExit p stRange s
      else
        answer p stOk ((List.range n).flatMap (fun i =>
          let c := (obsCnt s (k + i)).count.toNat
          [w32 c, w32 (c / 2 ^ 32)])) s
/-- COUNTER_READ (R614). -/
def execCounterRead (dom : Fin 4) (s : State) : Host.Outcome State Fault Refusal := .next (plyCntRead dom s)

/-! ## Probes and the trace writer (R609–R613) -/

/-- Probe `j`. -/
def probe (s : State) (j : Nat) : ProbeSt := s.obs.probes.get ProbeSt.init j
/-- Store probe `j`. -/
def State.setProbe (s : State) (j : Nat) (x : ProbeSt) : State :=
  s.onObs (fun o => { o with probes := o.probes.set ProbeSt.init j x })
/-- A probe's class is one that level 2 forbids (R609). -/
def sealedClass (v : Word) : Bool := decide (9 ≤ srcClass v)
/-- What a write of a probe's source answers (R561, R603, R604, R609). -/
def probeSrcStatus (s : State) (p j : Nat) (v : Word) : Status :=
  firstBad [allow (p == 0 || (p == j / 4 && obsLevel s == 0)), within (srcOk true v), allow (srcMine s p v),
    allow (!(obsLevel s == 2 && sealedClass v))]
/-- A probe's source is set. -/
def putProbeSrc (j : Nat) (v : Word) (s : State) : State := (wakeIsl 7 0 s).setReg .obsProbeSrc j (srcWord v)
/-- A write of OBS_PROBE_SRC. -/
def probeSrcWrite (p j : Nat) (v : Word) (s : State) : State := checked [probeSrcStatus s p j v] (putProbeSrc j v) s
/-- OBS_PROBE_SRC_WRITE (R609). -/
def execObsProbeSrcWrite (port : Fin 4) (j : Fin 16) (val : Word) (s : State) : Host.Outcome State Fault Refusal :=
  .next (served (probeSrcWrite port j val) s)
/-- A record (R609). -/
def probeWords (j : Nat) (v : Word) (lost : Bool) (data : Word) (t : Tick) : List Word :=
  let c := srcClass v
  let d := if c = 9 ∨ c = 10 then data else if c = 11 then data &&& 3 else 0
  [w32 (place 28 4 j + place 24 4 c + place 18 6 (if c = 9 then fld v 11 6 else 0) + place 16 2 (fld v 15 12) +
    place 15 1 (b2n lost) + place 0 12 (srcIndex v)), d] ++ tickPair t
/-- A record of a probe is lost (R610). -/
def loseProbe (j : Nat) (s : State) : State :=
  let s := (s.bump .obsProbeStat j 1).setProbe j { probe s j with lostFlag := true }
  notifyOnce 0xD1 j (j / 4) 1 [w32 j] s
/-- An occurrence at a probe's source (R609, R610); in Doze and Park the probes stand still (R562). -/
def probeOccurs (j : Nat) (data : Word) (time : Tick) (s : State) : State :=
  let v := s.reg .obsProbeSrc j
  if v = 0 || !coreLive s then s
  else if 16 ≤ (probe s j).q.length then loseProbe j s
  else
    let x := probe s j
    let t := if srcClass v = 11 then time else s.now &&& ~~~(0x1FF : BitVec 64)
    let w := probeWords j v x.lostFlag data t
    (s.setProbe j { x with q := x.q ++ [w], lostFlag := false, last := w }).onObs (fun o => { o with order := o.order ++ [j] })
/-- PROBE_RECORD (R609). -/
def execProbeRecord (j : Fin 16) (data : Word) (time : Tick) (s : State) : Host.Outcome State Fault Refusal :=
  .next (probeOccurs j data time s)
/-- The buffer takes records. -/
def toBuffer (s : State) : Bool := bitOf (s.reg .obsTraceCfg 0) 30
/-- Whether the security state lets records out on TRC (R561, R562). -/
def trcOn (s : State) : Bool := obsLevel s == 0 || (obsLevel s == 1 && bitOf (s.reg .secCtl 0) 31)
/-- The buffer takes a record on master 87 (R42, R611), or the record is lost where STOP has been reached. -/
def bufferRecord (j : Nat) (w : List Word) (s : State) : State :=
  if !toBuffer s then s
  else if s.obs.full then loseProbe j s
  else
    let n := s.obs.wptr
    let s := (writeWordsAs 0 87 (0x1FC00000 + n % 65536 * 16) w s).setReg .obsTraceWptr 0 (w32 (n + 1))
    let s := s.onObs (fun o => { o with wptr := n + 1 })
    if bitOf (s.reg .obsTraceCfg 0) 29 ∧ s.obs.stopAt + 65536 ≤ n + 1 then
      notifyOwner 0xD0 0 [w32 (n + 1)] (s.onObs (fun o => { o with full := true }))
    else s
/-- The units that have left on TRC since the last one: one in 64 ns (R612; notes/assumptions/24.md). -/
def drainTrc (s : State) : State :=
  let gone := min ((s.now - s.obs.trcAt).toNat / 8192) s.obs.trcq.length
  let left := s.obs.trcq.drop gone
  s.onObs (fun o => { o with trcq := left,
                             trcAt := if left.isEmpty then s.now else o.trcAt + BitVec.ofNat 64 (8192 * gone) })
/-- TRC takes a record, or drops it at a full output queue (R613). -/
def trcRecord (w : List Word) (s : State) : State :=
  if !bitOf (s.reg .obsTraceCfg 0) 31 || !trcOn s then s
  else
    let s := drainTrc s
    if 64 ≤ s.obs.trcq.length then notifyOnce 0xD2 0 0 1 [] (s.bump .obsTraceDrop 0 1)
    else s.onObs (fun o => { o with trcq := o.trcq ++ [w] })
/-- The trace writer takes the oldest record (R610). -/
def traceWriter (s : State) : State :=
  match s.obs.order with
  | [] => s
  | j :: t =>
    match (probe s j).q with
    | [] => s.onObs (fun o => { o with order := t })
    | w :: r =>
      if s.memory.vret then s
      else
        trcRecord w (bufferRecord j w ((s.setProbe j { probe s j with q := r }).onObs (fun o => { o with order := t })))
/-- TRACE_WRITE (R610). -/
def execTraceWrite (s : State) : Host.Outcome State Fault Refusal := .next (traceWriter s)
/-- OBS_TRACE_CFG (R611, R617): STOP counts from the write pointer at enable. -/
def putTraceCfg (v : Word) (s : State) : State :=
  let stops (w : Word) : Bool := bitOf w 30 && bitOf w 29
  let old := s.reg .obsTraceCfg 0
  let s := s.putFields 0 .obsTraceCfg 0 0 v
  if stops v then (if stops old then s else s.onObs (fun o => { o with stopAt := o.wptr, full := false }))
  else s.onObs (fun o => { o with full := false })

/-! ## Boundary scan (R615) -/

/-- The identification register. -/
def idWord : Word := w32 (place 28 4 Config.maskStep.toNat + place 12 16 0x4096 + place 1 11 0x2B5 + 1)
/-- The TAP takes an instruction. -/
def tapSelect (ir : BitVec 4) (s : State) : State := s.onObs (fun o => { o with tapIr := ir })
/-- IDCODE (R615). -/
def execIdcode (s : State) : Host.Outcome State Fault Refusal := .next ((tapSelect 1 s).finish stOk [idWord])
/-- Capture the ball states. -/
def sampleBalls (balls : BitVec 1263) (s : State) : State := (tapSelect 2 s).onObs (fun o => { o with boundary := balls })
/-- SAMPLE/PRELOAD (R615). -/
def execSamplePreload (balls : BitVec 1263) (s : State) : Host.Outcome State Fault Refusal := .next (sampleBalls balls s)
/-- BYPASS, or any code that acts as BYPASS (R615). -/
def execBypass (code : BitVec 4) (s : State) : Host.Outcome State Fault Refusal := .next (tapSelect code s)
/-- TEST_LOGIC_RESET (R615): IDCODE is selected. -/
def execTestLogicReset (s : State) : Host.Outcome State Fault Refusal := .next (tapSelect 1 s)

end Sys2Proof.Machine
end

