-- ==== Sys2Proof/Machine/Security.lean ====
section
/-! DEFINITION. Security: fuses and their programming, ownership, reports and the ledger's registers (R549, R553–R574, R637).
The ledger's own records stand in Ledger.lean. -/
namespace Sys2Proof.Machine

/-- The value that an irreversible command carries (R559). -/
def confirmed (v : Word) : Bool := fld v 27 12 == 0xA5C3
/-- Whether a load runs. -/
def loadRuns (s : State) : Bool := s.ldr.load.isSome
/-- The hash in a port's SEC_CMD_ARG0–7 (R572). -/
def argHash (s : State) (p : Nat) : List Byte := bytesOfWords ((List.range 8).map (fun i => s.regP p .secCmdArg i 0))
/-- SEC_CMD_STAT (R572). -/
def secStatWord (running : Bool) (op : Nat) (st : Status) : Word :=
  w32 (place 31 1 (b2n running) + place 30 1 1 + place 4 4 op + st.toNat)
/-- Whether a port's security command runs. -/
def secBusy (s : State) (p : Nat) : Bool := bitOf (s.regP p .secCmdStat 0 0) 31
/-- A security command completes at its write. -/
def secDone (p op : Nat) (st : Status) (s : State) : State :=
  (s.setRegP p .secCmdStat 0 0 (secStatWord false op st)).stat st
/-- Judge a security command at its write (R573): the first status that applies; `act` starts it. A command that is DENIED
changes nothing (R571). -/
def secCommand (p op : Nat) (l : List Status) (act : State → State) (s : State) : State :=
  if l.headD stOk = stDenied then s.stat stDenied
  else if secBusy s p then s.stat stBusy
  else if firstBad l = stOk then act s
  else secDone p op (firstBad l) s

/-! ## Fuse programs (R555) -/

/-- Whether a fuse program runs (R555, R549). -/
def fuseBusy (s : State) : Bool := s.sec.fuseOp.isSome
/-- Start a fuse program for a port. -/
def startFuse (p op : Nat) (f : FuseOp) (s : State) : State :=
  ((s.onSec (fun x => { x with fuseOp := some f })).setRegP p .secCmdStat 0 0 (secStatWord true op stOk)).stat stOk
/-- What a fuse command answers beside its own conditions: BUSY under R569, FAULT under R555. -/
def fuseStatus (s : State) : List Status :=
  [busyIf (loadRuns s || fuseBusy s), if s.sec.vfuseOk then stOk else stFault]
/-- A fuse command of SEC_CMD (R573): a FAULT is also raised (R570). -/
def fuseCommand (p op : Nat) (l : List Status) (f : FuseOp) (s : State) : State :=
  let l := allow (p == 0) :: (l ++ fuseStatus s)
  let s' := secCommand p op l (startFuse p op f) s
  if !secBusy s p && firstBad l == stFault then notifyOwner 0x37 0 [w32 op] s' else s'
/-- UNSUPPORTED where the condition fails. -/
def supported (b : Bool) : Status := if b then stOk else stUnsupported
/-- A valid, unrevoked slot. -/
def slotGood (x : FuseSt) (i : Nat) : Bool := (x.slots.find i).isSome && !x.revoked.contains i

/-- TAKE_OWNERSHIP (R557). -/
def takeOwnership (p : Fin 4) (v : Word) (s : State) : State :=
  let h := argHash s p
  fuseCommand p 1 [supported (secState s == 0),
    within (confirmed v && s.ldr.signed && h == s.ldr.modHash)] (.own p h) s
/-- TAKE_OWNERSHIP (R557). -/
def execTakeOwnership (port : Fin 4) (val : Word) (s : State) : Host.Outcome State Fault Refusal := .next (takeOwnership port val s)
/-- PROGRAM_SLOT (R558). -/
def programSlot (p : Fin 4) (v : Word) (s : State) : State :=
  let i := fld v 1 0
  fuseCommand p 2 [supported (secState s == 1),
    within (confirmed v && (i == 1 || i == 2) && (s.sec.fuses.slots.find i).isNone)] (.slot p i (argHash s p)) s
/-- PROGRAM_SLOT (R558). -/
def execProgramSlot (port : Fin 4) (val : Word) (s : State) : Host.Outcome State Fault Refusal := .next (programSlot port val s)
/-- REVOKE_SLOT (R558): one good slot must be left. -/
def revokeSlot (p : Fin 4) (v : Word) (s : State) : State :=
  let i := fld v 1 0
  let left := (List.range 3).any (fun k => k != i && slotGood s.sec.fuses k)
  fuseCommand p 3 [supported (secState s != 0),
    within (confirmed v && (s.sec.fuses.slots.find i).isSome && left)] (.revoke p i) s
/-- REVOKE_SLOT (R558). -/
def execRevokeSlot (port : Fin 4) (val : Word) (s : State) : Host.Outcome State Fault Refusal := .next (revokeSlot port val s)
/-- SEAL (R559). -/
def sealPart (p : Fin 4) (v : Word) (s : State) : State :=
  fuseCommand p 4 [supported (secState s == 1), within (confirmed v)] (.seal p) s
/-- SEAL (R559). -/
def execSeal (port : Fin 4) (val : Word) (s : State) : Host.Outcome State Fault Refusal := .next (sealPart port val s)
/-- ADVANCE_ROLLBACK (R560): nothing is programmed where the counter needs no step. -/
def advanceRollback (p : Fin 4) (v : Word) (s : State) : State :=
  let l := [supported (secState s != 0 && s.sec.slotUsed.isSome), within (confirmed v)]
  if s.ldr.rollback ≤ s.sec.fuses.rollback then
    secCommand p 5 (allow (p == 0) :: (l ++ [busyIf (loadRuns s || fuseBusy s)])) (secDone p 5 stOk) s
  else fuseCommand p 5 l (.rollback p s.ldr.rollback) s
/-- ADVANCE_ROLLBACK (R560). -/
def execAdvanceRollback (port : Fin 4) (val : Word) (s : State) : Host.Outcome State Fault Refusal :=
  .next (advanceRollback port val s)

/-- SCRUB_FUSE_STAT's stored bits (R552). -/
def fuseStatWord (running : Bool) (st : Status) : Word := w32 (place 31 1 (b2n running) + place 30 1 1 + place 26 4 st.toNat)
/-- FUSE_RETIRE (R549). -/
def fuseRetire (p : Fin 4) (v : Word) (s : State) : State :=
  let t := fld v 11 0
  let st := firstBad [allow (p == 0),
    within (s.dst.retRt.any (fun e => e.tile == t) && decide (s.sec.fuses.retired.length < 128)), busyIf (fuseBusy s),
    if s.sec.vfuseOk then stOk else stFault]
  if st = stOk then
    ((s.onSec (fun x => { x with fuseOp := some (.retire p t) })).setReg .scrubFuseStat 0 (fuseStatWord true stOk)).stat stOk
  else if p = 0 ∧ st ≠ stBusy then (s.setReg .scrubFuseStat 0 (fuseStatWord false st)).stat st
  else s.stat st
/-- FUSE_RETIRE (R549). -/
def execFuseRetire (port : Fin 4) (val : Word) (s : State) : Host.Outcome State Fault Refusal := .next (served (fuseRetire port val) s)

/-- Change the fuses. -/
def State.onFuses (s : State) (f : FuseSt → FuseSt) : State := s.onSec (fun x => { x with fuses := f x.fuses })
/-- At level 2 a probe whose source the level forbids is disabled and reads 0 (R563). -/
def sealProbes (s : State) : State :=
  forEach (List.range 16) (fun j s =>
    if decide (9 ≤ fld (s.reg .obsProbeSrc j) 31 28) then s.setReg .obsProbeSrc j 0 else s) s
/-- The item of a fuse program is in force; a rollback counter stands at `n` (R555). -/
def fuseForce (f : FuseOp) (n : Nat) (s : State) : State :=
  match f with
  | .own _ h => s.onFuses (fun x => { x with slots := x.slots.put 0 h, owned := true })
  | .slot _ i h => s.onFuses (fun x => { x with slots := x.slots.put i h })
  | .revoke _ i => s.onFuses (fun x => { x with revoked := insertNat i x.revoked })
  | .seal _ => sealProbes (s.onFuses (fun x => { x with sealed_ := true }))
  | .rollback _ _ => s.onFuses (fun x => { x with rollback := n })
  | .retire _ t =>
    ({ s with dst := { s.dst with retRt := s.dst.retRt.filter (fun e => e.tile != t) } }).onFuses (fun x => { x with retired := x.retired ++ [t] })
/-- A fuse command's status where it ends. -/
def fuseEnd (f : FuseOp) (st : Status) (s : State) : State :=
  let s := s.onSec (fun x => { x with fuseOp := none })
  match f with
  | .own p _ => s.setRegP p .secCmdStat 0 0 (secStatWord false 1 st)
  | .slot p _ _ => s.setRegP p .secCmdStat 0 0 (secStatWord false 2 st)
  | .revoke p _ => s.setRegP p .secCmdStat 0 0 (secStatWord false 3 st)
  | .seal p => s.setRegP p .secCmdStat 0 0 (secStatWord false 4 st)
  | .rollback p _ => s.setRegP p .secCmdStat 0 0 (secStatWord false 5 st)
  | .retire _ _ => s.setReg .scrubFuseStat 0 (fuseStatWord false st)
/-- What a completed fuse program raises (R550, R570): TAKE_OWNERSHIP programs slot 0, which is a SEC_SLOT too. -/
def fuseNotice (f : FuseOp) (s : State) : State :=
  match f with
  | .own _ h => notifyOwner 0x30 0 [(wordsOfBytes h).headD 0] (notifyOwner 0x32 0 [0, 0] s)
  | .slot _ i _ => notifyOwner 0x32 0 [w32 i, 0] s
  | .revoke _ i => notifyOwner 0x32 0 [w32 i, 1] s
  | .seal _ => notifyOwner 0x31 0 [] s
  | .rollback _ n => notifyOwner 0x33 0 [w32 n] s
  | .retire _ t =>
    notifyOwner 0x56 0 [tileItem t, 1] (notifyOwner 0x26 0 [tileItem t, w32 s.sec.fuses.retired.length] s)
/-- The steps that a rollback program brings the counter to. -/
def fuseTarget (f : FuseOp) : Nat :=
  match f with
  | .rollback _ n => n
  | .own _ _ => 0
  | .slot _ _ _ => 0
  | .revoke _ _ => 0
  | .seal _ => 0
  | .retire _ _ => 0
/-- A fuse program completes (R555). -/
def fuseDone (s : State) : State :=
  match s.sec.fuseOp with
  | some f => fuseNotice f (fuseForce f (fuseTarget f) (fuseEnd f stOk s))
  | none => s
/-- FUSE_PROGRAM_DONE (R555). -/
def execFuseProgramDone (s : State) : Host.Outcome State Fault Refusal := .next (fuseDone s)
/-- The op code of a program of SEC_CMD. -/
def fuseCode : FuseOp → Option Nat
  | .own _ _ => some 1
  | .slot _ _ _ => some 2
  | .revoke _ _ => some 3
  | .seal _ => some 4
  | .rollback _ _ => some 5
  | .retire _ _ => none
/-- Programming is cut short (R555): the item is in force or not, a rollback counter stands between its old and its intended
value, which of the two a free value says. Of TAKE_OWNERSHIP slot 0 is programmed first and OWNED then (R557): the cut may come between
the two. A retirement entry cut short is never valid (R549). -/
def fuseCut (f : FuseOp) (s : State) : State :=
  let n := s.sec.fuses.rollback + s.free.toNat % (fuseTarget f - s.sec.fuses.rollback + 1)
  let yes := (fuseCode f).isSome && (bitOf s.free 63 || fuseCode f == some 5)
  let slotOnly := bitOf s.free 62
  let s := s.nextFree
  let s := s.onSec (fun x => { x with fuseOp := none })
  match f with
  | .own p h => if !yes then s else if slotOnly then fuseForce (.slot p 0 h) n s else fuseForce f n s
  | _ => if yes then fuseForce f n s else s
/-- VFUSE leaves its limits while an item is programmed (R637). -/
def vfuseLost (s : State) : State :=
  let s' := s.onSec (fun x => { x with vfuseOk := false })
  match s.sec.fuseOp with
  | some f =>
    let s' := fuseEnd f stFault (fuseCut f s')
    match fuseCode f with
    | some op => notifyOwner 0x37 0 [w32 op] s'
    | none => s'
  | none => s'
/-- VFUSE_LOST (R637). -/
def execVfuseLost (s : State) : Host.Outcome State Fault Refusal := .next (vfuseLost s)

/-! ## Reports (R567, R568) -/

/-- CFG_HASH0–7 or CFG_PHASH0–7. -/
def hashWords (s : State) (r : Reg) : List Word := (List.range 8).map (fun i => s.reg r i)
/-- The part of SEC_STATUS that a report carries in word 12 (R567). -/
def secWord (s : State) : Nat :=
  place 30 2 (secState s) + place 28 2 (secState s) + place 26 2 (s.sec.slotUsed.getD 0) +
    place 25 1 (b2n s.sec.slotUsed.isSome) + place 0 7 s.sec.fuses.rollback
/-- Words 0–63 of a report. -/
def reportWords (s : State) (p kind : Nat) : List Word :=
  let head := kind == 2
  let chain := if head then wordsOfBytes s.sec.ledChain else List.replicate 8 0
  ([w32 (0x4B450000 + 256 * kind + 1), w32 p] ++ tickPair s.now ++ wordsOfBytes deviceId ++
    [w32 (secWord s + place 24 1 (b2n (s.scrub.state == 2)))] ++ hashWords s .cfgHash ++ hashWords s .cfgPhash ++
    [s.reg .cfgDesign 0, s.reg .cfgPdesign 0] ++ (List.range 8).map (fun i => s.regP p .secCmdArg i 0) ++
    (if head then pair (s.sec.ledNext - 1) else [0, 0]) ++ chain ++
    [w32 s.sec.openCount, w32 s.sec.suspects, s.reg .secLedgerLost 0] ++ List.replicate 12 0).take 64
/-- Whether a report may be served: not before I/O release (R569); in Park to port 0 alone (R562). -/
def reportBusy (s : State) (p : Nat) : Bool := s.ldr.state != 4 || (s.pwr.state == 3 && p != 0)
/-- Accept a report request: it is assembled and waits for its signature (R568). -/
def startReport (p : Fin 4) (op kind : Nat) (s : State) : State :=
  let ws := reportWords s p kind
  ((s.onSec (fun x => { x with reports := x.reports ++ [(p, BitVec.ofNat 8 kind, ws)] })).setRegP p .secCmdStat 0 0
    (secStatWord true op stOk)).stat stOk
/-- ATTEST (R567). -/
def attest (p : Fin 4) (s : State) : State := secCommand p 6 [busyIf (reportBusy s p)] (startReport p 6 1) s
/-- ATTEST (R567). -/
def execAttest (port : Fin 4) (s : State) : Host.Outcome State Fault Refusal := .next (attest port s)
/-- SIGN_HEAD (R567). -/
def signHead (p : Fin 4) (s : State) : State :=
  secCommand p 7 [allow (p == 0), busyIf (reportBusy s p), within (s.sec.ledNext != 0)] (startReport p 7 2) s
/-- SIGN_HEAD (R567). -/
def execSignHead (port : Fin 4) (s : State) : Host.Outcome State Fault Refusal := .next (signHead port s)
/-- SEC_REPORT_DONE goes to the issuing port (R570). -/
def reportNotice (p : Fin 4) (kind : BitVec 8) (st : Status) (seq : Word) (s : State) : State :=
  notifyPorts 0x34 p [w32 kind.toNat, w32 st.toNat, seq] [p.val] s
/-- Store a port's registers of a row from index `k` up. -/
def putPortRegs (p : Nat) (r : Reg) : Nat → List Word → State → State
  | _, [], s => s
  | k, w :: t, s => putPortRegs p r (k + 1) t (s.setRegP p r k 0 w)
/-- The signature of a report's digest by the identity key (R567); the 32 bytes of the salt are free values. -/
def reportSig (s : State) (h : List Byte) : List Word :=
  wordsOfBytes (pssSign (Config.identityPrime false) (Config.identityPrime true) h
    (bytesOfDwords ((List.range 4).map s.freeAt)))
/-- A report's signature is complete (R568 step 4). -/
def reportDone (s : State) : State :=
  match s.sec.reports with
  | [] => s
  | (p, kind, ws) :: t =>
    let h := sha256 (bytesOfWords ws)
    let sig := reportSig s h
    let s := (s.nextFree).onSec (fun x => { x with reports := t })
    let s := putPortRegs p .secRpt 0 (ws ++ sig) s
    let s := s.setRegP p .secCmdStat 0 0 (secStatWord false (if kind = 2 then 7 else 6) stOk)
    let s := reportNotice p kind stOk (ws.getD 39 0) s
    if kind = 2 then ledgerRecord 9 0 0 0 0 [ws.getD 39 0, ws.getD 40 0] h s else s
/-- REPORT_DONE (R568). -/
def execReportDone (s : State) : Host.Outcome State Fault Refusal := .next (reportDone s)
/-- An island reset of a port or a reset of its domain ends its request with STALE (R569). -/
def dropReport (p : Nat) (s : State) : State :=
  match s.sec.reports.find? (fun r => r.1.val == p) with
  | some (q, kind, ws) =>
    let s := s.onSec (fun x => { x with reports := x.reports.filter (fun r => r.1.val != p) })
    reportNotice q kind stStale (ws.getD 39 0) (s.setRegP q .secCmdStat 0 0 (secStatWord false (if kind = 2 then 7 else 6) stStale))
  | none => s

/-! ## Ledger registers (R574) -/

/-- The SEQ that a write of SEC_LEDGER_ACK_LO or SEC_REC_SEL_LO forms. -/
def seqOf (s : State) (p : Nat) (hi : Reg) (lo : Word) : Nat := lo.toNat + 2 ^ 32 * (s.regP p hi 0 0).toNat
/-- A write of SEC_LEDGER_ACK_LO acknowledges the records up to its SEQ (R574). -/
def ledgerAck (p : Nat) (v : Word) (s : State) : State :=
  let q := seqOf s 0 .secLedgerAckHi v
  checked [allow (p == 0), within (decide (s.sec.ledAck ≤ q + 1 ∧ q < s.sec.ledNext))] (fun s =>
    waitOver ((s.onSec (fun x => { x with ledAck := q + 1 })).setReg .secLedgerAckLo 0 v)) s
/-- LEDGER_ACK_WRITE (R574). -/
def execLedgerAckWrite (port : Fin 4) (val : Word) (s : State) : Host.Outcome State Fault Refusal := .next (ledgerAck port val s)
/-- Copy a selected record into the port's SEC_REC0–31, or say why not. -/
def selectRecord (p q : Nat) (s : State) : Status × State :=
  if s.sec.ledNext ≤ q then (stRange, s)
  else if q + 16384 < s.sec.ledNext then (stLapped, s)
  else
    match readReels 1 86 0 (ledgerAddr q / 8) 16 s with
    | (none, s) => (stFault, s)
    | (some l, s) =>
      let ws := wordsOfDwords l
      if p ≠ 0 ∧ fld (ws.headD 0) 27 26 ≠ p then (stDenied, s) else (stOk, putPortRegs p .secRec 0 ws s)
/-- A write of SEC_REC_SEL_LO selects a record (R571, R574); one that is DENIED changes no register. -/
def recSel (p : Nat) (v : Word) (s : State) : State :=
  let r := selectRecord p (seqOf s p .secRecSelHi v) s
  if r.1 = stDenied then r.2.stat stDenied
  else ((r.2.setRegP p .secRecSelLo 0 0 v).setRegP p .secRecStat 0 0 (w32 r.1.toNat)).stat r.1
/-- REC_SEL_WRITE (R574). -/
def execRecSelWrite (port : Fin 4) (val : Word) (s : State) : Host.Outcome State Fault Refusal := .next (recSel port val s)
/-- A read of SEC_LEDGER_SEQ_LO latches the head's SEQ and CHAIN (R574). -/
def seqRead (p : Nat) (s : State) : State :=
  if p ≠ 0 then s.finish stDenied [0]
  else
    let n := s.sec.ledNext - 1
    let s := s.setRegP p .secLedgerSeqHi 0 0 (w32 (n / 2 ^ 32))
    (putPortRegs p .secLedgerChain 0 (wordsOfBytes s.sec.ledChain) s).finish stOk [w32 n]
/-- LEDGER_SEQ_READ (R574). -/
def execLedgerSeqRead (port : Fin 4) (s : State) : Host.Outcome State Fault Refusal := .next (seqRead port s)
/-- SEC_CTL (R572): with AUTO_ACK every record written counts as acknowledged (R565). -/
def putSecCtl (v : Word) (s : State) : State :=
  let s := s.putFields 0 .secCtl 0 0 v
  waitOver (if autoAck s then s.onSec (fun x => { x with ledAck := x.ledNext }) else s)

end Sys2Proof.Machine
end

