-- ==== Sys2Proof/Machine/Settings.lean ====
section
/-! DEFINITION. Settings: what a write of the RW and LCK fields of a register answers (`settingStatus`) and does (`putSetting`),
apart from each other, since a settings batch checks first and applies later (R471–R473) and an image's WREG pairs are checked
as direct writes would be (R500, R521). The power settings and SYS_LOCK stand here too (R600, R601). -/
namespace Sys2Proof.Machine

/-! ## Locks and power settings -/

/-- The lock bit of the PWR block (R600). -/
def pwrLocked (s : State) : Bool := bitOf (s.reg .sysLock 0) 5
/-- Whether a write would change a locked field of a PWR register, all of whose fields are LCK (R20). -/
def lockChange (s : State) (r : Reg) (v : Word) : Bool := pwrLocked s && written r (s.reg r 0) v != s.reg r 0
/-- The limits that PWR_VLIM may hold (R601). -/
def vlimOk (v : Word) : Bool :=
  let c := fld v 25 16
  let f := fld v 9 0
  decide (620 ≤ f ∧ f ≤ c ∧ c ≤ 900)
/-- The thresholds that PWR_THERM may hold (R601). -/
def thermOk (v : Word) : Bool := decide (fld v 7 0 ≤ 125 ∧ fld v 15 8 < fld v 7 0)
/-- The tick that PWR_WAKE_AT names, with the high half given. -/
def wakeTick (s : State) (hi : Word) : Tick := BitVec.ofNat 64 ((fld hi 15 0 * 2 ^ 32 + (s.reg .pwrWakeAtLo 0).toNat) * 65536)
/-- PWR_WAKE_AT_HI with EN names a tick that has not passed (R586). -/
def wakeAtStatus (s : State) (v : Word) : Status :=
  if bitOf v 31 && !tickLt s.now (wakeTick s v) then stStale else stOk
/-- PWR_WAKE_AT_HI takes its fields; the timer stays off where its tick has passed (R586). -/
def putWakeAt (v : Word) (s : State) : State :=
  s.putFields 0 .pwrWakeAtHi 0 0 (if wakeAtStatus s v = stOk then v else putBit v 31 false)
/-- A write of a PWR register with LCK fields (R20, R601). -/
def pwrLckStatus (s : State) (p : Nat) (r : Reg) (ok : Bool) (v : Word) : Status :=
  firstBad [allow (p == 0 && !lockChange s r v), within ok]
/-- PWR_VLIM_WRITE (R601). -/
def pwrVlimWrite (p : Nat) (v : Word) (s : State) : State :=
  checked [pwrLckStatus s p .pwrVlim (vlimOk v) v] (fun s => s.putFields 0 .pwrVlim 0 0 v) s
/-- PWR_VLIM_WRITE (R589, R601). -/
def execPwrVlimWrite (port : Fin 4) (val : Word) (s : State) : Host.Outcome State Fault Refusal := .next (pwrVlimWrite port val s)
/-- PWR_THERM_WRITE (R601). -/
def pwrThermWrite (p : Nat) (v : Word) (s : State) : State :=
  checked [pwrLckStatus s p .pwrTherm (thermOk v) v] (fun s => s.putFields 0 .pwrTherm 0 0 v) s
/-- PWR_THERM_WRITE (R590, R601). -/
def execPwrThermWrite (port : Fin 4) (val : Word) (s : State) : Host.Outcome State Fault Refusal := .next (pwrThermWrite port val s)
/-- PWR_WAKE_AT_WRITE: a write of PWR_WAKE_AT_HI (R586). -/
def pwrWakeAtWrite (p : Nat) (v : Word) (s : State) : State :=
  ownerOnly p (fun s => (putWakeAt v s).stat (wakeAtStatus s v)) s
/-- PWR_WAKE_AT_WRITE (R586, R601). -/
def execPwrWakeAtWrite (port : Fin 4) (val : Word) (s : State) : Host.Outcome State Fault Refusal := .next (pwrWakeAtWrite port val s)
/-- SYS_LOCK_WRITE: ones set lock bits (R600). -/
def sysLockWrite (p : Nat) (v : Word) (s : State) : State :=
  ownerOnly p (okAfter (fun s => s.setReg .sysLock 0 (s.reg .sysLock 0 ||| (v &&& 0xFFFF)))) s
/-- SYS_LOCK_WRITE (R600). -/
def execSysLockWrite (port : Fin 4) (val : Word) (s : State) : Host.Outcome State Fault Refusal := .next (sysLockWrite port val s)

/-! ## Selections -/

/-- A tenant selects a logical tile of its own domain (R98, R193). -/
def selectTile (s : State) (p t : Nat) : Status := allow (p == 0 || tileDom s t == p)
/-- FAB_TILE_SEL (R98). -/
def fabSelStatus (s : State) (p : Nat) (v : Word) : Status := firstBad [within (decide (fld v 11 0 < 3968)), selectTile s p (fld v 11 0)]
/-- SCRUB_RET_SEL (R552): the fuse list has 128 entries. -/
def retSelOk (v : Word) : Bool := !bitOf v 8 || decide (fld v 7 0 ≤ 127)

/-! ## Every register -/

/-- A domain descriptor register, which no direct write reaches (R480, R485). -/
def isDesc : Reg → Bool
  | .hlkDomCfg => true
  | .hlkDomQuota => true
  | .hlkDomPins => true
  | .hlkDomRange => true
  | .hlkDomSpool => true
  | _ => false
/-- The registers held separately for each port that serve commands of the owner alone, in blocks that deny a tenant every access
they do not name (R248, R551, R571). -/
def ownerCopy : Reg → Bool
  | .laneCmdArg => true
  | .laneCmdData => true
  | .laneCmdStat => true
  | .scrubRetSel => true
  | .secLedgerSeqHi => true
  | .secLedgerChain => true
  | _ => false
/-- Whether port `p` may write the RW and LCK fields of a register at all (the access rules of every block: R92, R98, R148,
R193, R248, R287, R332, R367, R438, R480, R486, R528, R551, R571, R598, R617). -/
def mayWrite (s : State) (p : Nat) (r : Reg) (i : Nat) : Bool :=
  !isDesc r && (p == 0 || ((regDesc r).perPort && !ownerCopy r && !(r == .timeNowHi || r == .timeQdLastLo || r == .timeQdLastHi)) ||
    match r with
    | .timeQdLastLo => qdReach s p i
    | .timeQdLastHi => qdReach s p i
    | .laneSub => mayReach s p i
    | .timeSenseCfg | .timeSenseSub => mayReach s p (2048 + i)
    | .timeQdCfg | .timeQdSub => qdReach s p i
    | .pinOut | .pinDir => bankBit s p i
    | .pwmCfg | .pwmPeriod | .pwmDuty => unitReach s p 3 i
    | .spiCfg | .spiData => unitReach s p 5 i
    | .i2cCfg | .i2cData => unitReach s p 6 i
    | .pinCfg | .pinEvt => bankBit s p (bankOfPin i)
    | .obsCntSrc => p == i / 128
    | .obsProbeSrc => p == i / 4
    | _ => false)
/-- What the write of a value answers beside authority. -/
def valueStatus (s : State) (p : Nat) (r : Reg) (i j : Nat) (v : Word) : Status :=
  match r with
  | .pinCfg => pinCfgStatus s p i v
  | .pinEvt => pinEvtStatus s p i v
  | .pinBankCfg => within (bankCfgOk (s.reg .pinBankCfg i) i v)
  | .pinOut => hostOutTorn s .pinOut i (j == 1) v
  | .pinDir => hostOutTorn s .pinDir i (j == 1) v
  | .pwmPeriod => within (pwmPeriodOk v)
  | .pwmDuty => busyIf (bitOf (s.reg .pwmCfg i) 28)
  | .spiCfg => within (spiCfgOk v)
  | .i2cCfg => within (i2cCfgOk v)
  | .timeQdCfg => within (qdCfgOk v)
  | .timeQdSub => within (subOk v)
  | .timeSenseCfg => within (senseSized s i v)
  | .timeSenseSub => subStatus s p (2048 + i) v
  | .laneSub => subStatus s p i v
  | .laneCfg => laneCfgStatus s i v
  | .laneChEn => within (chEnOk s i v)
  | .memCtl => busyIf ((List.range 16).any (fun g => bitOf v g && !retAllowed s g))
  | .secLedgerAckLo =>
    let q := seqOf s 0 .secLedgerAckHi v
    within (decide (s.sec.ledAck ≤ q + 1 ∧ q < s.sec.ledNext))
  | .secRecSelLo => (selectRecord p (seqOf s p .secRecSelHi v) s).1
  | .pwrVlim => pwrLckStatus s p .pwrVlim (vlimOk v) v
  | .pwrTherm => pwrLckStatus s p .pwrTherm (thermOk v) v
  | .pwrPmb => pwrLckStatus s p .pwrPmb true v
  | .pwrWakeAtHi => wakeAtStatus s v
  | .dstInstSel => selectTile s p (fld v 11 0)
  | .dstTileSel => selectTile s p (fld v 11 0)
  | .fabTileSel => fabSelStatus s p v
  | .scrubRetSel => within (retSelOk v)
  | .obsCntSrc => cntSrcStatus s p i v
  | .obsProbeSrc => probeSrcStatus s p i v
  | .hlkNtfRptr =>
    let r := s.regP p .hlkNtfRptr 0 0
    within (decide ((v - r).toNat ≤ (s.regP p .hlkNtfWptr 0 0 - r).toNat))
  | _ => stOk
/-- What a direct write of register `r` (instance `i`, `j`) by port `p` answers. -/
def settingStatus (s : State) (p : Nat) (r : Reg) (i j : Nat) (v : Word) : Status :=
  if mayWrite s p r i then valueStatus s p r i j v else stDenied
/-- The RW and LCK fields of a register take a value that has been checked, with everything that its write sets going. -/
def putSetting (p : Nat) (r : Reg) (i j : Nat) (v : Word) (s : State) : State :=
  match r with
  | .pinCfg => putPinCfg i v s
  | .pinEvt => putPinEvt i v s
  | .pinBankCfg => putBankCfg i v s
  | .pinOut => putHostOut .pinOut i (j == 1) v s
  | .pinDir => putHostOut .pinDir i (j == 1) v s
  | .pwmCfg => putPwmCfg i v s
  | .pwmPeriod => pwmShadow .pwmPeriod i v s
  | .pwmDuty => pwmShadow .pwmDuty i v s
  | .timeQdCfg => putQdCfg i v s
  | .laneCfg => putLaneCfg i v s
  | .laneChEn => putChEn i v s
  | .laneSub => putSub .laneSub i i v s
  | .timeSenseSub => putSub .timeSenseSub i (2048 + i) v s
  | .memCtl => memCtl v s
  | .secCtl => putSecCtl v s
  | .secLedgerAckLo => ledgerAck 0 v s
  | .secRecSelLo => recSel p v s
  | .pwrWakeAtHi => putWakeAt v s
  | .obsCntSrc => putCntSrc i v s
  | .obsProbeSrc => putProbeSrc i v s
  | .obsTraceCfg => putTraceCfg v s
  | .hlkNtfRptr => rptrWrite p v s
  | _ => s.putFields p r i j v
/-- Whether a register has fields that a batch entry writes: RW or LCK (R471). -/
def hasSetting (r : Reg) : Bool := (regDesc r).rw != 0
/-- A direct write of a register whose fields are all plain settings. -/
def settingWrite (p : Nat) (r : Reg) (i j : Nat) (v : Word) (s : State) : State :=
  checked [settingStatus s p r i j v] (putSetting p r i j v) s

end Sys2Proof.Machine
end

