-- ==== Sys2Proof/Machine/Domains.lean ====
section
/-! DEFINITION. Domains: the consistency rules of the domain descriptors and data areas (R158, R349, R351, R472, R503), which
the loader checks at DIR_END and a settings batch before it is accepted. -/
namespace Sys2Proof.Machine

/-- A place in the register map: register and instance. -/
structure RegIx where
  reg : Reg
  i : Nat
  j : Nat
  deriving DecidableEq, Repr
/-- The address of a place. -/
def RegIx.addr (x : RegIx) : Nat := x.reg.addr x.i x.j

/-- The tenants' ranges as (domain, range, base, count), the enabled ones. -/
def rangesOn (s : State) : List (Nat × Nat × Nat × Nat) :=
  [1, 2, 3].flatMap (fun d => (List.range 8).filterMap (fun r =>
    let w := s.regP 0 .hlkDomRange d r
    if bitOf w 31 then some (d, r, fld w 23 12, fld w 11 0) else none))
/-- An enabled range with COUNT 0 or above tile 3967. -/
def badRange (s : State) : Option RegIx :=
  ((rangesOn s).find? (fun (_, _, b, n) => decide (n = 0 ∨ 3968 < b + n))).map (fun (d, r, _, _) => ⟨.hlkDomRange, d, r⟩)
/-- A range that overlaps one of a lower tenant. -/
def overRange (s : State) : Option RegIx :=
  ((rangesOn s).find? (fun (d, _, b, n) =>
    (rangesOn s).any (fun (e, _, c, m) => decide (e < d ∧ b < c + m ∧ c < b + n)))).map (fun (d, r, _, _) => ⟨.hlkDomRange, d, r⟩)
/-- A bitmap word that shares a bit with a lower tenant's. -/
def overBits (s : State) : Option RegIx :=
  let pair (f : Nat → Word) : Option Nat :=
    if f 1 &&& f 2 ≠ 0 then some 2 else if (f 1 ||| f 2) &&& f 3 ≠ 0 then some 3 else none
  match (List.range 66).findSome? (fun j => (pair (fun d => s.regP 0 .hlkDomSpool d j)).map (fun d => (d, j))) with
  | some (d, j) => some ⟨.hlkDomSpool, d, j⟩
  | none => (pair (fun d => s.reg .hlkDomPins d)).map (fun d => ⟨.hlkDomPins, d, 0⟩)
/-- BASE and SIZE of a data area. -/
def areaOf (s : State) (d : Nat) : Nat × Nat := (fld (s.reg .memDomArea d) 28 16, fld (s.reg .memDomArea d) 12 0)
/-- A data area that leaves the first 496 MiB, or overlaps a lower domain's (R349). -/
def badArea (s : State) : Option RegIx :=
  ((List.range 4).find? (fun d =>
    let (b, n) := areaOf s d
    decide (7936 < b + n) || (List.range d).any (fun e =>
      let (c, m) := areaOf s e
      decide (n ≠ 0 ∧ m ≠ 0 ∧ b < c + m ∧ c < b + n)))).map (fun d => ⟨.memDomArea, d, 0⟩)
/-- An instance whose tiles lie in two domains: the range that holds some of them but not all (R158). -/
def splitInst (s : State) (l : List Inst) : Option RegIx :=
  l.findSome? (fun i =>
    let ts := (List.range (i.w * i.h)).map (fun k => i.base + k)
    if ts.all (fun t => tileDom s t == tileDom s i.base) then none
    else
      ((rangesOn s).find? (fun (_, _, b, n) => ts.any (fun t => decide (b ≤ t ∧ t < b + n)) &&
        !ts.all (fun t => decide (b ≤ t ∧ t < b + n)))).map (fun (d, r, _, _) => ⟨.hlkDomRange, d, r⟩))
/-- The first place that breaks a rule of R472 that does not depend on the past. -/
def domBroken (s : State) (l : List Inst) : Option RegIx :=
  [badRange s, overRange s, overBits s, badArea s, splitInst s l].findSome? id
/-- A weight that lies outside 1–16. -/
def weightOk (v : Word) : Bool := decide (1 ≤ fld v 4 0 ∧ fld v 4 0 ≤ 16)

/-- Store a descriptor register whole; the quota of a domain and the SIZE of its data area are one value (R351, R485). -/
def putDesc (r : Reg) (i j : Nat) (v : Word) (s : State) : State :=
  match r with
  | .hlkDomQuota =>
    (s.setReg .hlkDomQuota i v).setReg .memDomArea i (putFld (s.reg .memDomArea i) 12 0 (fld v 12 0))
  | .memDomArea => (s.setReg .memDomArea i v).setReg .hlkDomQuota i (w32 (fld v 12 0))
  | _ => s.setRegP 0 r i j v

end Sys2Proof.Machine
end

