-- ==== Sys2Proof/Machine/FrameRules.lean ====
section
/-! DEFINITION. FrameRules: the rules that every tile of an image obeys in its final state (R82, R87), judged on the frames in
configuration memory. -/
namespace Sys2Proof.Machine

/-- The 136 words of selects hold no reserved code (R60). -/
def selectsValid (s : State) (t : Nat) : Bool :=
  (List.range 544).all (fun k => let c := selOf s t k; decide (c < 0xC0 ∨ 0xFD ≤ c))
/-- CELL_CTL and word 3 of a cell hold no reserved code or bit, and its inputs suit its mode (R51, R52, R87). -/
def cellValid (s : State) (t c : Nat) : Bool :=
  let w := cellCtl s t c
  let mode := fld w 2 0
  let use := fld w 10 5
  decide (w.toNat < 4096 ∧ cfgWord s t (c / 16) (4 * (c % 16) + 3) = 0 ∧ mode ≤ 4 ∧ fld w 4 3 ≠ 3) &&
    (match mode with
     | 0 => true
     | 3 => decide (use = 0 ∧ fld w 4 3 = 0)
     | 4 => decide (use ≠ 0)
     | _ => decide (use = 3)) &&
    (List.range 6).all (fun i => bitOf w (5 + i) == (selOf s t (6 * c + i) != 0xFF))
/-- A block-map entry has no reserved bit and names an existing pin (R63). -/
def slotValid (e : Nat) : Bool := decide (e / 512 % 64 = 0) && (decide (e < 32768) || decide (e % 512 < 271))
/-- The input pins that are mapped, with repetition. -/
def mappedIn (s : State) (t : Nat) : List Nat := (List.range 128).filterMap (fun j => slotPin (sinkSlot s t j))
/-- The output pins that are mapped. -/
def mappedOut (s : State) (t : Nat) : List Nat := (List.range 96).filterMap (fun k => slotPin (srcSlot s t k))
/-- No pin twice. -/
def noRepeat : List Nat → Bool
  | [] => true
  | a :: t => !t.contains a && noRepeat t
/-- A pin of [lo, hi] is mapped. -/
def anyPin (l : List Nat) (lo hi : Nat) : Bool := l.any (fun p => decide (lo ≤ p ∧ p ≤ hi))
/-- The block map of a tile obeys R63, R71 and R87. -/
def blockMapValid (s : State) (t : Nat) : Bool :=
  let ins := mappedIn s t
  let outs := mappedOut s t
  let m := hbMode s t
  (List.range 128).all (fun j => let e := sinkSlot s t j
                                slotValid e && (decide (32768 ≤ e) || selOf s t (416 + j) == 0xFF)) &&
    (List.range 96).all (fun k => slotValid (srcSlot s t k)) &&
    decide (m.toNat < 32) && noRepeat ins &&
    (!bitOf m 2 || (!anyPin outs 160 195 && !anyPin ins 202 237 && !bitOf m 1)) &&
    (!anyPin ins 238 269 || ins.contains 270) && (!anyPin outs 232 270 || outs.contains 264)
/-- No sink selects the output of a sink-mode cell or an empty source slot (R87). -/
def sourcesValid (s : State) (t : Nat) : Bool :=
  (List.range 544).all (fun k =>
    let c := selOf s t k
    if c < 64 then cellMode s t c != 4
    else if 0x60 ≤ c ∧ c < 0xC0 then (slotPin (srcSlot s t (c - 0x60))).isSome
    else true)
/-- The edge wires of a tile of a shape of `w` × `h` tiles at corner (c, r): no source leads out of the shape, and no wire has
two (R82). -/
def edgesValid (s : State) (w h c r t : Nat) : Bool :=
  (List.range 32).all (fun e =>
    if selOf s t (384 + e) = 0xFF then true
    else
      match across t e with
      | some (t', e') => (rect w h c r).contains t' && selOf s t' (384 + e') == 0xFF
      | none => false)
/-- Whether a tile of an instance obeys every frame rule (R87). -/
def tileValid (s : State) (i : Inst) (t : Nat) : Bool :=
  selectsValid s t && (List.range 64).all (cellValid s t) && blockMapValid s t && sourcesValid s t &&
    edgesValid s i.w i.h i.col i.row t
/-- The lowest logical tile of a list of instances, in ascending order, that breaks a rule. -/
def brokenTile (s : State) (l : List Inst) : Option Nat :=
  l.findSome? (fun i => ((List.range (i.w * i.h)).find? (fun k =>
    !tileValid s i (tileAt (i.col + k % i.w) (i.row + k / i.w)))).map (fun k => i.base + k))

end Sys2Proof.Machine
end

