-- ==== Sys2Proof/Machine/Resets.lean ====
section
/-! DEFINITION. Resets: the initial state of tiles and what a fabric or a domain reset does to packets, tiles, pins, queues
and slots (R54, R88, R89, R146, R178, R330, R418, R475, R594). The rows of the domain reset stand in RegWrite.lean, those of
the others in Power.lean. -/
namespace Sys2Proof.Machine

/-! ## Initial state (R54, R88) -/

/-- The latches that INIT fills: 1 holds 0, 2 holds 1. -/
def initLatches (s : State) (t : Nat) : NMap Bool :=
  (List.range 64).foldl (fun m c =>
    match fld (cellCtl s t c) 4 3 with
    | 1 => m.put c false
    | 2 => m.put c true
    | _ => m) []
/-- Tile RAM from minors 8–39 of a physical tile. -/
def initRam (s : State) (t : Nat) : NMap Word :=
  let lo := 64 * (40 * t + 8)
  (s.fab.cfg.filter (fun e => decide (lo ≤ e.1 ∧ e.1 < lo + 2048))).map (fun e => (e.1 - lo, e.2))
/-- The initial state of a physical tile. -/
def initTile (s : State) (t : Nat) : TileSt := { TileSt.init with latch := initLatches s t, ram := initRam s t }
/-- The physical tiles that hold logical tiles of a choice. -/
def physTiles (s : State) (sel : Nat → Bool) : List Nat :=
  (s.dst.map.filter (fun e => bitOf e.2 31 && sel e.1)).map (fun e => fld e.2 11 0)
/-- The inputs that a tile's cells have acknowledged at the start: a cell whose INIT gives its latch a token stands as if it had just
evaluated (R54), so its used inputs that show no other token are null with the acknowledge high until its own successor takes the
token (R47, R90). Of a merge or an arbiter cell the spec does not say which input gave the token, and none is taken (notes/assumptions/81.md). -/
def initTaken (s : State) (t : Nat) : List Nat :=
  (((tileSt s t).latch.map (·.1)).filter (fun c => cellMode s t c == 0)).flatMap (fun c =>
    (usedSinks s t c).filter (fun k => decide (192 ≤ selOf s t k) || (selTok s t k).isNone))
/-- Tiles of a choice take their initial state (R89). -/
def startTiles (sel : Nat → Bool) (s : State) : State :=
  let l := physTiles s sel
  let s := forEach l (fun t s => s.setTile t (initTile s t)) s
  forEach l settle (forEach l (fun t s => raiseAcks s t (initTaken s t)) s)

/-! ## Packets of logical tiles (R146) -/

/-- The packets that a reset discards: those of the lanes of a choice of domains whose source or destination is a
logical tile of a choice. -/
structure Sweep where
  dom : Nat → Bool
  tile : Nat → Bool

/-- The choice of a fabric reset. -/
def sweepAll : Sweep := { dom := fun _ => true, tile := fun t => decide (t < 3968) }
/-- The choice of a reset of domain `d`. -/
def sweepDom (s : State) (d : Nat) : Sweep := { dom := (· == d), tile := fun t => decide (t < 3968) && (tileDom s t).val == d }
/-- A packet's source or destination is of the choice. -/
def Sweep.ends (w : Sweep) (src dest : Nat) : Bool := w.tile src || w.tile dest
/-- The exit port of a flit is a tile of the choice. -/
def Sweep.exits (w : Sweep) (s : State) (exit : Nat) : Bool :=
  exit % 5 == 4 &&
    (match logicalAt s (exit / 5) with
     | some l => w.tile l
     | none => false)
/-- Whether the sweep takes a flit. -/
def Sweep.flit (w : Sweep) (s : State) (f : Flit) : Bool := w.tile f.src.toNat || w.exits s f.exit
/-- Whether the sweep takes a packet. -/
def Sweep.packet (w : Sweep) (p : Packet) : Bool := w.ends p.src.toNat p.dest.toNat

/-- Discard in the input lanes of the routers. -/
def sweepLanes (w : Sweep) (s : State) : State :=
  forEach (s.ply.lanes.filter (fun e => w.dom (e.1 % 4))) (fun e s =>
    let x := e.2
    let gone (f : Flit) : Bool := w.flit s f
    let s' := missPackets (x.out.filter w.packet) (missFlits ((x.flits ++ x.rest).filter gone) s)
    s'.setPlane e.1 { flits := x.flits.filter (fun f => !gone f), rest := x.rest.filter (fun f => !gone f),
                      out := x.out.filter (fun p => !w.packet p) }) s
/-- Discard in the hold queues (R139): what waits for room in one has room then. -/
def sweepHold (w : Sweep) (s : State) : State :=
  forEach s.ply.hold (fun e s =>
    let gone (p : Packet) : Bool := w.dom p.dom.val && w.packet p
    if !e.2.pkts.any gone then s
    else
      let s := missPackets (e.2.pkts.filter gone) s
      { s with ply := { s.ply with hold := s.ply.hold.set HoldQ.init e.1 { pkts := e.2.pkts.filter (fun p => !gone p), wait := none } } }) s
/-- The packets that a tile's interface holds for RX. -/
def rxPackets (x : TileIf) : List Packet :=
  x.reqBuf ++ (match x.rx with
    | some r => if r.idx ≤ r.pkt.words.length then [r.pkt] else []
    | none => [])
/-- Discard what the interfaces of the tiles of a choice hold; events among it are missed (R146). -/
def sweepIfcs (w : Sweep) (s : State) : State :=
  forEach (physTiles s w.tile) (fun t s => missPackets (rxPackets (tileSt s t).ifc) (s.onIfc t (fun _ => TileIf.init))) s
/-- Discard what stands between the routers and the attachments: rings, packets half arrived, packets that wait. -/
def sweepPorts (w : Sweep) (s : State) : State :=
  let ring := s.ply.ring.map (fun e => (e.1, e.2.filter (fun r => !(w.dom r.dom.val && w.flit s r.flit))))
  let asm := s.ply.asm.map (fun e => (e.1, if w.dom (e.1 % 4) then e.2.filter (fun f => !w.flit s f) else e.2))
  let inbox := s.ply.inbox.map (fun e => (e.1, if w.dom (e.1 % 4) then e.2.filter (fun p => !w.tile p.src.toNat) else e.2))
  let lost := ((s.ply.asm.filter (fun e => w.dom (e.1 % 4))).flatMap (·.2)).filter (fun f => w.flit s f)
  let outs := s.ply.outs.map (fun e => (e.1, { e.2 with cur := e.2.cur.filter (fun c =>
    !(w.dom (c.1 % 4) && (w.tile (c.2 / 8 % 65536) || w.exits s (c.2 / 8 / 65536)))) }))
  let s := missFlits lost s
  let arrived (e : SplArr) : Bool :=
    match e.cmd.pkt with
    | some p => w.dom p.dom.val && w.tile p.src.toNat
    | none => false
  { s with ply := { s.ply with ring := ring.filter (fun e => !e.2.isEmpty), asm := asm.filter (fun e => !e.2.isEmpty),
                               inbox := inbox.filter (fun e => !e.2.isEmpty), outs := outs }
           spl := { s.spl with queue := s.spl.queue.filter (fun e => !arrived e) } }
/-- Memory operations already accepted are performed and their responses discarded. -/
def sweepOps (w : Sweep) (s : State) : State :=
  s.onMem (fun m => { m with ops := m.ops.map (fun e => (e.1,
    match e.2.src with
    | .ply p _ => { e.2 with drop := e.2.drop || (w.dom p.dom.val && w.tile p.src.toNat) }
    | _ => e.2)) })
/-- A mailbox's request stands in its destination tile's interface. -/
def inInterface (s : State) (d m : Nat) (r : Resv) : Bool :=
  let x := (tileSt s (physOf s r.dest.toNat)).ifc
  let is (p : Packet) : Bool := p.src == mboxAddr d m && p.slot == r.slot && p.tag == r.tag
  x.reqBuf.any is || x.rx.any (fun e => is e.pkt) || x.win.any (fun e => is e.pkt)
/-- A mailbox's request that a reset discards is answered with STALE (R146, R466, R475). `flies` says that the request or
its response may still be under way in a lane that the reset does not touch. -/
def staleReq (flies : Bool) (d m : Nat) (r : Resv) (s : State) : State :=
  let s := if flies && !inInterface s d m r then s.setMbox d m { mbox s d m with late := (mbox s d m).late ++ [r] } else s
  let x := mbox s d m
  let is (e : MbxEnt) : Bool := e.pkt.src == r.dest && e.pkt.slot == r.slot && e.pkt.tag == r.tag
  if (x.resp.filter is).length < (x.reqs.filter (fun q => q.dest == r.dest && q.slot == r.slot && q.tag == r.tag)).length then
    respToMbox d m { dest := BitVec.ofNat 16 (0x1080 + 16 * d + m), slot := r.slot, op := 9, tag := r.tag, src := r.dest,
                     status := stStale, dom := Fin.ofNat 4 d, vc := true, words := [] } s
  else s
/-- The PLY packets of a port that wait to be injected and are discarded. -/
def sweepWaiting (w : Sweep) (p : Fin 4) (s : State) : State :=
  let gone := (port s p).plyq.filter (fun e => w.packet e.1)
  forEach gone (fun e s => formRsp p e.2 stStale [] s)
    (s.setPort p { port s p with plyq := (port s p).plyq.filter (fun e => !w.packet e.1) })
/-- The hosts' requests towards discarded tiles (R475): the PLY packets that wait in a domain of the choice, and the
injected requests of every port that await a response. -/
def sweepHosts (w : Sweep) (s : State) : State :=
  forEach [0, 1, 2, 3] (fun (p : Fin 4) s =>
    let s := if w.dom p.val then sweepWaiting w p s else s
    let s := forEach (List.range 16) (fun m s =>
      let x := mbox s p m
      forEach (x.reqs.filter (fun r => w.tile r.dest.toNat)) (staleReq (!w.dom p.val) p m)
        (s.setMbox p m { x with late := x.late.filter (fun r => !(w.dom p.val && w.tile r.dest.toNat)),
                                store := x.store.filter (fun e => e.sent.isSome || !(w.dom p.val && w.tile e.pkt.src.toNat)) })) s
    serveWins p s) s
/-- Discard every packet of a choice of logical tiles (R146). -/
def sweepPackets (w : Sweep) (s : State) : State :=
  sweepIfcs w (sweepHosts w (sweepOps w (sweepPorts w (sweepHold w (sweepLanes w s)))))

/-! ## Queues and slots -/

/-- The entries of channel and sense queues whose destination tile is reset are discarded and counted as missed (R234,
R279). -/
def dropChannels (sel : Nat → Bool) (s : State) : State :=
  let subTile (sub : Word) : Bool := bitOf sub 31 && sel (fld sub 11 0)
  forEach s.chans (fun e s =>
    let c := e.1
    if subTile (if c < 2048 then s.reg .laneSub c else s.reg .timeSenseSub (c - 2048)) then chanDrop c s else s) s
/-- The samples that a quadrature counter holds towards a tile of a choice are discarded and counted as missed (R285). -/
def dropSamples (sel : Nat → Bool) (s : State) : State :=
  forEach s.pins.qd (fun e s =>
    let sub := s.reg .timeQdSub e.1
    if bitOf sub 31 && sel (fld sub 11 0) && !e.2.q.items.isEmpty then
      (s.setReg .timeQdErrcnt e.1 (satFld (s.reg .timeQdErrcnt e.1) 31 16 e.2.q.items.length)).setQd e.1
        { e.2 with q := { HQ.empty with ovr := e.2.q.ovr }, miss := true }
    else s) s
/-- The flags of tiles that writes of 1 clear (R99): a reset clears them in a frozen tile too. FAB_TILE_RAMERR, of which R100 says
nothing, is cleared with the state of a running tile and kept in a frozen one (DESIGN CHOICE; notes/assumptions/82.md). -/
def clearTileFlags (x : TileSt) : TileSt :=
  { x with ramPerr := false, railErr := false, mergeBoth := false, q0 := { x.q0 with ovr := false }, q1 := { x.q1 with ovr := false } }
/-- A reset of the tiles of a choice: those that run take their initial state, those that are frozen stay so and lose their
flags (R89, R99, R526). -/
def resetTiles (sel : Nat → Bool) (s : State) : State :=
  forEach (physTiles s (fun t => sel t && tileFrozen s t)) (fun t s => s.onTile t clearTileFlags)
    (startTiles (fun t => sel t && !tileFrozen s t) s)
/-- Every run of a spool towards a tile of a choice ends with STALE (R330). -/
def staleTowards (sel : Nat → Bool) (n : Nat) (s : State) : State :=
  forEach [0, 1] (fun i s =>
    if inRun (slotOf s n i) && sel (slotOf s n i).tile.toNat then endStop n i (endRun n i 6 stStale s) else s) s

/-! ## The two resets -/

/-- A migration meets a reset of its instance (R178): before commit it aborts; after commit its last steps are completed. -/
def settleMig (own : Nat → Bool) (s : State) : State :=
  match s.dst.mig with
  | some m => if own m.base then (if m.step < 6 then abortMig stStale false s else sourcesCleared s) else s
  | none => s
/-- The fabric reset of R594, on tiles that run: a frozen region stays frozen (R526). -/
def fabricReset (s : State) : State :=
  let s := settleMig (fun _ => true) s
  let s := sweepPackets sweepAll (forEach (spoolNums s) staleRuns s)
  let s := dropSamples (fun _ => true) (dropChannels (fun _ => true) (resetUnits (fun _ _ => true) false (resetPins (fun _ => true) false s)))
  resetTiles (fun _ => true) s
/-- The tiles of a domain. -/
def ofDom (s : State) (d t : Nat) : Bool := decide (t < 3968) && (tileDom s t).val == d
/-- What a reset of domain `d` does to the fabric side (R89, R146, R330, R418). -/
def domainTiles (d : Nat) (s : State) : State :=
  let s := settleMig (ofDom s d) s
  let s := forEach (spoolNums s) (fun n s =>
    if (spoolDom s n).val = d then dropExport n (staleRuns n s) else staleTowards (ofDom s d) n s) s
  let s := sweepPackets (sweepDom s d) s
  let s := resetPins (fun b => (bankDom s b).val == d) true s
  let s := resetUnits (unitReach s d) true s
  let s := dropSamples (ofDom s d) (dropChannels (ofDom s d) s)
  resetTiles (ofDom s d) s

end Sys2Proof.Machine
end

