-- ==== Sys2Proof/Machine/Loader.lean ====
section
/-! DEFINITION. Loader: taking an image's words, its header and its commands (R487–R526). Starting and ending loads, flash,
chain and release stand in Release.lean. A command acts when its row is commanded, once all its words have been taken. -/
namespace Sys2Proof.Machine

/-- Change the loader. -/
def State.onLdr (s : State) (f : LdrSt → LdrSt) : State := { s with ldr := f s.ldr }
/-- Change the load in progress. -/
def State.onLoad (s : State) (f : Load → Load) : State := s.onLdr (fun l => { l with load := l.load.map f })

/-! ## Failure (R514, R515, R522) -/

/-- The first word of every image (R491). -/
def syncWord : Word := 0x5A3C96E1
/-- LENGTH of the image. -/
def imgLen (l : Load) : Nat := (l.img.getD 2 0).toNat
/-- The header's SIGNED bit. -/
def imgSigned (l : Load) : Bool := bitOf (l.img.getD 3 0) 31
/-- The header's ENCRYPTED bit. -/
def imgEnc (l : Load) : Bool := bitOf (l.img.getD 3 0) 30
/-- The header's DESIGN. -/
def imgDesign (l : Load) : Word := l.img.getD 7 0

/-- Clear a stretch of reserved reel memory, with fresh check bits; a write-back that waits for one of its words is cancelled
(R347). -/
def clearReel (a n : Nat) (s : State) : State :=
  { s with mem := s.mem.filter (fun e => !decide (a ≤ e.1 ∧ e.1 < a + n)),
           memory := { s.memory with
             err := s.memory.err.filter (fun e => !decide (a / 8 ≤ e.1 ∧ e.1 < (a + n) / 8)),
             fixq := (s.memory.fixq.map (fun e => (e.1, e.2.filter (fun w => !decide (a / 8 ≤ w ∧ w < (a + n) / 8))))).filter
               (fun e => !e.2.isEmpty) } }
/-- Clear the loader's staging area (R513). -/
def clearStaging (s : State) : State := clearReel 0x1FF00000 0x100000 s
/-- The registers that the directory of a full image sets at once: descriptors, data areas, spool sizes (R500, R503). -/
def dirReg (r : Reg) : Bool :=
  isDesc r || (match r with
    | .memDomArea => true
    | .splCfg => true
    | _ => false)
/-- The registers of the directory at their reset values. -/
def dropDir (s : State) : State :=
  { s with regs := s.regs.filter (fun e => !(match regAt e.1 with
      | some (r, _, _) => dirReg r
      | none => false)) }
/-- A full load has failed: configuration memory, tile map, Distaff's tables, essential-bit map and staging are cleared, the
part stays as R509 says, CFG_ERR_N is asserted (R515). A failing tile, now free, is retired (R184). -/
def fullFailed (s : State) : State :=
  let s := { s with fab := { s.fab with cfg := [], cfgErr := [], held := [], heldSince := [] },
                    dst := { s.dst with insts := [], map := [], mig := none },
                    spl := { s.spl with spools := [] }, sec := { s.sec with ledHeld := [] } }
  let s := clearStaging (clearReel 0x1F800000 (8 * 167936) (dropDir s))
  let s := s.onScrub (fun x => { x with verifying := false, state := if x.state = 2 then 2 else 0, pos := 0 })
  (serveFailing s).onLdr (fun l => { l with state := 5, cfgErrN := true, image := [] })
/-- A partial load has failed: a region that was accepted is torn (R522). -/
def partFailed (code : Nat) (s : State) : State :=
  match s.ldr.region with
  | some r =>
    if r.torn then s
    else
      let s := clearStaging (s.onLdr (fun l => { l with region := some { r with torn := true } }))
      notify 0x13 s.ldr.loadPort [w32 s.ldr.loadPort, w32 code] s
  | none => s
/-- Whether a failure code leaves the rest of the input to be forwarded (R525). -/
def forwards (code : Nat) : Bool := !(code == 1 || code == 2 || code == 3 || code == 0x14)
/-- The chain port carries what follows the image; words of the image that are still to come pass by (R525). -/
def openFwd (l : Load) (s : State) : State :=
  if s.ldr.fwd.isSome || s.ldr.mode == 2 || s.ldr.source == 3 then s
  else s.onLdr (fun x => { x with fwd := some { skip := imgLen l - l.img.length, pos := 0, len := 0, images := 0, words := 0 } })
/-- Forwarding ends with CFG_CHAIN_DONE. -/
def endFwd (f : FwdSt) (s : State) : State :=
  notifyOwner 0x17 0 [w32 f.images, w32 f.words] (s.onLdr (fun x => { x with fwd := none }))
/-- A failure that forwards nothing ends what has begun (R525). -/
def dropFwd (s : State) : State :=
  match s.ldr.fwd with
  | some f => if f.words = 0 then s.onLdr (fun x => { x with fwd := none }) else endFwd f s
  | none => s
/-- What a failure leaves to forwarding: an abort or a lost stream before the last word ends the reading (R518, R525). -/
def failFwd (code : Nat) (l : Load) (s : State) : State :=
  if l.partial_ || s.ldr.source == 3 then s
  else if !forwards code then dropFwd s
  else if l.img.length < 16 then s
  else if (code == 0x15 || code == 0x16) && decide (l.img.length < imgLen l) then s
  else openFwd l s
/-- The load fails (R514): code, word offset, item, and the OP of the command in which the failure was found. -/
def ldFail (code off addr op : Nat) (s : State) : State :=
  match s.ldr.load with
  | none => s
  | some l =>
    let s := failFwd code l s
    let s := s.onLdr (fun x => { x with load := none })
    let s := s.setReg .cfgErr 0 (w32 (place 31 1 1 + place 30 1 (b2n l.partial_) + place 8 8 op + place 0 8 code))
    let s := (s.setReg .cfgErrOffset 0 (w32 off)).setReg .cfgErrAddr 0 (w32 addr)
    let items := [w32 code, w32 op, w32 off, w32 addr]
    if l.partial_ then partFailed code (notify 0x11 s.ldr.loadPort items s)
    else notifyOwner 0x11 0 items (fullFailed s)

/-! ## The header (R491, R492) -/

/-- The header breaks the table of R491, or KIND does not suit the start. -/
def headerBad (l : Load) : Bool :=
  let w (i : Nat) : Word := l.img.getD i 0
  decide (fld (w 1) 31 16 ≠ 0x0100 ∨ fld (w 1) 15 8 ≠ (if l.partial_ then 2 else 1) ∨ fld (w 1) 7 0 ≠ 0 ∨
    fld (w 3) 29 0 ≠ 0 ∨ fld (w 4) 31 7 ≠ 0 ∨ 64 < fld (w 4) 6 0 ∨ fld (w 5) 20 16 ≠ 0) ||
    (List.range 8).any (fun k => w (8 + k) != 0) || (l.partial_ && (w 5 != 0 || w 6 != 0))
/-- Check a header that has been taken; the first command of the image follows. -/
def checkHeader (l : Load) (s : State) : State :=
  let n := imgLen l
  let rb := fld (l.img.getD 4 0) 6 0
  if headerBad l then ldFail 2 0 0 0 s
  else if n < 32 ∨ 11272192 < n then ldFail 3 0 n 0 s
  else if rb < s.sec.fuses.rollback then ldFail 0x13 0 rb 0 s
  else if !imgSigned l && secState s != 0 then ldFail 0x10 0 0 0 s
  else s.onLoad (fun l => { l with pos := 16, section_ := if imgEnc l then 0 else if l.partial_ then 1 else 2 })

/-! ## Commands (R493, R494) -/

/-- A command of the image: its word offset, its word and its payload. -/
structure LCmd where
  off : Nat
  word : Word
  payload : List Word
  deriving DecidableEq, Repr
/-- OP of a command word. -/
def opOf (w : Word) : Nat := fld w 31 24
/-- COUNT of a command word. -/
def countOf (w : Word) : Nat := fld w 23 0
/-- Whether the plaintext of an epoch is being acted on. -/
def inEpoch (l : Load) : Bool := !l.plain.isEmpty
/-- The words from the command that is due on. -/
def ahead (l : Load) : List Word := if inEpoch l then l.plain else l.img.drop l.pos
/-- The word offset of the command that is due. -/
def aheadOff (l : Load) : Nat := if inEpoch l then l.plainOff else l.pos
/-- Whether the commands of the plain kind may stand here: in an encrypted image only inside epochs. -/
def plainHere (l : Load) : Bool := !imgEnc l || inEpoch l
/-- Whether a command stands in its place (R494). FRAMES_P in a partial image fails at its record (R521). -/
def opPlace (l : Load) (op : Nat) : Bool :=
  match op with
  | 0x01 => plainHere l && (l.section_ == 2 || l.section_ == 3)
  | 0x02 | 0x03 | 0x04 => plainHere l && l.section_ == 2
  | 0x05 | 0x06 | 0x07 | 0x0C => plainHere l && l.section_ == 3
  | 0x08 => plainHere l && l.section_ == 1
  | 0x09 => l.section_ == 0
  | 0x0A => imgEnc l && !inEpoch l && decide (1 ≤ l.section_ ∧ l.section_ ≤ 3)
  | 0x0B => inEpoch l && decide (1 ≤ l.section_ ∧ l.section_ ≤ 3)
  | 0x0D => !inEpoch l && imgSigned l && l.section_ == 4
  | _ => false
/-- Whether COUNT suits the command as far as its word tells (R493). -/
def opCount (op n : Nat) : Bool :=
  match op with
  | 0x01 => decide (2 ≤ n ∧ n % 2 = 0)
  | 0x02 => decide (n % 2 = 1)
  | 0x03 => decide (2 ≤ n)
  | 0x04 => decide (n = 0)
  | 0x05 | 0x06 | 0x07 => decide (67 ≤ n ∧ (n - 1) % 66 = 0)
  | 0x08 => decide (2 ≤ n)
  | 0x09 => decide (n = 15)
  | 0x0A => decide (10 ≤ n)
  | 0x0B => decide (n = 8)
  | 0x0C => decide (n = 0)
  | 0x0D => decide (n = 192)
  | _ => false
/-- The image is complete: the command that ends it has acted and no word is left (R494). -/
def imgDone (l : Load) : Bool :=
  !inEpoch l && l.pos == imgLen l && l.section_ == (if imgSigned l then 5 else 4)
/-- Whether a command may act now: the header stands, placement does not run, the image is not complete. -/
def mayAct (l : Load) : Bool :=
  decide (16 ≤ l.pos ∧ l.section_ ≤ 5) && (l.section_ != 3 || l.placed)
/-- What is wrong with the command that is due, as soon as its word is there: code, item, OP. -/
def headError (l : Load) : Option (Nat × Nat × Nat) :=
  match ahead l with
  | [] => if l.pos = imgLen l ∧ !imgDone l then some (5, 0, 0) else none
  | w :: _ =>
    let op := opOf w
    if op = 0 ∨ 0x0D < op then some (4, w.toNat, op)
    else if !opPlace l op then some (5, w.toNat, op)
    else if !opCount op (countOf w) then some (4, w.toNat, op)
    else if inEpoch l then (if l.plain.length < 1 + countOf w then some (4, w.toNat, op) else none)
    else if imgLen l < l.pos + 1 + countOf w then some (3, imgLen l, op)
    else none
/-- A full image is complete: the hash stands, the verifying pass of step 8 of R507 begins; a scrubber that has halted starts
none (R544). -/
def finishFull (l : Load) (s : State) : State :=
  let h := if imgSigned l then l.hash else sha256 (bytesOfWords l.img)
  let s := (s.onLoad (fun l => { l with section_ := 6, hash := h })).onLdr (fun x => { x with state := 3 })
  (putPortRegs 0 .cfgHash 0 (wordsOfBytes h) s).onScrub (fun x => { x with
    verifying := true, state := if x.state = 2 then 2 else 1, pos := 0, clean := [], dirty := [], stuck := [], stuckNow := [] })
/-- Look at the command that is due: an error ends the load, a complete image goes on to its release. -/
def scan (s : State) : State :=
  match s.ldr.load with
  | none => s
  | some l =>
    if !mayAct l then s
    else if imgDone l then
      if l.partial_ then
        let h := if imgSigned l then l.hash else sha256 (bytesOfWords l.img)
        s.onLoad (fun l => { l with section_ := 6, hash := h })
      else finishFull l s
    else
      match headError l with
      | some (code, addr, op) => ldFail code (aheadOff l) addr op s
      | none => s
/-- The loader takes one word of the image (R517); what follows the last one is forwarded (R525). -/
def takeWord (w : Word) (s : State) : State :=
  match s.ldr.load with
  | none => s
  | some l =>
    let l' := { l with img := l.img ++ [w] }
    let s := (s.onLoad (fun _ => l')).setReg .cfgWords 0 (w32 l'.img.length)
    let n := l'.img.length
    let s :=
      if n = 1 ∧ w ≠ syncWord then ldFail 1 0 w.toNat 0 s
      else if n = 16 then checkHeader l' s
      else if 16 < n then scan s
      else s
    if n = imgLen l' && !l'.partial_ && s.ldr.load.isSome then openFwd l' s else s
/-- The command that is due, once all its words are there, with the load past it. -/
def takeCmd (l : Load) : Option (LCmd × Load) :=
  match ahead l with
  | [] => none
  | w :: t =>
    if t.length < countOf w then none
    else
      let n := 1 + countOf w
      let c : LCmd := { off := aheadOff l, word := w, payload := t.take (countOf w) }
      let l := { l with lastOp := opOf w }
      some (c, if inEpoch l then { l with plain := l.plain.drop n, plainOff := l.plainOff + n } else { l with pos := l.pos + n })
/-- After a command of an epoch: every epoch but the last ends with NEXTKEY, and the last with END (R512). -/
def epochEnd (was : Bool) (c : LCmd) (s : State) : State :=
  match s.ldr.load with
  | some l =>
    if was && ((!inEpoch l && opOf c.word != 0x0B && opOf c.word != 0x0C) || (inEpoch l && opOf c.word == 0x0B)) then
      ldFail 4 c.off c.word.toNat (opOf c.word) s
    else s
  | none => s
/-- Act on the command that is due where it is of the given OP and complete; the loader waits until reel memory is
cleared (R343). -/
def onCmd (op : Nat) (act : LCmd → State → State) (s : State) : State :=
  match s.ldr.load with
  | none => s
  | some l =>
    if !mayAct l || (headError l).isSome || !s.memory.initDone then s
    else
      match takeCmd l with
      | none => s
      | some (c, l') =>
        if opOf c.word = op then scan (epochEnd (inEpoch l) c (act c (s.onLoad (fun _ => l')))) else s
/-- A failure in a command, at one of its items. -/
def cmdFail (c : LCmd) (code off addr : Nat) (s : State) : State := ldFail code off addr (opOf c.word) s

/-! ## WREG (R500, R521) -/

/-- Registers whose cfg fields the part derives from the image itself (R500). -/
def derived : Reg → Bool
  | .dstInstStat => true
  | .dstInstPlace => true
  | .splStatus => true
  | .splStat => true
  | .secStatus => true
  | .cfgDesign => true
  | .cfgHash => true
  | .scrubCfg => true
  | _ => false
/-- Descriptor registers of domain 0 that hold no value of their own (R485, R500). -/
def domZero (r : Reg) (i : Nat) : Bool :=
  i == 0 && (match r with
    | .hlkDomRange => true
    | .hlkDomPins => true
    | .hlkDomSpool => true
    | _ => false)
/-- The cfg fields of a register; a bank's upper half has sixteen pins. -/
def cfgBits (r : Reg) (j : Nat) : Word :=
  match r with
  | .pinOut => if j = 1 then 0xFFFF else 0xFFFFFFFF
  | .pinDir => if j = 1 then 0xFFFF else 0xFFFFFFFF
  | _ => w32 (cfgMask r)
/-- The values that a direct write would refuse with RANGE, sizes of spools apart (R293, R500). -/
def imageValueOk (hyp : State) (r : Reg) (i : Nat) (v : Word) : Bool :=
  match r with
  | .pinCfg => pinCfgOk hyp i v
  | .pinEvt => pinEvtOk hyp i v
  | .pinBankCfg => bankCfgOk v i v
  | .pwmPeriod => pwmPeriodOk v
  | .spiCfg => spiCfgOk v
  | .i2cCfg => i2cCfgOk v
  | .timeQdCfg => qdCfgOk v
  | .timeQdSub => subOk v
  | .timeSenseSub => subOk v
  | .laneSub => subOk v
  | .pwrVlim => vlimOk v
  | _ => true
/-- A subscription's or an event's DEST is one its domain may address (R248, R291, R424). -/
def imageDestOk (hyp : State) (r : Reg) (i : Nat) (v : Word) : Bool :=
  match r with
  | .laneSub => subDestOk hyp i v
  | .timeSenseSub => subDestOk hyp (2048 + i) v
  | .pinEvt => pinDestOk hyp i v
  | _ => true
/-- Store a pair's value as it stands. -/
def putPair (p : WPair) (s : State) : State :=
  match regAt p.addr with
  | some (r, i, j) => putDesc r i j p.val s
  | none => s
/-- The state with the pairs of the image so far in force. -/
def withPairs (l : List WPair) (s : State) : State := forEach l putPair s
/-- A register may be named in an image with this value at all (R500). -/
def pairShape (p : WPair) (r : Reg) (i j : Nat) : Bool :=
  let m := cfgBits r j
  m != 0 && !derived r && !domZero r i && ((p.val ^^^ r.reset) &&& ~~~m) == 0
/-- Judge a pair of a full image on the state with the earlier pairs: the failure code, if any. -/
def fullPair (hyp : State) (late : Bool) (p : WPair) : Option Nat :=
  match regAt p.addr with
  | none => some 0x0C
  | some (r, i, j) =>
    if !pairShape p r i j then some 0x0C
    else if late && dirReg r then some 5
    else if !imageValueOk hyp r i p.val then some 0x0C
    else if late && !imageDestOk hyp r i p.val then some 0x0C
    else none
/-- Judge a pair of a partial image as the loading port's direct write (R521); that a pin is parked by the region's own freeze does not
count, since the pair takes effect when it ends (notes/assumptions/44.md). -/
def partPair (hyp : State) (port : Nat) (late : Bool) (p : WPair) : Option Nat :=
  match regAt p.addr with
  | none => some 0x0C
  | some (r, i, j) =>
    if !pairShape p r i j then some 0x0C
    else if late && dirReg r then some 5
    else
      let st := settingStatus hyp port r i j p.val
      if !hasSetting r || (st != stOk && st != stTorn) then some 0x0C else none
/-- The state after a pair of a partial image. The region's own pins, which are parked, take their new values too (R417, R523). -/
def applyPair (port : Nat) (p : WPair) (s : State) : State :=
  match regAt p.addr with
  | some (r, i, j) =>
    if r == .pinOut || r == .pinDir then s.setRegP 0 r i j (halfBits (j == 1) p.val) else putSetting port r i j p.val s
  | none => s
/-- The pairs of a WREG payload. -/
def pairsOf : Nat → List Word → List WPair
  | off, a :: v :: t => { off := off, addr := a.toNat, val := v } :: pairsOf (off + 2) t
  | _, _ => []
/-- The first pair that fails, judged one after another. -/
def firstBadPair (judge : State → WPair → Option Nat) (put : WPair → State → State) : State → List WPair → Option (WPair × Nat)
  | _, [] => none
  | hyp, p :: t =>
    match judge hyp p with
    | some code => some (p, code)
    | none => firstBadPair judge put (put p hyp) t
/-- WREG (R500). -/
def wregCmd (c : LCmd) (s : State) : State :=
  match s.ldr.load with
  | none => s
  | some l =>
    let ps := pairsOf (c.off + 1) c.payload
    let late := l.section_ == 3
    let port := s.ldr.loadPort.val
    let bad :=
      if l.partial_ then firstBadPair (fun h p => partPair h port late p) (applyPair port) (forEach l.wregs (applyPair port) s) ps
      else firstBadPair (fun h p => fullPair h late p) putPair (withPairs l.wregs s) ps
    match bad with
    | some (p, code) => cmdFail c code p.off (if code = 5 then c.word.toNat else p.addr) s
    | none => s.onLoad (fun l => { l with wregs := l.wregs ++ ps })
/-- WREG (R500). -/
def execWreg (s : State) : Host.Outcome State Fault Refusal := .next (onCmd 0x01 wregCmd s)

/-! ## SKEIN and INST (R501, R502) -/

/-- The slot definitions of a SKEIN payload. -/
def slotsOf : List Word → List (Word × Word)
  | a :: m :: t => (a, m) :: slotsOf t
  | _ => []
/-- A slot obeys R160 and R161. -/
def slotDefOk (wh : Nat) (e : Word × Word) : Bool :=
  decide (fld e.1 31 28 < wh ∧ fld e.1 27 22 ≤ 39 ∧ ¬(fld e.1 27 22 = 7 ∧ 56 ≤ fld e.1 21 16) ∧ fld e.1 9 0 = 0)
/-- The skein of an index. -/
def skeinOf (l : Load) (k : Nat) : Option SkeinDef := l.skeins.find? (fun d => d.index == k)
/-- SKEIN (R501). -/
def skeinCmd (c : LCmd) (s : State) : State :=
  match s.ldr.load with
  | none => s
  | some l =>
    let d := c.payload.headD 0
    let n := fld d 16 12
    let wh := (fld d 21 20 + 1) * (fld d 19 18 + 1)
    let slots := slotsOf (c.payload.drop 1)
    if countOf c.word ≠ 1 + 2 * n then cmdFail c 4 c.off c.word.toNat s
    else if (skeinOf l (fld d 31 24)).isSome || decide (16 < n ∨ fld d 23 22 ≠ 0 ∨ fld d 11 0 ≠ 0) || !slots.all (slotDefOk wh) then
      cmdFail c 8 c.off (fld d 31 24) s
    else
      s.onLoad (fun l => { l with skeins := l.skeins ++
        [{ index := fld d 31 24, w := fld d 21 20 + 1, h := fld d 19 18 + 1, nomove := bitOf d 17, slots := slots }] })
/-- SKEIN (R501). -/
def execSkein (s : State) : Host.Outcome State Fault Refusal := .next (onCmd 0x02 skeinCmd s)

/-- The hint of an entry is one of R162. -/
def hintOk (kind hint : Nat) : Bool :=
  match kind with
  | 0 => hint == 0
  | 1 => decide (hint ≤ 63)
  | 2 => decide ((0x1000 ≤ hint ∧ hint ≤ 0x1059) ∨ (0x1080 ≤ hint ∧ hint ≤ 0x10BF))
  | _ => false
/-- An instance as an entry declares it. -/
def entryInst (d : SkeinDef) (e h : Word) (ps : List Word) : Inst :=
  { base := fld e 23 12, skein := d.index, w := d.w, h := d.h, col := 0, row := 0, pinned := bitOf e 11, unmovable := false,
    nomove := bitOf e 10 || d.nomove, pressure := false, failing := false, damaged := false,
    hintKind := BitVec.ofNat 2 (fld e 9 8), hint := BitVec.ofNat 16 (fld h 15 0), params := ps, lastReason := 0, migrations := 0,
    p := 0, theta := 0, eta := 0, prevEta := 0, seen := 0, hopSum := 0, hopCnt := 0, peers := [], kept := [], keptCnt := 0 }
/-- Whether an entry breaks R159, R161, R162 or R502. -/
def entryBad (l : Load) (e h : Word) (i : Inst) : Bool :=
  decide (fld e 7 0 ≠ 0 ∨ fld h 31 16 ≠ 0 ∨ 3968 < i.base + i.w * i.h) || !hintOk i.hintKind.toNat i.hint.toNat ||
    l.insts.any (fun k => decide (i.base < k.base + k.w * k.h ∧ k.base < i.base + i.w * i.h)) ||
    decide (2048 ≤ (l.insts.filter (fun k => k.skein == i.skein)).length)
/-- Whether the tiles of an instance lie in the frozen region (R520). -/
def inRegion (s : State) (i : Inst) : Bool := (List.range (i.w * i.h)).all (fun k => tileFrozen s (i.base + k))
/-- The entries of an INST payload, one after another. -/
def instEntries (c : LCmd) : Nat → List Word → State → State
  | 0, _, s => s
  | fuel + 1, ws, s =>
    match s.ldr.load, ws with
    | some l, e :: t =>
      let off := c.off + 1 + (c.payload.length - ws.length)
      match skeinOf l (fld e 31 24) with
      | none => cmdFail c 5 off c.word.toNat s
      | some d =>
        let n := d.slots.length
        let i := entryInst d e (t.headD 0) ((t.drop 1).take n)
        if t.length < 1 + n || entryBad l e (t.headD 0) i then cmdFail c 8 off i.base s
        else if l.partial_ && !inRegion s i then cmdFail c 0x0D off i.base s
        else
          instEntries c fuel (t.drop (1 + n))
            (s.onLoad (fun l => { l with insts := l.insts ++ [i], instOffs := l.instOffs.put i.base off }))
    | _, _ => s
/-- INST (R502). -/
def instCmd (c : LCmd) (s : State) : State := instEntries c c.payload.length c.payload s
/-- INST (R502). -/
def execInst (s : State) : Host.Outcome State Fault Refusal := .next (onCmd 0x03 instCmd s)

/-! ## DIR_END and placement (R503, R166–R169, R189) -/

/-- The spool of lowest number that an enable of the pairs needs and that has SIZE 0 (R293). -/
def unsized (hyp : State) : Option Nat :=
  let size (n : Nat) : Nat := fld (hyp.reg .splCfg n) 12 0
  let need (n : Nat) : Bool :=
    if n < 2048 then bitOf (hyp.reg .laneCfg (n / 32)) 31 && bitOf (hyp.reg .laneChEn (n / 32)) (n % 32)
    else fld (hyp.reg .timeSenseCfg (n - 2048)) 7 6 != 0
  (List.range 2112).find? (fun n => need n && size n == 0)
/-- The spool with which sizes and data areas exceed 496 MiB (R293). -/
def overfull (hyp : State) : Option Nat :=
  let areas := (List.range 4).foldl (fun a d => a + (areaOf hyp d).2) 0
  ((List.range 2112).foldl (fun (a, r) n =>
    let a := a + fld (hyp.reg .splCfg n) 12 0
    (a, if r.isSome then r else if 7936 < a then some n else none)) (areas, (none : Option Nat))).2
/-- The offset of the last pair that names an address. -/
def pairOff (l : Load) (dflt a : Nat) : Nat := ((l.wregs.reverse.find? (fun p => p.addr == a)).map (·.off)).getD dflt
/-- A descriptor that the image names and whose weight at DIR_END lies outside 1–16 (R503). -/
def badWeight (hyp : State) (l : Load) : Option WPair :=
  l.wregs.find? (fun p => match regAt p.addr with
    | some (.hlkDomCfg, i, _) => !weightOk (hyp.reg .hlkDomCfg i)
    | _ => false)
/-- A pair whose DEST its domain may not address. -/
def badDest (hyp : State) (l : Load) : Option WPair :=
  l.wregs.find? (fun p => match regAt p.addr with
    | some (r, i, _) => !imageDestOk hyp r i p.val
    | none => false)
/-- The checks of DIR_END on a full image: code, offset, item. -/
def fullDirError (c : LCmd) (l : Load) (hyp : State) : Option (Nat × Nat × Nat) :=
  match domBroken hyp l.insts, badWeight hyp l, overfull hyp, unsized hyp, badDest hyp l with
  | some x, _, _, _, _ => some (0x0B, pairOff l c.off x.addr, x.addr)
  | none, some p, _, _, _ => some (0x0B, pairOff l p.off p.addr, p.addr)
  | none, none, some n, _, _ => some (0x0A, pairOff l c.off (Reg.addr .splCfg n 0), n)
  | none, none, none, some n, _ => some (0x0A, c.off, n)
  | none, none, none, none, some p => some (0x0C, p.off, p.addr)
  | none, none, none, none, none => none
/-- An instance is taken out: its windows stay open until the release, its tiles are cleared and freed (R80, R520, R522). A
wire that is held there stays held until a pass has verified its tiles (R84, R85). -/
def removeInst (i : Inst) (s : State) : State :=
  let s := unmapInst i (forEach (instTiles i) clearTile s)
  s.onDst (fun d => { d with insts := d.insts.filter (fun k => k.base != i.base) })
/-- The running instances inside the region. -/
def regionInsts (s : State) : List Inst := s.dst.insts.filter (inRegion s)
/-- DIR_END (R503): the checks, then placement begins; the old instances of a region are removed (R520), and failing tiles
that this frees are retired (R184). -/
def dirEndCmd (c : LCmd) (s : State) : State :=
  match s.ldr.load with
  | none => s
  | some l =>
    let begin (s : State) : State := s.onLoad (fun l => { l with section_ := 3, placed := false, dirEnd := c.off })
    if l.partial_ then
      match splitInst s l.insts with
      | some x => cmdFail c 0x0B c.off x.addr s
      | none => begin (serveFailing (forEach (regionInsts s) removeInst s))
    else
      let hyp := withPairs l.wregs s
      match fullDirError c l hyp with
      | some (code, off, addr) => cmdFail c code off addr s
      | none =>
        let dirs := l.wregs.filter (fun p => match regAt p.addr with
          | some (r, _, _) => dirReg r
          | none => false)
        begin ((withPairs dirs s).onLdr (fun x => { x with state := 2 }))
/-- DIR_END (R503). -/
def execDirEnd (s : State) : Host.Outcome State Fault Refusal := .next (onCmd 0x04 dirEndCmd s)

/-- Lower base first. -/
def baseBefore (a b : Inst) : Bool := decide (a.base ≤ b.base)
/-- Instances in an order. -/
def sortInsts (before : Inst → Inst → Bool) (l : List Inst) : List Inst := l.foldl (fun a i => insertInst before i a) []
/-- Place the instances of the image; a tile test is abandoned where its tile gives room (R548). A tile of the runtime list gives
none. -/
def tryPlace (l : List Inst) (s : State) : Except Nat (List Inst) × State :=
  let test := (testTile s).filter (fun t => !retired s t)
  match placeAll s test ((takenTiles s).filter (fun t => !test.contains t)) l with
  | .ok r => (.ok r, if r.any (fun i => (instTiles i).any test.contains) then abandonTest s else s)
  | .error b => (.error b, s)
/-- Give every spool of the image its segments (R189), or name the one that does not fit. -/
def placeSpools : Nat → Nat → State → Except Nat State
  | 0, _, s => .ok s
  | k + 1, n, s =>
    let size := fld (s.reg .splCfg n) 12 0
    if size = 0 then placeSpools k (n + 1) s
    else
      match placeSegs s n 0 [] size with
      | none => .error n
      | some segs => placeSpools k (n + 1) (s.setSpool n { SpoolSt.init with size := size, segs := segs })
/-- The placed instances are mapped, with their edge wires enabled (R80, R163). -/
def enterInst (i : Inst) (s : State) : State :=
  writeEdges i (mapInst i (s.onDst (fun d => { d with insts := insertInst baseBefore i d.insts })))
/-- PLACEMENT_COMPLETE (R166–R169, R189, R503). -/
def placementDone (s : State) : State :=
  match s.ldr.load with
  | none => s
  | some l =>
    if l.section_ = 3 ∧ !l.placed then
      match tryPlace (sortInsts placeBefore l.insts) s with
      | (.error b, s) => ldFail 9 (l.instOffs.get l.dirEnd b) b 4 s
      | (.ok insts, s) =>
        let s := forEach insts enterInst s
        match (if l.partial_ then .ok s else placeSpools 2112 0 s) with
        | .error n => ldFail 0x0A l.dirEnd n 4 s
        | .ok s =>
          let s := if l.partial_ then s else s.onLdr (fun x => { x with state := 1 })
          scan (notifyOwner 0x57 0 [w32 insts.length] (s.onLoad (fun l => { l with placed := true })))
    else s

/-! ## Frames (R495–R499, R504) -/

/-- Record `k` of a frames command: its offset, its essential bits and its words (R498). -/
def recordOf (c : LCmd) (k : Nat) : Nat × DWord × List Word :=
  let r := c.payload.drop (1 + 66 * k)
  (c.off + 2 + 66 * k, join32 (r.getD 0 0) (r.getD 1 0), (r.drop 2).take 64)
/-- The number of records. -/
def recordCount (c : LCmd) : Nat := (c.payload.length - 1) / 66
/-- Act on the records in turn until one fails: `act` answers none, or the code and item of its failure with the state. -/
def eachRecord (c : LCmd) (act : Nat → DWord → List Word → State → Option (Nat × Nat) × State) : Nat → Nat → State → State
  | 0, _, s => s
  | n + 1, k, s =>
    let (off, ess, ws) := recordOf c k
    match act k ess ws s with
    | (some (code, addr), s) => cmdFail c code off addr s
    | (none, s) => eachRecord c act n (k + 1) s
/-- A frame of a tile is written; EDGE_EN stays as placement wrote it (R80). -/
def putTileFrame (t m : Nat) (ess : DWord) (ws : List Word) (s : State) : State :=
  let ws := if m = 7 then ws.set 57 (cfgWord s t 7 57) else ws
  writeEss (40 * t + m) ess (writeFrame (40 * t + m) ws (renewTile t s))
/-- A logical frame address (R495). -/
def lfa (l m : Nat) : Nat := 0x80000000 + 64 * l + m
/-- What a record of the system column may hold (R499, R538, R543): no essential bit, and no word but word 0 of minor 0 of row 0. -/
def sysRecordOk (n : Nat) (ess : DWord) (ws : List Word) : Bool :=
  ess == 0 && (if n = 0 then ws.drop 1 else ws).all (· == 0)
/-- FRAMES_P (R495, R496, R499, R521). -/
def framesPCmd (c : LCmd) (s : State) : State :=
  let a := c.payload.headD 0
  if decide (fld a 31 30 ≠ 1 ∨ fld a 29 19 ≠ 0 ∨ !bitOf a 18 ∨ fld a 17 12 ≠ 0) then
    (match s.ldr.load with
     | some l => if l.partial_ then cmdFail c 0x0D (c.off + 2) a.toNat s else cmdFail c 6 c.off a.toNat s
     | none => s)
  else
    eachRecord c (fun k ess ws s =>
      let n := 64 * fld a 11 6 + fld a 5 0 + k
      let pfa := 0x40040000 + n % 4096
      let part := match s.ldr.load with
        | some l => l.partial_
        | none => false
      if part then (some (0x0D, pfa), s)
      else if 4096 ≤ n then (some (6, pfa), s)
      else if !sysRecordOk n ess ws then (some (7, pfa), s)
      else (none, writeEss (sysFrame + n) ess (writeFrame (sysFrame + n) ws s))) (recordCount c) 0 s
/-- FRAMES_P (R495). -/
def execFramesP (s : State) : Host.Outcome State Fault Refusal := .next (onCmd 0x05 framesPCmd s)

/-- Whether a partial load runs and the logical tile lies outside its region. -/
def outside (s : State) (t : Nat) : Bool :=
  (match s.ldr.load with
   | some l => l.partial_
   | none => false) && !tileFrozen s t
/-- FRAMES_L (R495, R496, R521). -/
def framesLCmd (c : LCmd) (s : State) : State :=
  let a := c.payload.headD 0
  if decide (fld a 31 30 ≠ 2 ∨ fld a 29 18 ≠ 0) then cmdFail c 6 c.off a.toNat s
  else
    eachRecord c (fun k ess ws s =>
      let n := 40 * fld a 17 6 + fld a 5 0 + k
      let l := n / 40
      let m := n % 40
      if 40 ≤ fld a 5 0 then (some (6, a.toNat), s)
      else if 3968 ≤ l then (some (6, lfa l m), s)
      else if outside s l then (some (0x0D, lfa l m), s)
      else if !mapped s l then (some (6, lfa l m), s)
      else (none, putTileFrame (physOf s l) m ess ws s)) (recordCount c) 0 s
/-- FRAMES_L (R495). -/
def execFramesL (s : State) : Host.Outcome State Fault Refusal := .next (onCmd 0x06 framesLCmd s)

/-- The words of a skein's record for one instance, patched by the slots of that tile and minor (R161). -/
def patch (d : SkeinDef) (i : Inst) (k m : Nat) (ws : List Word) : List Word :=
  (List.range d.slots.length).foldl (fun ws j =>
    let (e, mask) := d.slots.getD j (0, 0)
    if fld e 31 28 = k ∧ fld e 27 22 = m then
      let v := if bitOf e 10 then w32 i.base else i.params.getD j 0
      let w := fld e 21 16
      ws.set w ((ws.getD w 0 &&& ~~~mask) ||| ((v <<< fld e 15 11) &&& mask))
    else ws) ws
/-- SKEIN_FRAMES (R504). -/
def skeinFramesCmd (c : LCmd) (s : State) : State :=
  match s.ldr.load with
  | none => s
  | some l =>
    let a := c.payload.headD 0
    let bad (s : State) : State := cmdFail c 8 c.off (fld a 31 24) s
    match skeinOf l (fld a 31 24) with
    | none => bad s
    | some d =>
      let k := fld a 23 20
      if d.w * d.h ≤ k ∨ fld a 19 6 ≠ 0 then bad s
      else
        let insts := l.insts.filter (fun i => i.skein == d.index)
        eachRecord c (fun r ess ws s =>
          let m := fld a 5 0 + r
          if 40 ≤ m then (some (6, a.toNat), s)
          else
            let s := if m < 8 then s.onLoad (fun l => { l with got := insertNat (8 * (16 * d.index + k) + m) l.got }) else s
            (none, forEach insts (fun i s => putTileFrame (physOf s (i.base + k)) m ess (patch d i k m ws) s) s))
          (recordCount c) 0 s
/-- SKEIN_FRAMES (R504). -/
def execSkeinFrames (s : State) : Host.Outcome State Fault Refusal := .next (onCmd 0x07 skeinFramesCmd s)

/-! ## END and SIGNATURE (R505, R511) -/

/-- The lowest skein with instances whose shape tiles have not all received minors 0 to 7. -/
def shortSkein (l : Load) : Option Nat :=
  (List.range 256).find? (fun x =>
    match skeinOf l x with
    | some d => l.insts.any (fun i => i.skein == x) &&
        !((List.range (8 * (d.w * d.h))).all (fun k => l.got.contains (128 * x + k)))
    | none => false)
/-- END (R293, R505). -/
def endCmd (c : LCmd) (s : State) : State :=
  match s.ldr.load with
  | none => s
  | some l =>
    let sp := if l.partial_ then none else unsized (withPairs l.wregs s)
    let placed := s.dst.insts.filter (fun i => l.insts.any (fun k => k.base == i.base))
    match sp, shortSkein l, brokenTile s placed with
    | some n, _, _ => cmdFail c 0x0A c.off n s
    | none, some x, _ => cmdFail c 8 c.off x s
    | none, none, some t => cmdFail c 7 c.off (lfa t 0) s
    | none, none, none => s.onLoad (fun l => { l with section_ := 4 })
/-- END (R505). -/
def execEndCheck (s : State) : Host.Outcome State Fault Refusal := .next (onCmd 0x0C endCmd s)

/-- SIGNATURE (R511, R556): the modulus matches a slot where the state asks for one, and the signature verifies. -/
def signatureCmd (c : LCmd) (s : State) : State :=
  match s.ldr.load with
  | none => s
  | some l =>
    let modulus := bytesOfWords (c.payload.take 96)
    let sig := bytesOfWords (c.payload.drop 96)
    let mh := sha256 modulus
    let h := sha256 (bytesOfWords (l.img.take c.off))
    let slot := [0, 1, 2].find? (fun i => slotGood s.sec.fuses i && s.sec.fuses.slots.find i == some mh)
    if secState s ≠ 0 ∧ slot.isNone then cmdFail c 0x11 c.off 0 s
    else if !pssVerify modulus sig h then cmdFail c 0x12 c.off 0 s
    else
      s.onLoad (fun l => { l with section_ := 5, hash := h, modHash := mh, slotUsed := if secState s = 0 then none else slot })
/-- SIGNATURE (R511). -/
def execSignature (s : State) : Host.Outcome State Fault Refusal := .next (onCmd 0x0D signatureCmd s)

/-! ## Encryption (R512, R513) -/

/-- The bytes of the key-encryption key. -/
def kek : List Byte := (List.range 32).map Config.fuseKek
/-- KEYWRAP (R512). -/
def keywrapCmd (c : LCmd) (s : State) : State :=
  match s.ldr.load with
  | none => s
  | some l =>
    let part (lo n : Nat) : List Byte := bytesOfWords ((c.payload.drop lo).take n)
    match gcmOpen kek (part 0 3) (bytesOfWords (l.img.take 16)) (part 3 8) (part 11 4) with
    | none => cmdFail c 0x0F c.off 0 s
    | some key => s.onLoad (fun l => { l with key := key, section_ := if l.partial_ then 1 else 2 })
/-- KEYWRAP (R512). -/
def execKeywrap (s : State) : Host.Outcome State Fault Refusal := .next (onCmd 0x09 keywrapCmd s)
/-- EPOCH (R512, R513): its plaintext stands in one of the two staging halves, even and odd epochs in turn. -/
def epochCmd (c : LCmd) (s : State) : State :=
  match s.ldr.load with
  | none => s
  | some l =>
    let e := (c.payload.headD 0).toNat
    let n := (c.payload.getD 4 0).toNat
    let part (lo n : Nat) : List Byte := bytesOfWords ((c.payload.drop lo).take n)
    if 65536 ≤ e ∨ n = 0 ∨ 131072 < n ∨ countOf c.word ≠ 9 + n then cmdFail c 4 c.off c.word.toNat s
    else if e ≠ l.nextEpoch then cmdFail c 0x0F c.off e s
    else
      match gcmOpen l.key (part 1 3) (bytesOfWords (c.word :: c.payload.take 5)) (part 5 n) (part (5 + n) 4) with
      | none => cmdFail c 0x0E c.off e s
      | some bs =>
        let ws := wordsOfBytes bs
        (s.putWords (0x1FF00000 + e % 2 * 0x80000) ws).onLoad
          (fun l => { l with plain := ws, plainOff := c.off + 6, nextEpoch := e + 1 })
/-- EPOCH (R512). -/
def execEpoch (s : State) : Host.Outcome State Fault Refusal := .next (onCmd 0x0A epochCmd s)
/-- NEXTKEY (R512). -/
def nextkeyCmd (c : LCmd) (s : State) : State := s.onLoad (fun l => { l with key := bytesOfWords c.payload })
/-- NEXTKEY (R512). -/
def execNextkey (s : State) : Host.Outcome State Fault Refusal := .next (onCmd 0x0B nextkeyCmd s)

/-! ## REGION (R519, R520) -/

/-- The range words of a region as (base, count). -/
def regionRanges (ws : List Word) : List (Nat × Nat) := ws.map (fun w => (fld w 23 12, fld w 11 0))
/-- Whether a list of ranges holds a tile. -/
def rangesHold (l : List (Nat × Nat)) (t : Nat) : Bool := l.any (fun e => decide (e.1 ≤ t ∧ t < e.1 + e.2))
/-- A running instance that lies partly inside. -/
def partly (rs : List (Nat × Nat)) (i : Inst) : Bool :=
  let ts := (List.range (i.w * i.h)).map (fun k => i.base + k)
  ts.any (rangesHold rs) && !ts.all (rangesHold rs)
/-- Whether ranges lie wholly in others. -/
def rangesIn (a b : List (Nat × Nat)) : Bool := a.all (fun e => (List.range e.2).all (fun k => rangesHold b (e.1 + k)))
/-- The word that breaks the region descriptor, if one does (R519). -/
def regionError (s : State) (c : LCmd) : Option Word :=
  let d := c.payload.headD 0
  let nr := fld d 31 28
  let rw := (c.payload.drop 1).take nr
  let pw := c.payload.drop (1 + nr)
  let rs := regionRanges rw
  let p := s.ldr.loadPort.val
  let badR (w : Word) : Bool := decide (fld w 31 24 ≠ 0 ∨ fld w 11 0 = 0 ∨ 3968 < fld w 23 12 + fld w 11 0)
  let badP (w : Word) : Bool := decide (fld w 31 14 ≠ 0 ∨ fld w 11 9 ≠ 0 ∨ 384 ≤ fld w 8 0)
  if nr = 0 ∨ 8 < nr ∨ fld d 27 9 ≠ 0 ∨ 384 < fld d 8 0 then some d
  else
    match rw.find? badR, pw.find? badP, s.dst.insts.find? (partly rs), s.ldr.region with
    | some w, _, _, _ => some w
    | none, some w, _, _ => some w
    | none, none, some i, _ =>
      rw.find? (fun w => (List.range (i.w * i.h)).any (fun k => rangesHold (regionRanges [w]) (i.base + k)))
    | none, none, none, old =>
      let torn := match old with
        | some r => !rangesIn r.ranges rs
        | none => false
      if torn then some (rw.headD 0)
      else if p = 0 then none
      else
        match rw.find? (fun w => !(List.range (fld w 11 0)).all (fun k => tileDom s (fld w 23 12 + k) == p)) with
        | some w => some w
        | none => pw.find? (fun w => !bankBit s p (bankOfPin (fld w 8 0)))
/-- The tiles of a region are frozen: latches, results and edge wires null, what their ply interface holds discarded
(R89, R144). -/
def freezeTile (x : TileSt) : TileSt :=
  { TileSt.init with ramPerr := x.ramPerr, railErr := x.railErr, mergeBoth := x.mergeBoth, ramErr := x.ramErr,
                     q0 := { HQ.empty with ovr := x.q0.ovr }, q1 := { HQ.empty with ovr := x.q1.ovr } }
/-- REGION is accepted (R520): the listed pins are parked, and each keeps what it drives for the SLEEP state that holds it (R417,
R419). -/
def acceptRegion (rs : List (Nat × Nat)) (pins : List (Nat × BitVec 2)) (s : State) : State :=
  let own (i : Inst) : Bool := rangesHold rs i.base
  let s := match s.dst.mig with
    | some m => if m.step < 6 && (match instAt s m.base with
        | some i => own i
        | none => false) then abortMig stBusy false s else s
    | none => s
  let old := match s.ldr.region with
    | some r => r.pins.filter (fun e => !pins.any (fun q => q.1 == e.1))
    | none => []
  let s := s.onLdr (fun x => { x with region := some { ranges := rs, pins := pins ++ old, torn := false, port := x.loadPort } })
  let s := forEach (physTiles s (rangesHold rs)) (fun t s => s.onTile t freezeTile) s
  forEach pins (fun e s =>
    let d := drive s e.1
    s.nextFree.setPin e.1 { pinSt s e.1 with park := some e.2, armed := false, out := d.1, oe := d.2 }) s
/-- REGION (R519, R520): a migration of the region past its commit is awaited first (R178). -/
def regionCmd (c : LCmd) (s : State) : State :=
  let d := c.payload.headD 0
  let nr := fld d 31 28
  let rs := regionRanges ((c.payload.drop 1).take nr)
  let pins := (c.payload.drop (1 + nr)).map (fun w => (fld w 8 0, BitVec.ofNat 2 (fld w 13 12)))
  if countOf c.word ≠ 1 + nr + fld d 8 0 then cmdFail c 4 c.off c.word.toNat s
  else
    match regionError s c with
    | some w => cmdFail c 0x17 c.off w.toNat s
    | none => (acceptRegion rs pins s).onLoad (fun l => { l with section_ := 2 })
/-- Whether a migration past its commit holds the load back (R178). -/
def regionWaits (s : State) : Bool :=
  match s.dst.mig, s.ldr.load with
  | some m, some l =>
    decide (6 ≤ m.step) &&
      (match takeCmd l with
       | some (c, _) =>
         opOf c.word == 8 && rangesHold (regionRanges ((c.payload.drop 1).take (fld (c.payload.headD 0) 31 28))) m.base
       | none => false)
  | _, _ => false
/-- REGION (R519). -/
def execRegion (s : State) : Host.Outcome State Fault Refusal := .next (if regionWaits s then s else onCmd 0x08 regionCmd s)

end Sys2Proof.Machine
end

