-- ==== Sys2Proof/Machine/Release.lean ====
section
/-! DEFINITION. Release: where an image's words come from and where they go on to (R487, R506, R516–R518, R524, R525), and how a
load ends: the release of a full image (R507) and of a region (R522, R523). -/
namespace Sys2Proof.Machine

/-! ## Starting a load -/

/-- The start of a load clears the error registers and the count of words (R530, R531). -/
def clearErr (s : State) : State :=
  (((s.setReg .cfgErr 0 0).setReg .cfgErrOffset 0 0).setReg .cfgErrAddr 0 0).setReg .cfgWords 0 0
/-- A full load begins: CFG_ERR_N is deasserted (R489). -/
def beginFull (port : Option (Fin 4)) (source : BitVec 2) (s : State) : State :=
  (clearErr s).onLdr (fun x => { x with load := some { Load.init with port := port }, state := 1, source := source,
                                        cfgErrN := false, flash := 0, header1 := [] })
/-- START_FULL (R516, R533). -/
def startFull (p : Fin 4) (s : State) : State :=
  checked [allow (p == 0), supported (s.ldr.state == 5 || s.ldr.state == 6)] (beginFull (some 0) 3) s
/-- START_FULL (R516). -/
def execStartFull (port : Fin 4) (s : State) : Host.Outcome State Fault Refusal := .next (startFull port s)
/-- START_PARTIAL (R516, R533). -/
def startPartial (p : Fin 4) (s : State) : State :=
  checked [busyIf (loadRuns s || s.ldr.state != 4)] (fun s =>
    (clearErr s).onLdr (fun x => { x with load := some { Load.init with partial_ := true, port := some p }, loadPort := p })) s
/-- START_PARTIAL (R516). -/
def execStartPartial (port : Fin 4) (s : State) : Host.Outcome State Fault Refusal := .next (startPartial port s)
/-- Whether words of the image are still to come. -/
def moreWords (l : Load) : Bool := decide (l.img.length < 16 ∨ l.img.length < imgLen l)
/-- Whether a word of the loading port waits: placement runs (R517). -/
def streamWaits (s : State) (p : Fin 4) : Bool :=
  s.ldr.load.any (fun l => l.port == some p && moreWords l && l.section_ == 3 && !l.placed)
/-- The word stands in the port's request queue until the loader takes it. -/
def holdWord (p : Nat) (v : Word) (s : State) : State :=
  if (port s p).reqq.items.length < 64 then s.onPort p (fun x => { x with reqq := x.reqq.push 64 (.word v) }) else s
/-- CFG_STREAM_WRITE (R517): the write completes once the loader has taken the word. -/
def streamWrite (p : Fin 4) (v : Word) (s : State) : State :=
  match s.ldr.load with
  | none => s.stat stStale
  | some l =>
    if l.port ≠ some p then s.stat stBusy
    else if !moreWords l then s.stat stStale
    else if streamWaits s p then holdWord p v s
    else (takeWord v s).stat stOk
/-- CFG_STREAM_WRITE (R517). -/
def execCfgStreamWrite (port : Fin 4) (val : Word) (s : State) : Host.Outcome State Fault Refusal := .next (streamWrite port val s)
/-- The load ends for want of words, or because it is told to: the item is the count of words taken (R514). -/
def endLoad (code : Nat) (s : State) : State :=
  match s.ldr.load with
  | some l => ldFail code l.img.length l.img.length 0 s
  | none => s
/-- ABORT (R518, R533). -/
def abortLoad (p : Fin 4) (s : State) : State :=
  match s.ldr.load with
  | some l => checked [allow (p == 0 || l.port == some p)] (endLoad 0x16) s
  | none => s.stat (if p = 0 then stStale else stDenied)
/-- ABORT (R518). -/
def execAbort (port : Fin 4) (s : State) : Host.Outcome State Fault Refusal := .next (abortLoad port s)
/-- STREAM_LOST (R518): a second with a load running and no word taken. -/
def streamLost (s : State) : State := endLoad 0x15 s
/-- STREAM_LOST (R518). -/
def execStreamLost (s : State) : Host.Outcome State Fault Refusal := .next (streamLost s)
/-- The loading port's packet layer is reset (R526): its load ends. -/
def dropStream (p : Nat) (s : State) : State :=
  match s.ldr.load with
  | some l => if l.port.map (·.val) = some p then endLoad 0x15 s else s
  | none => s

/-! ## Forwarding (R525) -/

/-- One word behind the part's own image. -/
def fwdWord (w : Word) (s : State) : State :=
  match s.ldr.fwd with
  | none => s
  | some f =>
    if f.skip ≠ 0 then s.onLdr (fun x => { x with fwd := some { f with skip := f.skip - 1 } })
    else if f.pos = 0 ∧ w ≠ syncWord then endFwd f s
    else
      let len := if f.pos = 2 then w.toNat else f.len
      let pos := f.pos + 1
      let done := decide (3 ≤ pos ∧ len ≤ pos)
      let f := { f with pos := if done then 0 else pos, len := if done then 0 else len, words := f.words + 1,
                        images := f.images + b2n done }
      s.onLdr (fun x => { x with fwd := some f, chainOut := x.chainOut ++ [w] })
/-- Whether CFG_STATUS.FORWARDING reads 1: the chain port has words of an image to send. -/
def forwarding (s : State) : Bool :=
  match s.ldr.fwd with
  | some f => decide (f.skip = 0 ∧ (f.pos ≠ 0 ∨ f.images ≠ 0))
  | none => false
/-- A word from the flash or from upstream: to the own load while it takes words, else to forwarding. -/
def feed (w : Word) (s : State) : State :=
  match s.ldr.load with
  | some l => if !l.partial_ && l.port.isNone && moreWords l then takeWord w s else fwdWord w s
  | none => fwdWord w s
/-- Words one after another. -/
def feedAll (ws : List Word) (s : State) : State := forEach ws feed s

/-! ## The flash (R506) -/

/-- The first read of the header, in single mode. -/
def flashFirst (ws : List Word) (s : State) : State :=
  let w0 := ws.getD 0 0
  if w0 = 0 ∨ w0 = 0xFFFFFFFF then ldFail 0x14 0 w0.toNat 0 s
  else if w0 ≠ syncWord then ldFail 1 0 w0.toNat 0 s
  else s.onLdr (fun x => { x with header1 := ws.take 16, flash := if bitOf (ws.getD 5 0) 31 then 2 else 1 })
/-- The header read again in octal: where it differs, or no strobe came, quad follows. -/
def flashOctal (ws : List Word) (dqs : Bool) (s : State) : State :=
  if ws.take 16 == s.ldr.header1 && dqs then feedAll (ws.take 16) (s.onLdr (fun x => { x with flash := 3 }))
  else s.onLdr (fun x => { x with flash := 2 })
/-- The header read again in quad: SOURCE says so, and CFG_FLASH_QUAD is raised, whether or not it is the same. -/
def flashQuad (ws : List Word) (s : State) : State :=
  let same := ws.take 16 == s.ldr.header1
  let s := notifyOwner 0x15 0 [] (s.onLdr (fun x => { x with flash := 4, source := 1 }))
  if same then feedAll (ws.take 16) s
  else ldFail 0x14 0 (ws.getD 0 0).toNat 0 s
/-- A read of the rest: an empty one is the end of the flash. -/
def flashData (ws : List Word) (s : State) : State :=
  if ws.isEmpty then
    let s := match s.ldr.load with
      | some l => if l.port.isNone && !l.partial_ && moreWords l then ldFail 3 l.img.length (imgLen l) 0 s else s
      | none => s
    match s.ldr.fwd with
    | some f => endFwd f s
    | none => s
  else feedAll ws s
/-- FLASH_READ_DONE (R506). -/
def flashRead (ws : List Word) (dqs : Bool) (s : State) : State :=
  let own := match s.ldr.load with
    | some l => !l.partial_ && l.port.isNone
    | none => false
  if s.ldr.mode = 1 ∨ s.ldr.mode = 2 ∨ !(own || s.ldr.fwd.isSome) then s
  else if !own then flashData ws s
  else
    match s.ldr.flash with
    | 0 => flashFirst ws s
    | 1 => flashOctal ws dqs s
    | 2 => flashQuad ws s
    | _ => flashData ws s
/-- FLASH_READ_DONE (R506). -/
def execFlashReadDone (words : List Word) (dqs : Bool) (s : State) : Host.Outcome State Fault Refusal := .next (flashRead words dqs s)

/-! ## The chain (R524–R526) -/

/-- A chain target that waits for an image: at first, and after a failure once nothing is to be forwarded. -/
def chainWaits (s : State) : Bool := s.ldr.mode == 1 && (s.ldr.state == 7 || (s.ldr.state == 5 && s.ldr.fwd.isNone))
/-- A SYNC arrives while the target waits: a full load starts (R526). -/
def chainSync (s : State) : State := if chainWaits s then takeWord syncWord (beginFull none 2 s) else s
/-- CHAIN_SYNC (R526). -/
def execChainSync (s : State) : Host.Outcome State Fault Refusal := .next (chainSync s)
/-- CHAIN_INPUT_WORD (R524, R525). -/
def chainWord (w : Word) (s : State) : State :=
  if s.ldr.mode ≠ 1 then s
  else if chainWaits s then (if w = syncWord then chainSync s else s)
  else feed w s
/-- CHAIN_INPUT_WORD (R524). -/
def execChainInputWord (val : Word) (s : State) : Host.Outcome State Fault Refusal := .next (chainWord val s)
/-- CHAIN_INPUT_TIMEOUT (R525, R526): 1 ms without a word. -/
def chainTimeout (s : State) : State :=
  if s.ldr.mode ≠ 1 then s
  else
    let s := match s.ldr.load with
      | some l => if !l.partial_ && l.port.isNone && moreWords l then endLoad 0x15 s else s
      | none => s
    match s.ldr.fwd with
    | some f => endFwd f s
    | none => s
/-- CHAIN_INPUT_TIMEOUT (R525). -/
def execChainInputTimeout (s : State) : Host.Outcome State Fault Refusal := .next (chainTimeout s)

/-! ## The verifying pass (R507 step 8, R523) -/

/-- The physical frame address of a frame (R495, R497). -/
def pfaOf (f : Nat) : Nat :=
  if f < sysFrame then 0x40000000 + 64 * (f / 40) + f % 40 else 0x40040000 + (f - sysFrame)
/-- The number of a frame in the order of a pass (R536). -/
def passIndex (f : Nat) : Nat := if f < sysFrame then f + 128 else if f < sysFrame + 128 then f - sysFrame else f
/-- The words of a frame that its last read did not correct are no longer stuck (R541). -/
def unstick (f : Nat) (s : State) : State :=
  s.onScrub (fun x => { x with stuck := x.stuck.filter (fun e => e.1 / 64 != f || x.stuckNow.contains e.1) })
/-- Read one frame of a verifying pass as any pass reads it (R536): a bit in error is corrected and classified (R538); false where it
cannot be corrected, a loss that counts for R541. -/
def verifyFrame (f : Nat) (s : State) : Bool × State :=
  match frameFlips s f with
  | [] => (true, setClean f (unstick f s))
  | [b] => (true, correctFrame f b s)
  | _ =>
    let s := (lastErr (if sysFrame ≤ f ∧ f < sysFrame + 128 then 3 else 2) f 0 s).bump .scrubUncorrCount 0 1
    (false, if f < sysFrame then repeatedLoss (f / 40) s else s)
/-- Read frames until one cannot be corrected. -/
def verifyFrames : List Nat → State → Option Nat × State
  | [], s => (none, s)
  | f :: t, s =>
    match verifyFrame f s with
    | (true, s) => verifyFrames t s
    | (false, s) => (some f, s)
/-- The frames in error that the verifying pass still has before it. -/
def unverified (s : State) : List Nat :=
  let l := s.fab.cfgErr.map (·.1)
  let sys := l.filter (fun f => decide (sysFrame ≤ f ∧ f < sysFrame + 128))
  let rest := l.filter (fun f => !decide (sysFrame ≤ f ∧ f < sysFrame + 128))
  (sys ++ rest).filter (fun f => decide (s.scrub.pos ≤ passIndex f))
/-- A verifying pass finds an uncorrectable frame: the load fails with SCRUB. -/
def scrubFail (f : Nat) (s : State) : State :=
  match s.ldr.load with
  | some l => ldFail 0x19 l.img.length (pfaOf f) 0 s
  | none => s

/-! ## I/O release (R507 steps 8 and 9) -/

/-- The verifying pass ends: every frame has the time of its read in it as clean time, SCRUB_CFG mirrors its frame (R537, R543). The
frames that no row has read alone are read now. -/
def passVerified (s : State) : State :=
  let s := s.onScrub (fun x => { x with verifying := false, pos := 0, cleanAll := commitFloor s.now, dirty := [],
                                        stuck := x.stuck.filter (fun e => x.stuckNow.contains e.1), stuckNow := [] })
  (s.bump .scrubPassCount 0 1).setReg .scrubCfg 0 ((frameWords s sysFrame).headD 0 &&& 0xFF000000)
/-- Every spool of the image opens at offset 0 (R329). -/
def openSpools (s : State) : State := forEach s.spl.spools (fun e s => openSpool e.1 e.2.size e.2.segs 0 s) s
/-- The loaded image becomes the one in force (R529, R531, R553, R572). -/
def inForce (l : Load) (s : State) : State :=
  let s := (s.onLdr (fun x => { x with state := 4, signed := imgSigned l, encrypted := imgEnc l, modHash := l.modHash,
                                       rollback := fld (l.img.getD 4 0) 6 0, cfgDone := true, load := none,
                                       image := l.wregs.foldl (fun m p => m.put p.addr p.val) [] }))
  (s.onSec (fun x => { x with slotUsed := l.slotUsed })).setReg .cfgDesign 0 (imgDesign l)
/-- The GENESIS record (R564). -/
def genesis (s : State) : State :=
  let w7 := place 0 2 (secState s) + place 2 2 (s.sec.slotUsed.getD 0) + place 4 1 (b2n s.sec.slotUsed.isSome)
  ledgerRecord 1 0 0 0 0 [s.reg .cfgDesign 0, w32 w7, w32 s.sec.fuses.rollback]
    (bytesOfWords (hashWords s .cfgHash)) s
/-- Pins, units, fabric, ports and lanes are released (R88, R238, R416, R449). -/
def releaseIo (s : State) : State :=
  let s := { s with fab := { s.fab with released := true, frozen := false } }
  let s := forEach (List.range 384) (releasePin (false, false)) s
  let s := forEach ((List.range 16).filter (fun c => bitOf (s.reg .pwmCfg c) 31)) pwmEnable s
  let s := queueLanes (startTiles (fun _ => true) s)
  forEach [1, 2, 3] portDetect s
/-- IO_RELEASE (R507): what is left of the verifying pass is read; then steps 8 and 9. A scrubber that has halted reads no frame
(R544). -/
def ioRelease (s : State) : State :=
  match s.ldr.load with
  | some l =>
    if !l.partial_ && l.section_ == 6 && s.memory.initDone && s.scrub.state != 2 then
      match verifyFrames (unverified s) s with
      | (some f, s) => scrubFail f s
      | (none, s) =>
        let s := clearStaging (clearReel 0x1F000000 0x800000 (passVerified s))
        let s := flushHeld (genesis (openSpools (inForce l (withPairs l.wregs s))))
        let s := serveFailing (releaseIo s)
        let s := notifyOwner 0x10 0 [imgDesign l, w32 s.ldr.source.toNat] s
        notifyPorts 0x00 0 [w32 (fld (s.reg .sysResetCause 0) 3 0)] [0, 1, 2, 3] s
    else s
  | none => s
/-- IO_RELEASE (R507). -/
def execIoRelease (s : State) : Host.Outcome State Fault Refusal := .next (ioRelease s)

/-! ## Release and clearing of a region (R522, R523) -/

/-- The suspect windows of the region's instances close (R540), unless the scrubber has halted (R544). -/
def closeRegion (rs : List (Nat × Nat)) (s : State) : State :=
  if s.scrub.state = 2 then s
  else forEach ((s.scrub.opens.map (·.base)).foldl (fun a b => insertNat b a) []) (fun b s =>
    if rangesHold rs b then closeWindows b (tileDom s b) s else s) s
/-- REGION_RELEASE (R523), for which the scrubber must run (R544). -/
def regionRelease (s : State) : State :=
  match s.ldr.load, s.ldr.region with
  | some l, some r =>
    if l.partial_ && l.section_ == 6 && s.scrub.state != 2 then
      let own := rangesHold r.ranges
      match verifyFrames ((physTiles s own).flatMap (fun t => (List.range 40).map (fun m => 40 * t + m))) s with
      | (some f, s) => serveFailing (scrubFail f s)
      | (none, s) =>
        let s := closeRegion r.ranges (clearStaging s)
        let s := s.onLdr (fun x => { x with region := none, load := none, phashPort := r.port,
                                            image := l.wregs.foldl (fun m p => m.put p.addr p.val) x.image })
        let s := startTiles own (forEach l.wregs (applyPair r.port) s)
        let s := forEach r.pins (fun e s => releasePin (drive s e.1) e.1 s) s
        let s := putPortRegs 0 .cfgPhash 0 (wordsOfBytes l.hash) (s.setReg .cfgPdesign 0 (imgDesign l))
        let s := s.bump .cfgPartials 0 1
        let s := ledgerRecord 6 r.port 0 0 0 [imgDesign l, w32 r.port] l.hash s
        serveFailing (notify 0x12 r.port [w32 r.port, imgDesign l] s)
    else s
  | _, _ => s
/-- REGION_RELEASE (R523). -/
def execRegionRelease (s : State) : Host.Outcome State Fault Refusal := .next (regionRelease s)

/-- A parked pin is switched to F7 with SLEEP set to its park value (R522). -/
def sleepParked (e : Nat × BitVec 2) (s : State) : State :=
  let v := (pinCfg s e.1 &&& 0x001FCFFF) ||| w32 (0xE0000000 + place 12 2 e.2.toNat)
  switchFrom (drive s e.1) e.1 v (s.setPin e.1 { pinSt s e.1 with park := none })
/-- The region's frames are zeroed, its tiles unmapped and freed, its pins put to sleep (R522). -/
def clearTorn (r : RegionSt) (s : State) : State :=
  let s := closeRegion r.ranges (forEach (regionInsts s) removeInst s)
  let s := forEach r.pins sleepParked (serveFailing (s.onLdr (fun x => { x with region := none })))
  notify 0x14 r.port [w32 r.port] s
/-- CLEAR_REGION (R522, R533). -/
def clearRegion (p : Fin 4) (s : State) : State :=
  match s.ldr.region with
  | some r => checked [allow (p == 0 || p == r.port), within r.torn, busyIf (loadRuns s)] (clearTorn r) s
  | none => s.stat (if p = 0 then stRange else stDenied)
/-- CLEAR_REGION (R522). -/
def execClearRegion (port : Fin 4) (s : State) : Host.Outcome State Fault Refusal := .next (clearRegion port s)

end Sys2Proof.Machine
end

