-- ==== Sys2Proof/Machine/Scrub.lean ====
section
/-! DEFINITION. Scrub: the scrubber's passes (R536–R543), the vote of its triplicated fields (R542, R544) and the tile
tests (R546–R548). -/
namespace Sys2Proof.Machine

/-! ## Passes -/

/-- The frame read at a place of the pass (R536). -/
def passFrame (k : Nat) : Nat := if k < 128 then sysFrame + k else if k < 128 + sysFrame then k - 128 else k
/-- The frames of a pass. -/
def passFrames : Nat := 167936
/-- Whether a frame lies in a frozen or torn region (R526): it is skipped, and keeps its clean time. -/
def frameFrozen (s : State) (f : Nat) : Bool :=
  decide (f < sysFrame) &&
    (match logicalAt s (f / 40) with
     | some l => tileFrozen s l
     | none => false)
/-- One frame is read: clean, corrected or uncorrectable (R535, R538, R540). -/
def scrubFrame (f : Nat) (s : State) : State :=
  match frameFlips s f with
  | [] => setClean f s
  | [b] => correctFrame f b s
  | _ => uncorrFrame f s
/-- A pass ends (R84, R541): it is counted, the wires it verified are released, the words that it read and did not correct are no longer
stuck, a free tile that it wrote with 0 counts as written anew (notes/assumptions/90.md), and the next pass begins. -/
def passEnd (s : State) : State :=
  let s := releaseClean (s.bump .scrubPassCount 0 1)
  s.onScrub (fun x =>
    { x with pos := 0, dirty := [], stuckNow := [],
             stuck := x.stuck.filter (fun e => x.stuckNow.contains e.1 || frameFrozen s (e.1 / 64)),
             renewed := ((x.uncorr.map (·.1)).filter (fun t => !x.opens.any (fun o => o.frame / 40 == t))).foldl
               (fun l t => insertNat t l) x.renewed })
/-- A read in the verifying pass of a full load (R507 step 8), which ends with its last frame. -/
def verifyStep (s : State) : State :=
  if passFrames ≤ s.scrub.pos then s
  else
    let f := passFrame s.scrub.pos
    match verifyFrame f s with
    | (true, s) => s.onScrub (fun x => { x with pos := x.pos + 1 })
    | (false, s) => scrubFail f s
/-- SCRUB_FRAME_READ (R536): the next frame of the pass. A tile marked failing is acted on at once (R184). -/
def scrubRead (s : State) : State :=
  if s.scrub.state ≠ 1 then s
  else if s.scrub.verifying then verifyStep s
  else
    let f := passFrame s.scrub.pos
    let s := if frameFrozen s f then s else serveFailing (scrubFrame f s)
    let s := s.onScrub (fun x => { x with pos := x.pos + 1 })
    if passFrames ≤ s.scrub.pos ∧ s.scrub.state = 1 then passEnd s else s
/-- SCRUB_FRAME_READ (R536). -/
def execScrubFrameRead (s : State) : Host.Outcome State Fault Refusal := .next (scrubRead s)

/-! ## The vote (R542) -/

/-- The three copies of a triple, as their differences from the field's value. -/
def triple (s : State) (i : Nat) : List Word := s.scrub.triples.get [0, 0, 0] i
/-- Store them. -/
def State.setTriple (s : State) (i : Nat) (l : List Word) : State :=
  s.onScrub (fun x => { x with triples := x.triples.set [0, 0, 0] i l })
/-- The value that at least two of three copies hold. -/
def majority (a b c : Word) : Option Word := if a = b ∨ a = c then some a else if b = c then some b else none
/-- The vote of one triple. -/
def voteTriple (i : Nat) (s : State) : State :=
  let a := (triple s i).getD 0 0
  let b := (triple s i).getD 1 0
  let c := (triple s i).getD 2 0
  if a = b ∧ b = c then s
  else
    match majority a b c with
    | some m => notifyOnce 0x27 0 0 1 [] ((s.setTriple i [m, m, m]).bump .scrubVoteCount 0 1)
    | none => scrubFault 1 i s
/-- TRIPLE_VOTE (R542): every triple is voted, until one finds no majority. -/
def voteAll (s : State) : State :=
  if s.scrub.state = 2 then s else forEach (s.scrub.triples.map (·.1)) (fun i s => if s.scrub.state = 2 then s else voteTriple i s) s
/-- TRIPLE_VOTE (R542). -/
def execTripleVote (s : State) : Host.Outcome State Fault Refusal := .next (voteAll s)

/-! ## Tile tests -/

/-- The tester may start a test: the scrubber not halted, none running or waiting for its migration, the fabric running. -/
def testerIdle (s : State) : Bool :=
  s.scrub.state != 2 && s.dst.test.isNone && !(s.dst.mig.any (fun m => m.test.isSome)) && s.fab.released &&
    (s.pwr.state == 0 || s.pwr.state == 1)
/-- The gap after the last test has passed (R547). -/
def gapOver (s : State) : Bool :=
  match s.dst.testAt with
  | some t => !tickLt s.now t
  | none => true
/-- The next free tile of the rotation, at or after the position (R547). -/
def nextFreeTile (s : State) : Option Nat :=
  nextInTurn ((List.range 4096).filter (freeTile s)) (if s.dst.testPos = 0 then none else some (s.dst.testPos - 1))
/-- TILE_TEST_START (R547). -/
def tileTestStart (s : State) : State :=
  if bitOf (s.reg .scrubCfg 0) 31 && testerIdle s && gapOver s then
    match nextFreeTile s with
    | some t => beginTest t false false (s.onDst (fun d => { d with testPos := t + 1 }))
    | none => s
  else s
/-- TILE_TEST_START (R547). -/
def execTileTestStart (s : State) : Host.Outcome State Fault Refusal := .next (tileTestStart s)
/-- SCRUB_BIST_COUNT after a test; both counts saturate. -/
def countTest (fail : Bool) (s : State) : State :=
  let v := s.reg .scrubBistCount 0
  s.setReg .scrubBistCount 0 (w32 (place 16 16 (min (fld v 31 16 + b2n fail) 65535) + min (fld v 15 0 + 1) 65535))
/-- TILE_TEST_END (R546, R547): a tile that passes is cleared and freed; one that fails is retired with cause BIST. A tile of
the runtime list stays in it. The units 0x9 to 0xF are never recorded (R552). -/
def testEnd (unit : Nat) (s : State) : State :=
  match s.dst.test with
  | none => s
  | some t =>
    if s.scrub.state = 2 ∨ 8 < unit then s
    else
      let fail := decide (unit ≠ 0)
      let s := countTest fail (testGap (clearTile t.tile (s.onDst (fun d => { d with test := none }))))
      let s := if fail then failTile t.tile 1 s else s
      if t.requested then bistReport t.tile (if fail then stFault else stOk) unit s else s
/-- TILE_TEST_END (R546). -/
def execTileTestEnd (failUnit : BitVec 4) (s : State) : Host.Outcome State Fault Refusal := .next (testEnd failUnit.toNat s)
/-- A requested test of a tile in use begins with the migration of its instance (R547). A pinned instance is moved only for a
failing tile (R179), so its request ends with UNSUPPORTED (notes/assumptions/16.md). -/
def testMigrate (t : Nat) (i : Inst) (s : State) : State :=
  if i.pinned then s.stat stUnsupported else
  match migrateCheck s i 0x80000000 with
  | (_, some (c, r)) =>
    ((startMig i 6 c r none (some t) s).setReg .scrubBistStat 0 (w32 (place 30 1 1 + place 0 12 t))).stat stOk
  | (st, none) => s.stat st
/-- TILE_TEST (R547, R548): SCRUB_BIST_CMD TEST of the tile in [11:0]; bit 27 is MIGRATE_THEN_TEST. -/
def tileTest (p : Nat) (v : Word) (s : State) : State :=
  let t := fld v 11 0
  if p ≠ 0 then s.stat stDenied
  else if s.sec.fuses.retired.contains t then s.stat stUnsupported
  else if !testerIdle s then s.stat stBusy
  else if s.dst.retRt.any (fun e => e.tile == t) then (beginTest t true true s).stat stOk
  else if freeTile s t then (beginTest t true false s).stat stOk
  else if !bitOf v 27 then s.stat stBusy
  else
    match (logicalAt s t).bind (instOf s) with
    | some i => testMigrate t i s
    | none => s.stat stBusy
/-- TILE_TEST (R547). -/
def execTileTest (port : Fin 4) (val : Word) (s : State) : Host.Outcome State Fault Refusal := .next (served (tileTest port val) s)

end Sys2Proof.Machine
end

