-- ==== Sys2Proof/Machine/Power.lean ====
section
/-! DEFINITION. Power: power states (R579–R586), the voltage governor and PMBus (R587–R591), thermal trips (R590) and the
resets of the whole part and of the fabric (R477, R488, R507, R526, R578, R592–R596). The domain reset's operation stands here
too, since a wake may perform a held one. -/
namespace Sys2Proof.Machine

/-- Change the power state. -/
def State.onPwr (s : State) (f : PwrSt → PwrSt) : State := { s with pwr := f s.pwr }
/-- Every port. -/
def allPorts : List Nat := [0, 1, 2, 3]

/-! ## Domain reset (R475, R526, R569) -/

/-- The mailboxes of a domain lose their inbound entries. -/
def dropMail (d : Nat) (s : State) : State :=
  forEach (List.range 16) (fun m s => s.setMbox d m { mbox s d m with inb := [] }) s
/-- A port's batches. -/
def batchOf (s : State) (p : Nat) : BatchSt := s.host.batch.get BatchSt.init p
/-- Store them. -/
def State.setBatch (s : State) (p : Nat) (x : BatchSt) : State :=
  { s with host := { s.host with batch := s.host.batch.set BatchSt.init p x } }
/-- BATCH_STAT's STATE and STATUS. -/
def batchStat (p state : Nat) (st : Status) (s : State) : State :=
  s.setRegP p .batchStat 0 0 (w32 (place 28 4 state + place 24 4 st.toNat))
/-- BATCH_STAT takes a state; its STATUS stands. -/
def batchState (p state : Nat) (s : State) : State :=
  batchStat p state (BitVec.ofNat 4 (fld (s.regP p .batchStat 0 0) 27 24)) s
/-- Withdraw a port's pending batches (R474). -/
def dropPending (p : Nat) (s : State) : State :=
  { s with host := { s.host with accepted := s.host.accepted.filter (fun b => b.port.val != p) } }
/-- A domain reset discards the port's batches (R474). -/
def dropBatches (p : Nat) (s : State) : State :=
  if batchOf s p = BatchSt.init ∧ s.host.accepted.all (fun b => b.port.val != p) then s
  else batchState p 6 (dropPending p (s.setBatch p BatchSt.init))
/-- A region holds a tile of domain `d`. -/
def regionHas (s : State) (d : Nat) (r : RegionSt) : Bool :=
  r.ranges.any (fun e => (List.range e.2).any (fun k => (tileDom s (e.1 + k)).val == d))
/-- A partial load whose region holds tiles of the domain ends with RESET and leaves the region torn (R526). -/
def dropRegion (d : Nat) (s : State) : State :=
  match s.ldr.load, s.ldr.region with
  | some l, some r => if l.partial_ && !r.torn && regionHas s d r then ldFail 0x18 l.img.length d 0 s else s
  | _, _ => s
/-- The reset of domain `d` for port `p` takes effect. -/
def domainReset (p d : Nat) (s : State) : State :=
  let s := dropBatches d (dropReport d (dropMail d (domainTiles d (dropRegion d s))))
  notify 0xC6 d [w32 d, w32 p] s

/-! ## Ports (R476–R478, R526, R569) -/

/-- A port's packet layer is reset, with the report and the load that came through it. -/
def portCut (p : Nat) (s : State) : State := dropStream p (dropReport p s)
/-- PORT_ISLAND_RESET (R476, R482). -/
def islandResetPort (p t : Nat) (s : State) : State := checked [mayPort p t] (fun s => portCut t (resetPort t s)) s
/-- PORT_ISLAND_RESET (R476). -/
def execPortIslandReset (port target : Fin 4) (s : State) : Host.Outcome State Fault Refusal := .next (served (islandResetPort port target) s)
/-- PACKET_LAYER_TIMEOUT (R478): as an island reset, without its hold; the peers of the port's crossings see one too (R476). -/
def packetTimeout (p : Nat) (s : State) : State :=
  let x := port s p
  if x.state ≠ 5 ∧ x.leftAt.isSome then portCut p (forEach (portXings p) peerReset (layerTimeout p s)) else s
/-- PACKET_LAYER_TIMEOUT (R478). -/
def execPacketLayerTimeout (p : Fin 4) (s : State) : Host.Outcome State Fault Refusal := .next (packetTimeout p s)
/-- Park switches a port off (R477). -/
def portOff (p : Nat) (s : State) : State :=
  let s := clearLayer p (leaveActive p 8 s)
  let s := s.onPort p (fun x => { x with state := 0, step := 0, wait := false, cause := 8, locked := 0, leftAt := none })
  portCut p (forEach (portXings p) peerReset s)

/-! ## Entry (R580, R581, R586) -/

/-- Runs and exports pause (R330). -/
def pauseRuns (s : State) : State :=
  forEach (spoolNums s) (fun n s =>
    forEach [0, 1, 2, 3] (fun i s =>
      let x := slotOf s n i
      if inRun x then s.setSlot n i { x with state := 7 } else s) s) s
/-- They resume, each as it stands to W (R340); what capture has overtaken jumps (R310). -/
def resumeRuns (s : State) : State :=
  forEach (spoolNums s) (fun n s =>
    lapReaders n (forEach [0, 1, 2, 3] (fun i s =>
      let x := slotOf s n i
      let follow := if i < 2 then x.follow else (spoolOf s n).exp.any (·.follow)
      if x.state = 7 then s.setSlot n i { x with state := runState s n follow x.pos } else s) s)) s
/-- Runs and exports end with STALE (R330). -/
def endRuns (s : State) : State := forEach (spoolNums s) (fun n s => dropExport n (staleRuns n s)) s
/-- A bank's queued accesses are performed, in the order in which R353 serves them; a word under test has its shadow. -/
def drainBank (b : Nat) : Nat → State → State
  | 0, s => s
  | k + 1, s => if (waitingMasters s b).isEmpty then s else drainBank b k (forEach (s.lanes.map (·.1)) spendSlot (serveNext b s))
/-- How many records a lane writer holds at most. -/
def writerLoad (x : LaneSt) : Nat := 1 + x.wbuf.length + (x.wq.items.map List.length).sum
/-- A lane writer writes what it holds. -/
def drainWriter (k : Nat) (s : State) : State := forEach (List.range (writerLoad (lane s k))) (fun _ => spoolWrite k) s
/-- Queued reel memory accesses are performed before VMEM is lowered, those that wait for a group's retention to end too, and
what the lane writers hold is written (R365). -/
def drainMem (s : State) : State :=
  let s := forEach (s.lanes.map (·.1)) drainWriter s
  forEach (s.memory.banks.map (·.1)) (fun b s => drainBank b ((bank s b).reqs.length + 2 * s.lanes.length) s) s
/-- The sweep of everything in the ply network. -/
def sweepEvery : Sweep := { dom := fun _ => true, tile := fun _ => true }
/-- A host's request whose answer is lost in the network is answered with STALE. -/
def staleAll (s : State) : State :=
  forEach allPorts (fun p s => forEach (List.range 16) (fun m s => forEach (mbox s p m).reqs (staleReq false p m) s) s) s
/-- The fabric and the ply network are switched off: what they hold is lost (R581). -/
def loseFabric (s : State) : State :=
  let s := staleAll (sweepPackets sweepEvery s)
  { s with fab := { s.fab with tiles := [] },
           ply := { PlySt.init with util := s.ply.util, utilMax := s.ply.utilMax } }
/-- The part stands in Doze (2) or Park (3). -/
def powerDown (park : Bool) (s : State) : State :=
  let s := if park then loseFabric (forEach [1, 2, 3] portOff s) else s
  let st : BitVec 4 := if park then 3 else 2
  let s := s.onPwr (fun x => { x with state := st, entering := none, calmRun := 0 })
  let s := { s with memory := { s.memory with vret := true } }
  notifyOwner 0x40 0 [w32 st.toNat] s
/-- No operation holds entry (R580 step 1). -/
def entryFree (s : State) : Bool :=
  s.ldr.load.isNone && s.sec.reports.isEmpty && s.sec.fuseOp.isNone && s.dst.mig.isNone && s.pins.spi.isEmpty &&
    s.pins.i2c.isEmpty && s.memory.test.isNone
/-- Park from Doze (R581): at once, but it waits for a signature or a fuse program that runs there (R569). -/
def parkFromDoze (s : State) : State :=
  if entryFree s then powerDown true (endRuns s) else s.onPwr (fun x => { x with entering := some true })
/-- POWER_ENTRY_PROCEED (R580, R581): steps 2 to 5; from Doze, what waited there is tried again. -/
def powerProceed (s : State) : State :=
  match s.pwr.state, s.pwr.entering with
  | 4, some park =>
    if entryFree s then
      let s := sleepPins (stopSenses (pauseLanes s))
      powerDown park (drainMem (if park then endRuns s else pauseRuns s))
    else s
  | 2, some true => parkFromDoze s
  | _, _ => s
/-- POWER_ENTRY_PROCEED (R580). -/
def execPowerEntryProceed (s : State) : Host.Outcome State Fault Refusal := .next (powerProceed s)
/-- Entry begins: a migration before its commit is aborted (R178), a tile test abandoned (R548). -/
def startEntry (park : Bool) (s : State) : State :=
  let s := s.onPwr (fun x => { x with state := 4, entering := some park })
  let s := match s.dst.mig with
    | some m => if m.step < 6 then abortMig stBusy false s else s
    | none => s
  abandonTest s
/-- DOZE (R579, R586). -/
def doze (p : Nat) (s : State) : State :=
  if p ≠ 0 then s.stat stDenied
  else
    match s.pwr.state with
    | 0 => okAfter (startEntry false) s
    | 1 => okAfter (startEntry false) s
    | 2 => s.stat (busyIf s.pwr.entering.isSome)
    | 3 => s.stat stRange
    | _ => s.stat stBusy
/-- DOZE (R580). -/
def execDoze (port : Fin 4) (s : State) : Host.Outcome State Fault Refusal := .next (doze port s)
/-- PARK (R579, R581, R586). -/
def park (p : Nat) (s : State) : State :=
  if p ≠ 0 then s.stat stDenied
  else
    match s.pwr.state with
    | 0 => okAfter (startEntry true) s
    | 1 => okAfter (startEntry true) s
    | 2 => if s.pwr.entering.isSome then s.stat stBusy else okAfter parkFromDoze s
    | 3 => s.stat stOk
    | _ => s.stat stBusy
/-- PARK (R581). -/
def execPark (port : Fin 4) (s : State) : Host.Outcome State Fault Refusal := .next (park port s)

/-! ## Wake (R583–R586) -/

/-- A wake source: 1 command, 2 pin, 3 timer, 4 thermal. It abandons an entry; in Doze and Park it starts the wake. -/
def wakeBy (source pin : Nat) (s : State) : State :=
  match s.pwr.state with
  | 4 => s.onPwr (fun x => { x with state := 0, entering := none, thermal := false })
  | 2 => (s.onPwr (fun x => { x with state := 5, entering := some false, thermal := false, wakeAt := s.now })).setReg
      .pwrWakeSrc 0 (w32 (place 28 4 source + place 0 9 pin))
  | 3 => (s.onPwr (fun x => { x with state := 5, entering := some true, thermal := false, wakeAt := s.now })).setReg
      .pwrWakeSrc 0 (w32 (place 28 4 source + place 0 9 pin))
  | _ => s
/-- WAKE (R583, R586). -/
def wake (p : Nat) (s : State) : State := ownerOnly p (okAfter (wakeBy 1 0)) s
/-- WAKE (R583). -/
def execWake (port : Fin 4) (s : State) : Host.Outcome State Fault Refusal := .next (wake port s)
/-- The timer is armed for a tick that has not passed. -/
def timerSet (s : State) : Bool :=
  let hi := s.reg .pwrWakeAtHi 0
  bitOf hi 31 && !tickLt (wakeTick s hi) s.now && s.time.locked
/-- WAKE_TIMER (R583): the timebase reaches the tick that PWR_WAKE_AT names. -/
def wakeTimer (s : State) : State :=
  if timerSet s && (s.pwr.state == 2 || s.pwr.state == 3 || s.pwr.state == 4) then
    wakeBy 3 0 (advanceTo (wakeTick s (s.reg .pwrWakeAtHi 0)) s)
  else s
/-- WAKE_TIMER (R583). -/
def execWakeTimer (s : State) : Host.Outcome State Fault Refusal := .next (wakeTimer s)
/-- Whether a pin's detector, active through Doze and Park, sees its event in a level (R420). -/
def wakeEvent (p : Nat) (level : Bool) (s : State) : Bool :=
  let x := pinSt s p
  bitOf (pinEvt s p) 24 && s.fab.released && viobOk s (bankOfPin p) && !pairedOdd s p && pinFunc s p != 7 && x.park.isNone &&
    (edgeEvent (evtMode s p) x.level level || (x.armed && ((evtMode s p == 4 && level) || (evtMode s p == 5 && !level))))
/-- PIN_WAKE_EVENT (R420, R583): the wake, and PEND; nothing goes to the fabric. -/
def pinWake (p : Nat) (level : Bool) (s : State) : State :=
  if (s.pwr.state == 2 || s.pwr.state == 3 || s.pwr.state == 4 || s.pwr.state == 5) && wakeEvent p level s then
    let x := pinSt s p
    setPend p (wakeBy 2 p (s.setPin p { x with level := level, armed := x.armed && decide (evtMode s p < 4) }))
  else s
/-- PIN_WAKE_EVENT (R420). -/
def execPinWakeEvent (pin : Fin 384) (level : Bool) (s : State) : Host.Outcome State Fault Refusal := .next (pinWake pin level s)
/-- THERMAL_RELEASE (R590): 2^27 ticks at or below TRIP − 10 °C. -/
def thermalRelease (s : State) : State := if s.pwr.thermal && s.pwr.state == 3 then wakeBy 4 0 s else s
/-- THERMAL_RELEASE (R590). -/
def execThermalRelease (s : State) : Host.Outcome State Fault Refusal := .next (thermalRelease s)
/-- A sensor reads a temperature. -/
def sensorReads (region : Nat) (temp : Byte) (s : State) : State :=
  { s with dst := { s.dst with temps := setAt s.dst.temps region temp } }
/-- THERM_TRIP (R590): the reading of a sensor, as power control accepts it (R382), reaches TRIP, and the part enters Park on its own;
a part that wakes does so at the end of its wake. -/
def thermTrip (region : Nat) (temp : Byte) (s : State) : State :=
  let s := if temp.toNat < fld (s.reg .pwrTherm 0) 7 0 then s else sensorReads region temp s
  if temp.toNat < fld (s.reg .pwrTherm 0) 7 0 ∨ (sensors s).getD region 0 < fld (s.reg .pwrTherm 0) 7 0 then s
  else
    let note (s : State) : State :=
      notifyOwner 0x45 0 [w32 region, w32 temp.toNat] (s.onPwr (fun x => { x with thermal := true }))
    match s.pwr.state with
    | 0 => startEntry true (note s)
    | 1 => startEntry true (note s)
    | 4 => if s.pwr.entering = some true then s else (note s).onPwr (fun x => { x with entering := some true })
    | 2 => if s.pwr.thermal then s else parkFromDoze (note s)
    | 5 => if s.pwr.thermal then s else note s
    | _ => s
/-- A region whose accepted reading stands at TRIP in Run or Idle trips (R590). -/
def tripHot (s : State) : State :=
  if s.pwr.state = 0 ∨ s.pwr.state = 1 then
    match (sensors s).zipIdx.find? (fun e => decide (fld (s.reg .pwrTherm 0) 7 0 ≤ e.1)) with
    | some (t, k) => thermTrip k (BitVec.ofNat 8 t) s
    | none => s
  else s
/-- THERM_TRIP (R590). -/
def execThermTrip (region : Fin 64) (temp : Byte) (s : State) : Host.Outcome State Fault Refusal := .next (thermTrip region temp s)

/-! ## Fabric reset (R594) -/

/-- A fabric reset: with no image released it has no effect (R526). -/
def fabricCmd (cause : Nat) (s : State) : State :=
  if s.fab.released then
    let s := fabricReset s
    let v := s.reg .sysResetCause 0
    let s := s.setReg .sysResetCause 0 (putFld v 31 16 (min (fld v 31 16 + 1) 65535))
    notifyPorts 0x01 0 [Config.itemCode 1 cause] allPorts s
  else s
/-- A fabric or domain reset in Doze, or while the part wakes from it, is held for the wake (R586); in Park, and while the part
wakes from it, it has no effect. `k` is 0 for the fabric, else 1 + 4 × the port + the domain. -/
def orHold (k : Nat) (act : State → State) (s : State) : State :=
  let hold (s : State) : State := s.onPwr (fun x => { x with heldReset := insertNat k x.heldReset })
  if s.pwr.state = 2 then hold s
  else if s.pwr.state = 3 then s
  else if s.pwr.state = 5 then (if s.pwr.entering = some false then hold s else s)
  else act s
/-- A reset that was held. -/
def heldAct (k : Nat) (s : State) : State :=
  if k = 0 then fabricCmd 0 s else domainReset ((k - 1) / 4) ((k - 1) % 4) s
/-- WAKE_COMPLETE (R584, R585): steps 1 to 4, at the end of which every island runs. -/
def wakeDone (s : State) : State :=
  if s.pwr.state ≠ 5 then s
  else
    let parked := decide (s.pwr.entering = some true)
    let src := fld (s.reg .pwrWakeSrc 0) 31 28
    let held := s.pwr.heldReset
    let took := (s.now - s.pwr.wakeAt).toNat / 12800
    let s := s.onMem (fun m => { m with vret := false, ret := [], waking := [],
                                        lastUse := (List.range 16).foldl (fun l g => l.set 0 g s.now) m.lastUse })
    let s := writeEarly (s.onPwr (fun x => { x with state := 0, entering := none, heldReset := [], calmRun := 0 }))
    let s := if parked then startTiles (fun t => !tileFrozen s t) s
      else forEach (physTiles s (fun _ => true)) settleRunning (forEach held heldAct s)
    let s := resumeRuns (flushHeld (wakeSenses (wakePins s)))
    let s := wakeLanes { s with xng := { s.xng with stopped := [] } }
    let s := if parked && s.fab.released then forEach [1, 2, 3] portDetect s else s
    let s := notifyOwner 0x41 0 [w32 src, w32 took] s
    if s.pwr.thermal then startEntry true s else s
/-- WAKE_COMPLETE (R584). -/
def execWakeComplete (s : State) : Host.Outcome State Fault Refusal := .next (wakeDone s)

/-! ## The governor (R587–R591) -/

/-- The highest of the 64 sensor readings. -/
def hottest (s : State) : Nat := (sensors s).foldl max 0
/-- A transaction on the PMBus in this period: the regulator's address, the command and the word it carries (R587). -/
def sendPmb (cmd word : Nat) (s : State) : State :=
  s.onPwr (fun x => { x with bus := x.bus ++ [(fld (s.reg .pwrPmb 0) 22 16, cmd, word % 65536)] })
/-- The exponent of VCORE words, two's complement (R587). -/
def vexp (s : State) : Int := sint 5 (fld (s.reg .pwrPmb 0) 4 0)
/-- A number × 2^e, rounded to the nearest, halves up. -/
def scaled (m : Int) (e : Int) : Int :=
  if 0 ≤ e then m * 2 ^ e.toNat else (2 * m + 2 ^ (-e).toNat) / (2 * 2 ^ (-e).toNat)
/-- A LINEAR16 word as millivolts. -/
def linear16 (s : State) (w : BitVec 16) : Nat := (scaled (1000 * w.toNat) (vexp s)).toNat
/-- A LINEAR11 word in units of 0.1. -/
def linear11 (w : BitVec 16) : Int := scaled (10 * sint 11 (fld w 10 0)) (sint 5 (fld w 15 11))
/-- The mantissa of a VOUT_COMMAND for a setting in mV: V × 2^−VEXP, rounded to the nearest, halves up (R587). -/
def mantissa (s : State) (mv : Nat) : Nat :=
  let num := mv * 2 ^ (-(vexp s)).toNat
  let den := 1000 * 2 ^ (vexp s).toNat
  (2 * num + den) / (2 * den)
/-- The bits of STATUS_WORD that show a fault: all but BUSY, OFF and POWER_GOOD. -/
def faultBits : BitVec 16 := 0xF73F
/-- PWR_REG_FAULT with the last STATUS_WORD and READ_VOUT. -/
def regFault (s : State) : State :=
  let s := s.onPwr (fun x => { x with regFault := true })
  notifyOwner 0x43 0 [w32 s.pwr.status.toNat, w32 (fld (s.reg .pwrReg 0) 9 0)] s
/-- A transaction of `cmd` was not acknowledged for the third time in a row: the governor stops writing (R591). -/
def pmbFault (n cmd : Nat) (s : State) : State :=
  if 3 ≤ n ∧ !s.pwr.pmbFault then notifyOwner 0x44 0 [w32 cmd] (s.onPwr (fun x => { x with pmbFault := true })) else s
/-- A STATUS_WORD arrives; after one that shows a fault CLEAR_FAULTS is sent (R587, R591). -/
def statusRead (w : BitVec 16) (s : State) : State :=
  let s := s.onPwr (fun x => { x with status := w, statusDue := false })
  if w &&& faultBits = 0 then s.onPwr (fun x => { x with regFault := false }) else sendPmb 0x03 0 (regFault s)
/-- A READ_VOUT arrives: two in a row that differ from the setting by more than 25 mV stop the writes (R591). -/
def voutRead (w : BitVec 16) (s : State) : State :=
  let mv := linear16 s w
  let s := s.setReg .pwrReg 0 (putFld (s.reg .pwrReg 0) 9 0 (min mv 1023))
  let off := decide (25 < (mv - s.pwr.vcore) + (s.pwr.vcore - mv))
  let s := s.onPwr (fun x => { x with mismatch := if off then x.mismatch + 1 else 0, ioutDue := true })
  if off ∧ s.pwr.mismatch = 2 then regFault s else s
/-- A READ_IOUT arrives. -/
def ioutRead (w : BitVec 16) (s : State) : State :=
  (s.setReg .pwrReg 0 (putFld (s.reg .pwrReg 0) 31 16 (BitVec.ofInt 16 (linear11 w)).toNat)).onPwr (fun x => { x with ioutDue := false })
/-- A period's one read (R587, R588): STATUS_WORD once in sixteen periods, else READ_VOUT and READ_IOUT in turn; one that was not
acknowledged is tried again. -/
def govRead (r : PmbResult) (s : State) : State :=
  let cmd := if s.pwr.statusDue then 0x79 else if s.pwr.ioutDue then 0x8C else 0x8B
  let s := sendPmb cmd 0 (s.onPwr (fun x => { x with readUsed := true }))
  if r.readAck then
    let s := s.onPwr (fun x => { x with rFails := 0, wFails := if x.pmbFault then 0 else x.wFails, pmbFault := false })
    if cmd = 0x79 then statusRead r.word s else if cmd = 0x8C then ioutRead r.word s else voutRead r.word s
  else
    let n := s.pwr.rFails + 1
    pmbFault n cmd (s.onPwr (fun x => { x with rFails := n }))
/-- The governor's writes are stopped (R591). -/
def govStopped (s : State) : Bool := s.pwr.pmbFault || decide (2 ≤ s.pwr.mismatch)
/-- The setting moves to `t`; one that was not acknowledged is written again at the next period. -/
def govWrite (t : Nat) (ack : Bool) (s : State) : State :=
  if govStopped s || (t == s.pwr.vcore && !s.pwr.rewrite) then s
  else
    let n := if ack then 0 else s.pwr.wFails + 1
    pmbFault n 0x21 ((sendPmb 0x21 (mantissa s t) s).onPwr (fun x => { x with vcore := t, rewrite := !ack, wFails := n }))
/-- The judgement of R588: the setting wished for before the limits, and calm_run. -/
def govJudge (s : State) (up calm : Bool) : Nat × Nat :=
  let v := s.pwr.vcore
  let tcap := fld (s.reg .pwrTherm 0) 15 8
  let hold := fld (s.reg .pwrGov 0) 3 0
  if tcap + 5 ≤ hottest s then (v - 10, s.pwr.calmRun)
  else if up then (if hottest s < tcap then v + 10 else v, 0)
  else if calm then (if hold ≤ s.pwr.calmRun + 1 then (v - 10, 0) else (v, s.pwr.calmRun + 1))
  else (v, 0)
/-- SHORTFALL of a period (R588): counted; raised at the first of a run. -/
def shortfall (short : Bool) (s : State) : State :=
  if short then
    let s := s.bump .pwrShortCount 0 1
    if s.pwr.shortfall then s
    else
      let cause := Config.itemCode 0x42 (if fld (s.reg .pwrTherm 0) 15 8 ≤ hottest s then 0 else 1)
      notifyOwner 0x42 0 [cause, w32 s.pwr.vcore, w32 s.pwr.lag, w32 s.pwr.missed] (s.onPwr (fun x => { x with shortfall := true }))
  else s.onPwr (fun x => { x with shortfall := false })
/-- The deepest subscribed queue now: where the next period starts from. -/
def depthNow (s : State) : Nat := (List.range 66).foldl (fun a g => max a (depthSeen s g)) 0
/-- The limits in force: those of PWR_VLIM, and where the image has set none the whole range of VCORE, 620 to 900 mV (R103,
notes/assumptions/70.md). -/
def limitMv (s : State) (hi lo dflt : Nat) : Nat := if vlimOk (s.reg .pwrVlim 0) then fld (s.reg .pwrVlim 0) hi lo else dflt
/-- CEIL. -/
def ceilMv (s : State) : Nat := limitMv s 25 16 900
/-- FLOOR. -/
def floorMv (s : State) : Nat := limitMv s 9 0 620
/-- A period begins: nothing is measured yet, and its read is to come. -/
def newPeriod (s : State) : State := s.onPwr (fun x => { x with lag := depthNow s, missed := 0, readUsed := false })
/-- From I/O release on, in Run and Idle, the governor judges the period that has ended, may write, and reads where that period has had
no read (R588). -/
def governor (cong : Nat) (r : PmbResult) (s : State) : State :=
  if !s.ldr.cfgDone || !(s.pwr.state == 0 || s.pwr.state == 1) then newPeriod s
  else
    let g := s.reg .pwrGov 0
    let lag := s.pwr.lag
    let missed := s.pwr.missed
    let up := decide (0 < missed ∨ fld g 31 26 ≤ lag ∨ fld g 19 13 ≤ cong)
    let calm := decide (missed = 0 ∧ lag ≤ fld g 25 20 ∧ cong ≤ fld g 12 6)
    let (w, run) := govJudge s up calm
    let t := min (ceilMv s) (max (floorMv s) w)
    let s := shortfall (up && decide (t ≤ s.pwr.vcore)) (s.onPwr (fun x => { x with calmRun := run }))
    let s := govWrite t r.writeAck s
    let n := (s.pwr.period + 1) % 16
    let s := s.onPwr (fun x => { x with period := n, statusDue := x.statusDue || n == 0 })
    newPeriod (if s.pwr.readUsed then s else govRead r s)
/-- A period ends: the sensors are read, the governor acts; a reading at TRIP parks the part (R590). -/
def govPeriod (temps : List Byte) (cong : Nat) (r : PmbResult) (s : State) : State :=
  let s := { s with dst := { s.dst with temps := temps } }
  tripHot (governor cong r (s.onPwr (fun x => { x with bus := [] })))
/-- GOVERNOR_PERIOD (R588). -/
def execGovernorPeriod (temps : List Byte) (cong : Fin 101) (pmb : PmbResult) (s : State) : Host.Outcome State Fault Refusal :=
  .next (govPeriod temps cong pmb s)
/-- PMB_ALERT (R587, R588, R591): STATUS_WORD takes the place of the period's read; where that has been made, or the part sleeps, it is
read when the next may be. -/
def pmbAlert (ack : Bool) (w : BitVec 16) (s : State) : State :=
  let due := s.onPwr (fun x => { x with statusDue := true })
  if !s.ldr.cfgDone then s
  else if (s.pwr.state == 0 || s.pwr.state == 1) && !s.pwr.readUsed then govRead { writeAck := true, readAck := ack, word := w } due
  else due
/-- PMB_ALERT (R587). -/
def execPmbAlert (ack : Bool) (status : BitVec 16) (s : State) : Host.Outcome State Fault Refusal := .next (pmbAlert ack status s)

/-! ## Power-on and full reset (R592–R596) -/

/-- The part in a power-on reset (`power`) or a full reset, with its cause (R593): fuses are kept, of a full reset also the
retirements and repairs; everything else starts anew. An item being programmed is in force or not (R555). -/
def wideReset (power : Bool) (cause : Nat) (s : State) : State :=
  let s := match s.sec.fuseOp with
    | some f => fuseCut f s
    | none => s
  let r : State :=
    { State.reset with
      done := s.done, fresh := s.fresh, pending := s.pending,
      sec := { SecSt.init with fuses := s.sec.fuses, vfuseOk := s.sec.vfuseOk },
      dst := { DstSt.init with retRt := if power then [] else (s.dst.retRt ++ s.dst.failing).take 256 },
      memory := { MemSt.init with spares := if power then [] else s.memory.spares,
                                  repaired := if power then [] else s.memory.repaired },
      pins := { PinsSt.init with pulldef := s.pins.pulldef },
      obs := { ObsSt.init with tapIr := s.obs.tapIr, boundary := s.obs.boundary },
      pwr := { PwrSt.init with reset := if power then 2 else 1 } }
  r.setReg .sysResetCause 0 (w32 cause)
/-- The part leaves reset (R487, R488, R449, R507 step 1): straps are sampled, port 0 detects, a full load starts from the source
that CFG_MODE selects; the governor writes 0.90 V once (R589). -/
def startUp (mode : BitVec 2) (pulldef : Byte) (s : State) : State :=
  let s := s.onPins (fun x => { x with pulldef := pulldef })
  let s := (s.onPwr (fun x => { x with reset := 0 })).onSec (fun x => { x with vfuseOk := true })
  let s := portDetect 0 (sendPmb 0x21 (mantissa s 900) (s.onLdr (fun x => { x with mode := mode, modeRsvd := mode == 3 })))
  match mode with
  | 1 => s.onLdr (fun x => { x with state := 7, source := 2 })
  | 2 => s.onLdr (fun x => { x with state := 6, source := 3 })
  | 3 => notifyOwner 0x16 0 [] (beginFull none 0 s)
  | _ => beginFull none 0 s
/-- POWER_ON_RESET (R593): PORST_N is asserted. -/
def powerOn (s : State) : State := wideReset true 1 s
/-- POWER_ON_RESET (R593). -/
def execPowerOnReset (s : State) : Host.Outcome State Fault Refusal := .next (powerOn s)
/-- FULL_RESET (R595): RST_N is asserted; a power-on reset in force goes before it (R596). -/
def fullByPin (s : State) : State := if s.pwr.reset = 2 then s else wideReset false 2 s
/-- FULL_RESET (R595). -/
def execFullReset (s : State) : Host.Outcome State Fault Refusal := .next (fullByPin s)
/-- PORST_N_DEASSERTED (R507, R578): also the recovery of the rail whose brownout is the cause. -/
def porstUp (mode : BitVec 2) (pulldef : Byte) (s : State) : State :=
  if s.pwr.reset = 2 ∨ (s.pwr.reset = 1 ∧ fld (s.reg .sysResetCause 0) 3 0 = 4) then startUp mode pulldef s else s
/-- PORST_N_DEASSERTED (R507). -/
def execPorstNDeasserted (mode : BitVec 2) (pulldef : Byte) (s : State) : Host.Outcome State Fault Refusal :=
  .next (porstUp mode pulldef s)
/-- RST_N_DEASSERTED (R595). -/
def rstUp (mode : BitVec 2) (pulldef : Byte) (s : State) : State := if s.pwr.reset = 1 then startUp mode pulldef s else s
/-- RST_N_DEASSERTED (R595). -/
def execRstNDeasserted (mode : BitVec 2) (pulldef : Byte) (s : State) : Host.Outcome State Fault Refusal :=
  .next (rstUp mode pulldef s)
/-- A write of SYS_RESET (R594–R596, R599), with the levels of the straps at that moment. -/
def sysReset (p : Nat) (v : Word) (mode : BitVec 2) (pulldef : Byte) (s : State) : State :=
  checked [allow (p == 0), within (decide (fld v 31 16 = 0xA5C3))] (fun s =>
    if bitOf v 1 then startUp mode pulldef (wideReset false 3 s)
    else if bitOf v 0 then orHold 0 (fabricCmd 0) s
    else s) s
/-- SYS_RESET_FULL (R595). -/
def execSysResetFull (port : Fin 4) (val : Word) (mode : BitVec 2) (pulldef : Byte) (s : State) :
    Host.Outcome State Fault Refusal := .next (sysReset port val mode pulldef s)
/-- A write of SYS_RESET where the levels of the straps are not at hand: they are free values. -/
def sysResetWrite (p : Nat) (v : Word) (s : State) : State :=
  sysReset p v (BitVec.ofNat 2 s.free.toNat) (BitVec.ofNat 8 (s.free.toNat / 4)) s.nextFree
/-- SYS_RESET_FABRIC (R594). -/
def execSysResetFabric (port : Fin 4) (val : Word) (s : State) : Host.Outcome State Fault Refusal :=
  .next (sysResetWrite port val s)
/-- RAIL_BROWNOUT (R578): a lane without its rails has no clock and no signal for as long as it takes (R226). -/
def brownout (r : Rail) (s : State) : State :=
  match r with
  | .vcfg => wideReset true 4 s
  | .vaux => wideReset true 4 s
  | .vmem => if s.pwr.state = 2 ∨ s.pwr.state = 3 ∨ s.pwr.reset = 2 then s else wideReset false 4 s
  | .vcore =>
    if s.pwr.state = 0 ∨ s.pwr.state = 1 then
      notifyPorts 0x02 0 [Config.itemCode 2 0] allPorts (fabricCmd 1 s)
    else s
  | .vlane => forEach allPorts (fun p s => leaveActive p 2 (s.onPort p (fun x => { x with locked := 0 }))) (forEach (List.range 64) (fun n s => lockLost n 64 s) s)
/-- RAIL_BROWNOUT (R578). -/
def execRailBrownout (rail : Rail) (s : State) : Host.Outcome State Fault Refusal := .next (brownout rail s)

end Sys2Proof.Machine
end

