-- ==== Sys2Proof/Machine/Read.lean ====
section
/-! DEFINITION. Read: what a read of a register answers (R18, R19, R21): who may read it, the value of a register that is a view
of structured state, and the reads that latch. -/
namespace Sys2Proof.Machine

/-! ## Rights (R92, R148, R193, R248, R287, R332, R367, R438, R480, R528, R551, R571, R598, R617) -/

/-- Whether a lane has a channel whose spool port `p` holds (R248). -/
def laneReach (s : State) (p n : Nat) : Bool := (List.range 32).any (fun i => mayReach s p (32 * n + i))
/-- The registers that every port may read. -/
def openReg : Reg → Bool
  | .fabStatus | .fabCollideCount | .fabParityCount | .fabRailCount | .fabQfaultCount | .fabXingUnstable | .fabXingOverrun => true
  | .fabXingPeer | .fabTileStat | .fabTileRamerr => true
  | .plyStatus | .plyWeight | .plyTornCount | .plyRangeCount | .plyUnsupCount | .plyRefuseLost | .plyHoldFullCount => true
  | .dstStatus | .dstPolicy | .dstThresh | .dstCap | .dstMigCount | .dstAbortCount | .dstSwapCount => true
  | .dstInstStat | .dstInstPlace | .dstInstPressure | .dstTileMap => true
  | .timeStatus | .timeNowLo | .timeRefCount => true
  | .splStatus | .splMtInserts | .splMtEvicts | .splMtLookups | .splMtMisses | .splMtSwept => true
  | .memStatus | .memTestStat | .memGrpCorr | .memGrpUncorr | .memGrpRepair | .memGrpFailed => true
  | .pinStatus | .hlkStatus => true
  | .cfgStatus | .cfgDesign | .cfgPdesign | .cfgPartials | .cfgHash => true
  | .scrubStatus | .scrubCfg | .scrubPassCount | .scrubCorrCount | .scrubEssCount | .scrubUncorrCount | .scrubVoteCount => true
  | .scrubBistCount | .scrubLastErr => true
  | .secStatus | .secSlot | .secSlotHash | .secDevid | .secIdMod | .secLedgerLost => true
  | .sysId | .sysResetCause | .sysLock | .pwrStatus | .pwrVlim | .pwrTemp => true
  | .obsStatus | .obsTraceCfg | .obsTraceWptr | .obsTraceDrop => true
  | _ => false
/-- Whether the region that is frozen or torn lies in a tenant's domain (R528). -/
def regionOf (s : State) (p : Nat) : Bool :=
  s.ldr.region.any (fun r => r.ranges.all (fun e => (List.range e.2).all (fun k => (tileDom s (e.1 + k)).val == p)))
/-- The rights of a tenant over a register (instance `i`) that not every port may read. -/
def tenantRead (s : State) (p : Nat) (r : Reg) (i : Nat) : Bool :=
  match r with
  | .plyDeniedCount | .memDomArea | .memDomDenied | .hlkLink | .hlkCrcErr | .hlkReplays | .hlkRetrains
  | .hlkDomCfg | .hlkDomQuota | .hlkDomPins | .hlkDomRange | .hlkDomSpool => i == p
  | .memConfLo | .memConfHi => i == 80 + p
  | .laneCfg | .laneStat | .laneSync | .laneEye | .laneChEn | .laneFeId | .laneFeEq | .laneBlkErr | .laneFrameErr
  | .laneEventErr | .laneOrder | .laneDisabled | .laneMissed | .laneRefused | .laneRetrains => laneReach s p i
  | .laneSub | .laneChMissed | .laneChRefused | .laneChQueue => mayReach s p i
  | .splCfg | .splStat | .splWptrLo | .splWptrHi | .splLiveLo | .splLiveHi | .splSlot | .splGaps | .splLappedReq
  | .splResizeLost => mayReach s p i
  | .timeSenseCfg | .timeSenseSub | .timeSenseMissed | .timeSenseGlitch => mayReach s p (2048 + i)
  | .timeQdCfg | .timeQdCount | .timeQdLastCnt | .timeQdLastLo | .timeQdLastHi | .timeQdSub | .timeQdErrcnt
  | .timeQdCmd => qdReach s p i
  | .pinBankCfg | .pinBankStat | .pinIn | .pinOut | .pinSet | .pinClr | .pinTgl | .pinDir | .pinPend | .pinEvtLost
  | .pinEvtRefused | .pinGwIgnored => bankBit s p i
  | .pinCfg | .pinEvt | .pinStat | .pinArm => bankBit s p (bankOfPin i)
  | .pwmCfg | .pwmPeriod | .pwmDuty | .pwmStat => unitReach s p 3 i
  | .spiCfg | .spiCmd | .spiStat | .spiData => unitReach s p 5 i
  | .i2cCfg | .i2cCmd | .i2cStat | .i2cData => unitReach s p 6 i
  | .cfgErr | .cfgErrOffset | .cfgErrAddr | .cfgWords => s.ldr.loadPort.val == p
  | .cfgPhash => s.ldr.phashPort.val == p
  | .cfgRegion => regionOf s p
  | .obsProbeSrc | .obsProbeStat | .obsProbeLast => i / 4 == p
  | .obsCntSrc | .obsCntLo | .obsCntHi => i / 128 == p
  | r => (regDesc r).perPort && !ownerCopy r
/-- Whether port `p` may read a register. -/
def mayRead (s : State) (p : Nat) (r : Reg) (i : Nat) : Bool := p == 0 || openReg r || tenantRead s p r i

/-! ## Values of views -/

/-- SYS_ID (R599). -/
def sysIdWord : Word := w32 (0x40960000 + place 8 8 Config.maskStep.toNat)
/-- STATE of CFG_STATUS (R529): from the last word of a full image on, steps 7 and 8 of R507, it reads FINISHING. -/
def loadState (s : State) : Nat :=
  match s.ldr.load with
  | some l => if s.ldr.state = 1 ∧ l.img.length = imgLen l ∧ !l.partial_ then 3 else s.ldr.state.toNat
  | none => s.ldr.state.toNat
/-- CFG_STATUS (R529). -/
def cfgStatus (s : State) : Word :=
  let l := s.ldr
  let region := match l.region with
    | none => 0
    | some r => if r.torn then 2 else 1
  w32 (place 28 4 (loadState s) + place 26 2 l.source.toNat + place 24 2 l.mode.toNat + place 23 1 (b2n l.modeRsvd) +
    place 22 1 (b2n l.signed) + place 21 1 (b2n l.encrypted) + place 20 1 (b2n (forwarding s)) + place 18 2 region +
    place 16 2 l.loadPort.val)
/-- CFG_REGION0–7 (R534). -/
def cfgRegion (s : State) (k : Nat) : Word :=
  match s.ldr.region.bind (fun r => r.ranges[k]?) with
  | some (b, n) => w32 (place 31 1 1 + place 12 12 b + place 0 12 n)
  | none => 0
/-- SCRUB_STATUS (R552). -/
def scrubStatus (s : State) : Word :=
  let retiring := match s.sec.fuseOp with
    | some (.retire _ _) => true
    | _ => false
  let pos := if s.scrub.state ≠ 0 ∧ s.scrub.pos < passFrames then passFrame s.scrub.pos else 0
  w32 (place 30 2 s.scrub.state.toNat + place 29 1 (b2n s.dst.test.isSome) + place 28 1 (b2n retiring) + place 0 18 pos)
/-- SCRUB_RET_ENTRY for the selection of port `p` (R552). -/
def retEntry (s : State) (p : Nat) : Word :=
  let v := s.regP p .scrubRetSel 0 0
  let k := fld v 7 0
  if bitOf v 8 then
    match s.sec.fuses.retired[k]? with
    | some t => w32 (place 31 1 1 + place 28 3 4 + place 0 12 t)
    | none => 0
  else
    match s.dst.retRt[k]? with
    | some e => w32 (place 31 1 1 + place 28 3 e.cause.toNat + place 0 12 e.tile)
    | none => 0
/-- SEC_STATUS (R572). -/
def secStatus (s : State) : Word :=
  w32 (secWord s + place 24 1 (b2n (secState s != 0)) + place 23 1 (b2n (!s.sec.reports.isEmpty)) +
    place 22 1 (b2n (fuseBusy s)) + place 21 1 (b2n s.sec.ledWait))
/-- SEC_SLOT0–2 (R574). -/
def secSlotWord (s : State) (k : Nat) : Word :=
  w32 (place 31 1 (b2n (s.sec.fuses.slots.find k).isSome) + place 30 1 (b2n (s.sec.fuses.revoked.contains k)))
/-- Word `j` of a slot's hash. -/
def slotHash (s : State) (k j : Nat) : Word := (wordsOfBytes ((s.sec.fuses.slots.find k).getD [])).getD j 0
/-- The islands whose clock R389 lets stop as they are configured: no unit's pin in a bank, background tests off, no probe and
no counter enabled. -/
def mayStop (s : State) : List (Nat × Nat) :=
  allPorts.map (fun p => (2, p)) ++
    (((List.range 8).filter (fun b => (bankPins b).all (fun p => let f := pinFunc s p; (f == 0 || f == 1 || f == 2 || f == 7)))).map
      (fun b => (4, b))) ++
    (if bitOf (s.reg .memCtl 0) 31 then [] else [(3, 0)]) ++
    (if (List.range 512).all (fun k => s.reg .obsCntSrc k == 0) && (List.range 16).all (fun j => s.reg .obsProbeSrc j == 0)
      then [(7, 0)] else [])
/-- Idle (R579): every island that may stop is stopped, every tile in use is quiescent. -/
def partIdle (s : State) : Bool :=
  (mayStop s).all (fun e => s.xng.stopped.contains (64 * e.1 + e.2)) && (physTiles s (fun _ => true)).all (tileQuiet s)
/-- The state that PWR_STATUS reports (R579). -/
def pwrState (s : State) : Nat :=
  if s.pwr.state = 2 ∧ s.pwr.entering.isSome then 4
  else if s.pwr.state = 0 && s.fab.released && partIdle s then 1 else s.pwr.state.toNat
/-- PWR_STATUS (R601). -/
def pwrStatus (s : State) : Word :=
  w32 (place 28 4 (pwrState s) + place 16 10 s.pwr.vcore + place 8 8 (hottest s) + place 2 1 (b2n s.pwr.shortfall) +
    place 1 1 (b2n s.pwr.pmbFault) + place 0 1 (b2n s.pwr.regFault))
/-- PWR_TEMP0–15 (R601). -/
def pwrTemp (s : State) (j : Nat) : Word :=
  (wordsOfBytes (((sensors s).map (BitVec.ofNat 8)).drop (4 * j) |>.take 4)).headD 0
/-- The step of R172 in progress. -/
def migStep (s : State) : Nat :=
  match s.dst.mig with
  | none => 0
  | some m => stepOf m
/-- DST_STATUS (R194). -/
def dstStatus (s : State) : Word :=
  let free := ((List.range 4096).filter (freeTile s)).length
  let gone := ((List.range 4096).filter (retired s)).length
  w32 (place 16 13 free + place 8 8 (min gone 255) + place 4 4 (migStep s) +
    place 3 1 (b2n (s.spl.spools.any (fun e => e.2.swap.isSome))) + place 2 1 (b2n (capped s)) +
    place 1 1 (b2n (s.ldr.cfgDone || s.ldr.load.any (fun l => l.placed && !l.partial_))) + place 0 1 (b2n s.dst.mig.isSome))
/-- The tile or instance that a selection register of the DST block names for port `p`. -/
def selOfDst (s : State) (p : Nat) (r : Reg) : Nat := fld (s.regP p r 0 0) 11 0
/-- DST_INST_STAT (R203). -/
def instStat (s : State) (i : Inst) : Word :=
  w32 (place 31 1 1 + place 30 1 (b2n i.pinned) + place 29 1 (b2n i.unmovable) + place 28 1 (b2n i.nomove) +
    place 27 1 (b2n (s.dst.mig.any (fun m => m.base == i.base))) + place 26 1 (b2n i.pressure) + place 25 1 (b2n i.failing) +
    place 24 1 (b2n i.damaged) + place 22 2 (instDom s i) + place 20 2 (i.w - 1) + place 18 2 (i.h - 1) +
    place 12 4 i.lastReason.toNat + place 0 12 i.base)
/-- DST_INST_PLACE (R204). -/
def instPlace (s : State) (i : Inst) : Word :=
  w32 (place 24 8 (min i.migrations 255) + place 16 8 (fld (mapEnt s i.base) 27 20) + place 6 6 i.col + place 0 6 i.row)
/-- DST_INST_PRESSURE (R205). -/
def instPressure (i : Inst) : Word := w32 (place 16 16 (min i.p 65535) + place 8 8 (min i.theta 255) + place 0 8 (min i.eta 255))
/-- PLY_STATUS (R149). -/
def plyStatus (s : State) : Word :=
  let held := (s.ply.hold.filter (fun e => !e.2.pkts.isEmpty)).length
  let fences := (s.dst.insts.filter (fun i => fenced s i.base)).length
  let draining := s.dst.mig.any (fun m => m.step == 2 &&
    (match instAt s m.base with
     | some i => !drained s (instTiles i)
     | none => false))
  w32 (place 16 13 held + place 8 8 (min fences 255) + b2n draining)
/-- PLY_WEIGHT (R150). -/
def plyWeight (s : State) : Word :=
  w32 (place 15 5 (weightOf s 3) + place 10 5 (weightOf s 2) + place 5 5 (weightOf s 1) + place 0 5 (weightOf s 0))
/-- FAB_STATUS (R93). -/
def fabStatus (s : State) : Word :=
  w32 (place 8 8 (min s.fab.held.length 255) + place 2 1 (b2n s.ldr.region.isSome) + place 1 1 (b2n s.fab.released) +
    b2n s.fab.frozen)
/-- FAB_COLLIDE_LAST (R95): whether the recorded wire is still held. -/
def collideLast (s : State) : Word :=
  let v := s.reg .fabCollideLast 0
  putBit v 30 (bitOf v 31 && s.fab.held.contains (wireId (tileAt (fld v 16 11) (fld v 10 5)) (8 * fld v 4 3 + fld v 2 0)))
/-- Whether the loaded image uses a logical tile: one is mapped, or its region is frozen or torn (R99, R520). -/
def usedTile (s : State) (l : Nat) : Bool := mapped s l || tileFrozen s l
/-- FAB_TILE_STAT of a logical tile (R99); one that no instance of a frozen region maps reads frozen and at rest (R89). -/
def fabTileStat (s : State) (l : Nat) : Word :=
  if !mapped s l then w32 (place 12 1 1 + place 11 1 1) else
  let t := physOf s l
  let x := tileSt s t
  w32 (place 26 6 x.q1.items.length + place 20 6 x.q0.items.length + place 12 1 (b2n (s.fab.frozen || tileFrozen s l)) +
    place 11 1 (b2n (tileQuiet s t)) + place 10 1 (b2n (collides s t)) + place 9 1 (b2n x.ramPerr) + place 8 1 (b2n x.railErr) +
    place 7 1 (b2n x.mergeBoth) + place 5 1 (b2n x.q1.ovr) + place 4 1 (b2n x.q0.ovr))
/-- FAB_TILE_RAMERR of a logical tile (R100). -/
def fabTileRamerr (s : State) (l : Nat) : Word :=
  match mapped s l, (tileSt s (physOf s l)).ramErr with
  | true, some a => w32 (place 31 1 1 + a.toNat)
  | _, _ => 0
/-- MEM_GRP_REPAIR (R374): the spare regions in use in a group's banks. -/
def grpRepair (s : State) (g : Nat) : Word :=
  w32 ((List.range 16).foldl (fun a k => a + s.memory.spares.get 0 (16 * g + k)) 0)
/-- LANE_STATUS (R249). -/
def laneStatus (s : State) : Word :=
  let run := ((List.range 64).filter (fun n => (lane s n).state == 3)).length
  w32 (place 15 1 (b2n (trainingLane s).isSome) + place 8 6 ((trainingLane s).getD 0) + place 0 7 run)
/-- LANE_RUN_LO and LANE_RUN_HI (R250). -/
def laneRun (s : State) (h : Nat) : Word :=
  (List.range 32).foldl (fun w i => putBit w i ((lane s (32 * h + i)).state == 3)) 0
/-- LANE_STAT (R255). -/
def laneStat (s : State) (n : Nat) : Word :=
  let x := lane s n
  w32 (place 28 4 x.state.toNat + place 24 4 (if x.state = 2 then x.step else x.failStep).toNat + place 20 4 x.cause.toNat +
    place 16 4 x.attempt.toNat + place 4 1 (b2n x.eyeLow) + place 3 1 (b2n x.syncRange) + place 2 1 (b2n x.syncLost) +
    place 1 1 (b2n x.lock) + b2n x.cdr)
/-- LANE_SYNC (R256). -/
def laneSync (s : State) (n : Nat) : Word :=
  let x := lane s n
  w32 (place 16 13 x.corr.toNat + place 13 3 x.seq.toNat + x.echo.toNat)
/-- LANE_CH_QUEUE (R263). -/
def chQueue (s : State) (c : Nat) : Word := w32 (place 16 7 (chan s c).peak + place 0 7 (chan s c).q.items.length)
/-- TIME_STATUS (R288). -/
def timeStatus (s : State) : Word :=
  let x := s.time
  w32 (place 4 1 (b2n x.wrapNear) + place 3 1 (b2n (x.locked && bitOf (s.reg .timeTbsync 0) 31)) + place 2 1 (b2n x.holdover) +
    place 1 1 (b2n x.refLost) + b2n x.locked)
/-- PIN_STATUS (R439). -/
def pinStatus (s : State) : Word :=
  w32 (place 8 8 (s.pins.viobOk.foldl (fun a b => a + 2 ^ b) 0) + b2n (s.pins.pins.any (fun e => e.2.conflict)))
/-- Whether an island's clock runs: no clock runs in a full or power-on reset (notes/assumptions/69.md), and a stopped one does not
(R389). -/
def clockRuns (s : State) (isl : Nat) : Bool := s.pwr.reset == 0 && !s.xng.stopped.contains isl
/-- PIN_BANK_STAT (R440). -/
def pinBankStat (s : State) (b : Nat) : Word :=
  w32 (place 2 1 (b2n (bitOf s.pins.pulldef b)) + place 1 1 (b2n (clockRuns s (256 + b))) + b2n (viobOk s b))
/-- PIN_STAT (R442). -/
def pinStat (s : State) (p : Nat) : Word :=
  let x := pinSt s p
  let d := drive s p
  w32 (place 6 1 (b2n x.conflict) + place 5 1 (b2n x.armed) + place 4 1 (b2n (bitOf (s.reg .pinStat p) 4)) + place 2 1 (b2n d.2) +
    place 1 1 (b2n d.1) + b2n (pinLevel s p))
/-- PWM_STAT (R443). -/
def pwmStat (s : State) (c : Nat) : Word :=
  w32 (place 31 1 (b2n (pwm s c).pending) + place 0 24 (if (pwm s c).running then pwmPhase s c else 0))
/-- HLK_STATUS as port `p` reads it (R481). -/
def hlkStatus (s : State) (p : Nat) : Word :=
  w32 (place 28 4 (port s 3).state.toNat + place 24 4 (port s 2).state.toNat + place 20 4 (port s 1).state.toNat +
    place 16 4 (port s 0).state.toNat + place 0 2 p)
/-- HLK_LINK (R484). -/
def hlkLink (s : State) (p : Nat) : Word :=
  let x := port s p
  w32 (place 28 4 x.state.toNat + place 24 4 x.cause.toNat + place 20 4 x.locked.toNat)
/-- HLK_DOM_PINS (R485): of domain 0 the banks that no tenant holds. -/
def domPins (s : State) (d : Nat) : Word :=
  if d = 0 then ~~~(s.reg .hlkDomPins 1 ||| s.reg .hlkDomPins 2 ||| s.reg .hlkDomPins 3) &&& 0xFF else s.reg .hlkDomPins d
/-- HLK_DOM_SPOOL (R485): of domain 0 the spools that no tenant holds. -/
def domSpool (s : State) (d j : Nat) : Word :=
  let w (e : Nat) : Word := s.regP 0 .hlkDomSpool e j
  if d = 0 then ~~~(w 1 ||| w 2 ||| w 3) else w d
/-- OBS_STATUS (R617). -/
def obsStatus (s : State) : Word :=
  w32 ((List.range 16).foldl (fun a j => if s.reg .obsProbeSrc j = 0 then a else a + 2 ^ (16 + j)) 0 +
    place 1 1 (b2n s.obs.full) + b2n (clockRuns s 448))
/-- OBS_UTIL of the router that port `p` selects (R608). -/
def obsUtil (s : State) (p : Nat) : Word :=
  let r := fld (s.regP p .obsUtilSel 0 0) 11 0
  let u (side : Nat) : Nat := s.ply.util.get 0 (5 * r + side)
  w32 (place 24 8 (u 0) + place 16 8 (u 1) + place 8 8 (u 2) + place 0 8 (u 3))

/-- BATCH_STAT.COUNT (R486): the entries staged, those under check among them. -/
def batchCount (s : State) (p : Nat) : Nat :=
  (batchOf s p).staged.length + (((batchOf s p).checking).map (fun x => x.1.length)).getD 0

/-- The pin whose PIN_CFG and PIN_EVT a pin reads: of an LVDS pair, the P side's (R406). -/
def cfgPin (s : State) (i : Nat) : Nat := if pairedOdd s i then i - 1 else i
/-- The value that port `p` reads of a register. -/
def regValue (s : State) (p : Nat) (r : Reg) (i j : Nat) : Word :=
  match r with
  | .sysId => sysIdWord
  | .batchStat => s.regP p .batchStat 0 0 ||| w32 (batchCount s p)
  | .cfgStatus => cfgStatus s
  | .cfgRegion => cfgRegion s i
  | .scrubStatus => scrubStatus s
  | .scrubRetEntry => retEntry s p
  | .scrubFuseStat => s.reg .scrubFuseStat 0 ||| w32 s.sec.fuses.retired.length
  | .secStatus => secStatus s
  | .secSlot => secSlotWord s i
  | .secSlotHash => slotHash s i j
  | .secLedgerFree => w32 (ledgerFree s)
  | .secDevid => (wordsOfBytes deviceId).getD i 0
  | .secIdMod => identityModulus i
  | .pwrStatus => pwrStatus s
  | .pwrTemp => pwrTemp s i
  | .dstStatus => dstStatus s
  | .dstInstStat => ((instAt s (selOfDst s p .dstInstSel)).map (instStat s)).getD 0
  | .dstInstPlace => ((instAt s (selOfDst s p .dstInstSel)).map (instPlace s)).getD 0
  | .dstInstPressure => ((instAt s (selOfDst s p .dstInstSel)).map instPressure).getD 0
  | .dstTileMap => mapEnt s (selOfDst s p .dstTileSel)
  | .plyStatus => plyStatus s
  | .plyWeight => plyWeight s
  | .fabStatus => fabStatus s
  | .fabCollideLast => collideLast s
  | .fabTileStat => fabTileStat s (fld (s.regP p .fabTileSel 0 0) 11 0)
  | .fabTileRamerr => fabTileRamerr s (fld (s.regP p .fabTileSel 0 0) 11 0)
  | .memStatus => memStatus s
  | .memGrpRepair => grpRepair s i
  | .splStatus => splStatus s
  | .splCfg => w32 (spoolOf s i).size
  | .splStat => splStat s i
  | .splSlot => splSlotWord s i j
  | .laneStatus => laneStatus s
  | .laneRun => laneRun s i
  | .laneStat => laneStat s i
  | .laneSync => laneSync s i
  | .laneChQueue => chQueue s i
  | .timeStatus => timeStatus s
  | .timeQdCount => (qd s i).count
  | .pinStatus => pinStatus s
  | .pinBankStat => pinBankStat s i
  | .pinIn => (bankWords i (pinLevel s)).getD j 0
  | .pinStat => pinStat s i
  | .pinCfg => s.reg .pinCfg (cfgPin s i)
  | .pinEvt => s.reg .pinEvt (cfgPin s i)
  | .pwmStat => pwmStat s i
  | .spiCfg => putBit (s.reg .spiCfg i) 30 (laneHolds s i)
  | .hlkStatus => hlkStatus s p
  | .hlkLink => hlkLink s i
  | .hlkDomPins => domPins s i
  | .hlkDomRange => if i = 0 then 0 else s.regP 0 .hlkDomRange i j
  | .hlkDomSpool => domSpool s i j
  | .obsStatus => obsStatus s
  | .obsUtil => obsUtil s p
  | .obsUtilMax => s.ply.utilMax
  | .obsProbeLast => (probe s i).last.getD j 0
  | r => s.regP p r i j

/-! ## The read -/

/-- A tenant's copy of a selection names a tile of its domain (R98, R193). -/
def selMine (s : State) (p t : Nat) : Status := allow (p == 0 || tileDom s t == p)
/-- What a read that latches nothing answers. -/
def readStatus (s : State) (p : Nat) (r : Reg) (i : Nat) : Status :=
  let inst := selOfDst s p .dstInstSel
  let tile := fld (s.regP p .fabTileSel 0 0) 11 0
  firstBad [allow (mayRead s p r i),
    match r with
    | .dstInstStat | .dstInstPlace | .dstInstPressure => firstBad [selMine s p inst, within (instAt s inst).isSome]
    | .dstTileMap => selMine s p (selOfDst s p .dstTileSel)
    | .fabTileStat | .fabTileRamerr => firstBad [selMine s p tile, within (usedTile s tile)]
    | _ => stOk]
/-- Whether a register shows the sensors' readings. -/
def showsTemp (r : Reg) : Bool := r == .pwrTemp || r == .pwrStatus
/-- A read of a register that latches nothing. What a pin drives may be a free value, which the next look does not repeat. One
served from the sensors while their samples disagree completes with FAULT and the values accepted last (R384). -/
def plainRead (p : Nat) (r : Reg) (i j : Nat) (s : State) : State :=
  let st := readStatus s p r i
  s.nextFree.finish (if st = stOk && showsTemp r && unstable s 6 0 then stFault else st) [if st = stOk then regValue s p r i j else 0]
/-- The island that a register access crosses into (R378): reel memory's, a lane's, a pin bank's or observation's; none where that
side's clock never stops, and for the registers that report whether a clock runs (CLK_RUN, R440, R617). -/
def regIsland (r : Reg) (i : Nat) : Option (Nat × Nat) :=
  match r.block with
  | 9 => some (3, 0)
  | 10 => some (3, 0)
  | 11 =>
    match r with
    | .laneSub | .laneChMissed | .laneChRefused | .laneChQueue => some (1, i / 32)
    | .laneCfg | .laneStat | .laneSync | .laneEye | .laneChEn | .laneFeId | .laneFeEq | .laneBlkErr | .laneFrameErr
    | .laneEventErr | .laneOrder | .laneDisabled | .laneMissed | .laneRefused | .laneRetrains => some (1, i)
    | _ => none
  | 13 =>
    match r with
    | .pinCfg | .pinEvt | .pinStat | .pinArm => some (4, bankOfPin i)
    | .pinBankCfg | .pinIn | .pinOut | .pinSet | .pinClr | .pinTgl | .pinDir | .pinPend | .pinEvtLost
    | .pinEvtRefused | .pinGwIgnored => some (4, i)
    | _ => none
  | 15 => if r = .obsStatus then none else some (7, 0)
  | _ => none
/-- A register access reaches its block; an island whose clock is stopped wakes for it (R390). -/
def toBlock (r : Reg) (i : Nat) (s : State) : State :=
  match regIsland r i with
  | some (a, b) => wakeIsl a b s
  | none => s
/-- A read of a register by port `p` at an address: 0 with UNSUPPORTED where it is not aligned (R38), with RANGE where no chapter
assigns the offset (R21). -/
def readReg (p : Fin 4) (a : Nat) (s : State) : State :=
  if a % 4 ≠ 0 then s.finish stUnsupported [0] else
  match regAt a with
  | none => s.finish stRange [0]
  | some (r, i, j) =>
    let act (s : State) : State :=
      match r with
      | .memConfLo => confRead p i s
      | .secLedgerSeqLo => seqRead p s
      | .timeNowLo => nowRead p s
      | .timeQdLastCnt => qdLastRead p i s
      | .obsCntLo => cntLoRead p i s
      | .splWptrLo => wptrRead p i s
      | .splLiveLo => liveRead p i s
      | r => plainRead p r i j s
    if servedBlock r.block then act s else servedRead (fun s => act (toBlock r i s)) s

end Sys2Proof.Machine
end

