-- ==== Sys2Proof/Machine/Batch.lean ====
section
/-! DEFINITION. Batch: settings batches — staging, the check, acceptance for a commit tick, discarding and applying (R158, R273,
R351, R471–R474, R485, R486, R526). -/
namespace Sys2Proof.Machine

/-- Whether port `p` may write a register at all, be it a write that R19 ignores. -/
def mayTouch (s : State) (p : Nat) (r : Reg) (i : Nat) : Bool :=
  mayWrite s p r i || (!hasSetting r && (r.block == 12 || r.block == 13 || r.block == 15) && tenantRead s p r i)

/-! ## Staging -/

/-- The batches of a port that are accepted and not applied. -/
def pendingOf (s : State) (p : Nat) : List PBatch := s.host.accepted.filter (fun b => b.port.val == p)
/-- BATCH_DATA (R471): the entry is appended. -/
def batchData (p : Fin 4) (v : Word) (s : State) : State :=
  let x := batchOf s p
  if x.checking.isSome then s.stat stBusy
  else if 1024 ≤ x.staged.length then s.stat stRange
  else (batchState p 1 (s.setBatch p { x with staged := x.staged ++ [(s.regP p .batchAddr 0 0, v)] })).stat stOk
/-- BATCH_DATA_WRITE (R471). -/
def execBatchDataWrite (port : Fin 4) (val : Word) (s : State) : Host.Outcome State Fault Refusal :=
  .next (served (batchData port val) s)
/-- COMMIT, or COMMIT_AT with the tick that it names (R472–R474): the check begins. -/
def beginCheck (p : Fin 4) (at_ : Option Tick) (s : State) : State :=
  let x := batchOf s p
  if x.checking.isSome ∨ 2 ≤ (pendingOf s p).length then s.stat stBusy
  else (batchState p 2 (s.setBatch p { staged := [], checking := some (x.staged, at_) })).stat stOk
/-- COMMIT (R472). -/
def execCommit (port : Fin 4) (s : State) : Host.Outcome State Fault Refusal := .next (served (beginCheck port none) s)
/-- The tick that BATCH_AT_LO and BATCH_AT_HI name (R473). -/
def atTick (s : State) (p : Nat) : Tick :=
  BitVec.ofNat 64 ((fld (s.regP p .batchAtHi 0 0) 15 0 * 2 ^ 32 + (s.regP p .batchAtLo 0 0).toNat) * 65536)
/-- COMMIT_AT (R473). -/
def commitAt (p : Fin 4) (s : State) : State := beginCheck p (some (atTick s p)) s
/-- COMMIT_AT (R473). -/
def execCommitAt (port : Fin 4) (s : State) : Host.Outcome State Fault Refusal := .next (served (commitAt port) s)
/-- DISCARD (R474): the check is abandoned, else what is pending is withdrawn, else what is staged is dropped. -/
def discard (p : Fin 4) (s : State) : State :=
  let x := batchOf s p
  if x.checking.isSome then (batchState p 6 (s.setBatch p { x with checking := none })).stat stOk
  else if !(pendingOf s p).isEmpty then (batchState p 6 (dropPending p s)).stat stOk
  else if !x.staged.isEmpty then (batchState p 6 (s.setBatch p { x with staged := [] })).stat stOk
  else s.stat stOk
/-- DISCARD (R474). -/
def execDiscard (port : Fin 4) (s : State) : Host.Outcome State Fault Refusal := .next (served (discard port) s)

/-! ## Entries -/

/-- Whether an entry names a descriptor register. -/
def isDescEntry (e : Word × Word) : Bool :=
  match regAt e.1.toNat with
  | some (r, _, _) => isDesc r
  | none => false
/-- What an entry answers (R471, R472, R485): as a direct write from the port would; `direct` says what one of a register without settings
answers. -/
def entryStatus (direct : State → Reg → Nat → Nat → Word → Status) (s : State) (p : Nat) (e : Word × Word) : Status :=
  if e.1.toNat % 4 ≠ 0 then stUnsupported else
  match regAt e.1.toNat with
  | none => stRange
  | some (r, i, j) =>
    if isDesc r then
      if p ≠ 0 then stDenied
      else within (i != 0 || r == .hlkDomCfg || r == .hlkDomQuota)
    else if hasSetting r then settingStatus s p r i j e.2
    else direct s r i j e.2
/-- The bits that a descriptor register holds (R485). -/
def descMask : Reg → Word
  | .hlkDomCfg => 0x1F
  | .hlkDomQuota => 0x1FFF
  | .hlkDomPins => 0xFF
  | .hlkDomRange => 0x80FFFFFF
  | _ => 0xFFFFFFFF
/-- An entry takes effect: of its register the RW and LCK fields (R471). -/
def applyEntry (p : Nat) (e : Word × Word) (s : State) : State :=
  match regAt e.1.toNat with
  | none => s
  | some (r, i, j) =>
    if isDesc r then putDesc r i j (e.2 &&& descMask r) s
    else if hasSetting r then putSetting p r i j e.2 s
    else s
/-- A batch's entries in order; no operation completes by it. -/
def applyEntries (p : Nat) (l : List (Word × Word)) (s : State) : State :=
  { forEach l (applyEntry p) s with done := s.done }

/-! ## The check (R472) -/

/-- The first entry that fails, with its index, and the state that the entries leave. -/
def checkEntries (direct : State → Reg → Nat → Nat → Word → Status) (p : Nat) : Nat → List (Word × Word) → State → Option (Status × Nat) × State
  | _, [], s => (none, s)
  | k, e :: t, s =>
    let st := entryStatus direct s p e
    if st = stOk then checkEntries direct p (k + 1) t (applyEntries p [e] s) else (some (st, k), s)
/-- The index of the last descriptor entry. -/
def lastDesc (l : List (Word × Word)) : Option Nat :=
  (List.range l.length).reverse.find? (fun k => (l[k]?).any isDescEntry)
/-- A data area overlaps a spool segment, also one at a swap's old or new position (R190, R351). -/
def areaOnSegs (s : State) : Bool :=
  (List.range 4).any (fun d => let (b, n) := areaOf s d
                              s.spl.spools.any (fun e => (e.2.segs ++ swapSegs e.2).any (fun u => decide (b ≤ u ∧ u < b + n))))
/-- A weight that the batch writes lies outside 1–16. -/
def badWeights (s : State) (l : List (Word × Word)) : Bool :=
  (List.range 4).any (fun d => l.any (fun e => e.1.toNat == Reg.hlkDomCfg.addr d 0) && !weightOk (s.reg .hlkDomCfg d))
/-- The logical tiles that may not change domain: those of the instance in migration and of the region (R472, R526). -/
def stuckTiles (s : State) : List Nat :=
  (match s.dst.mig.bind (fun m => instAt s m.base) with
   | some i => (List.range (i.w * i.h)).map (fun k => i.base + k)
   | none => []) ++
  (match s.ldr.region with
   | some r => r.ranges.flatMap (fun e => (List.range e.2).map (fun k => e.1 + k))
   | none => [])
/-- An object that moves or is frozen changes domain between two states. -/
def moving (a b : State) : Bool :=
  (stuckTiles a).any (fun t => tileDom a t != tileDom b t) ||
    a.spl.spools.any (fun e => e.2.slots.any (fun x => inRun x.2) && spoolDom a e.1 != spoolDom b e.1)
/-- What the descriptor entries answer together. -/
def consistency (a b : State) (l : List (Word × Word)) : Status :=
  if badWeights b l || (domBroken b b.dst.insts).isSome || areaOnSegs b then stRange
  else busyIf (moving a b)
/-- The state that a batch for tick `t` is checked against: every batch accepted for that tick or an earlier one is in. -/
def before (t : Tick) (s : State) : State :=
  forEach (s.host.accepted.filter (fun b => !tickLt t b.tick)) (fun b s => applyEntries b.port b.entries s) s
/-- The check of a batch for tick `t`: its status, and the index of the entry that failed. -/
def batchCheck (direct : State → Reg → Nat → Nat → Word → Status) (s : State) (p : Nat) (l : List (Word × Word)) (t : Tick) : Option (Status × Nat) :=
  let a := before t s
  match checkEntries direct p 0 l a with
  | (some f, _) => some f
  | (none, b) =>
    match lastDesc l with
    | none => none
    | some k => if consistency a b l = stOk then none else some (consistency a b l, k)
/-- The first commit tick whose cut-off has not passed (R473): 8,192 ticks or more from now. -/
def nextCommit (t : Tick) : Tick := BitVec.ofNat 64 ((t.toNat + 8192 + 65535) / 65536 * 65536)
/-- A batch fails (R472, R473): the entry is recorded where there is one. -/
def batchFails (p : Fin 4) (st : Status) (k : Option (Nat × Word)) (s : State) : State :=
  let s := batchStat p 5 st s
  let s := match k with
    | some (i, a) => (s.setRegP p .batchFail 0 0 (w32 (place 31 1 1 + i))).setRegP p .batchFailAddr 0 0 a
    | none => s
  notify 0xC5 p [w32 p, w32 st.toNat, w32 ((k.map (·.1)).getD 0)] s
/-- BATCH_CHECK_DONE (R472, R473): the batch is accepted for its tick, or fails. -/
def checkDone (direct : State → Reg → Nat → Nat → Word → Status) (p : Fin 4) (s : State) : State :=
  match (batchOf s p).checking with
  | none => s
  | some (l, at_) =>
    let s := s.setBatch p { batchOf s p with checking := none }
    let t := at_.getD (nextCommit s.now)
    match batchCheck direct s p l t with
    | some (st, k) => batchFails p st (some (k, (l.getD k (0, 0)).1)) s
    | none =>
      if tickLt t (s.now + 8192) then batchFails p stStale none s
      else
        batchStat p 3 stOk
          { s with host := { s.host with accepted := s.host.accepted ++ [{ port := p, entries := l, tick := t }] } }

/-! ## Apply (R273, R473) -/

/-- A batch is applied at tick `t`: STATUS is its result, STATE that of a check that runs, else of what is pending (R486). -/
def applyBatch (t : Tick) (b : PBatch) (s : State) : State :=
  let s := applyEntries b.port b.entries s
  let k := t.toNat / 65536
  let s := (s.setRegP b.port .batchDoneLo 0 0 (w32 k)).setRegP b.port .batchDoneHi 0 0 (w32 (k / 2 ^ 32))
  let s := batchStat b.port (if (batchOf s b.port).checking.isSome then 2 else if (pendingOf s b.port).isEmpty then 4 else 3) stOk s
  notify 0xC4 b.port [w32 b.port, w32 b.entries.length, w32 k, w32 (k / 2 ^ 32)] s
/-- The batches accepted for tick `t` are applied in order of acceptance. -/
def applyDue (t : Tick) (s : State) : State :=
  let due := s.host.accepted.filter (fun b => !tickLt t b.tick)
  let s := { s with host := { s.host with accepted := s.host.accepted.filter (fun b => tickLt t b.tick) } }
  forEach due (applyBatch t) s

end Sys2Proof.Machine
end

