-- ==== Sys2Proof/Machine/RegWrite.lean ====
section
/-! DEFINITION. RegWrite: what a write of a register does (R18–R23): the command registers, the write-one-to-clear records, and
every other register through Settings; and DOMAIN_RESET (R475). -/
namespace Sys2Proof.Machine

/-! ## Records that a 1 in VALID clears (R95, R153, R372, R403, R404, R486, R552) -/

/-- Clear the listed registers of port `p` where bit 31 is written 1. -/
def clearRecord (p : Nat) (l : List Reg) (v : Word) (s : State) : State :=
  if bitOf v 31 then forEach l (fun r s => s.setRegP p r 0 0 0) s else s
/-- The owner's record. -/
def ownerRecord (p : Nat) (l : List Reg) (v : Word) (s : State) : State := ownerOnly p (okAfter (clearRecord 0 l v)) s
/-- The logical tile that FAB_TILE_SEL of port `p` names (R98). -/
def fabSel (s : State) (p : Nat) : Nat := fld (s.regP p .fabTileSel 0 0) 11 0
/-- What a write of FAB_TILE_STAT or FAB_TILE_RAMERR answers (R98–R100). -/
def fabTileStatus (s : State) (p : Nat) : Status := firstBad [selMine s p (fabSel s p), within (usedTile s (fabSel s p))]
/-- A tile's flags that ones clear (R99). -/
def clearFlags (v : Word) (x : TileSt) : TileSt :=
  { x with ramPerr := x.ramPerr && !bitOf v 9, railErr := x.railErr && !bitOf v 8, mergeBoth := x.mergeBoth && !bitOf v 7,
           q1 := { x.q1 with ovr := x.q1.ovr && !bitOf v 5 }, q0 := { x.q0 with ovr := x.q0.ovr && !bitOf v 4 } }
/-- A write of FAB_TILE_STAT (R99). -/
def tileStatWrite (p : Nat) (v : Word) (s : State) : State :=
  checked [fabTileStatus s p] (fun s => if mapped s (fabSel s p) then s.onTile (physOf s (fabSel s p)) (clearFlags v) else s) s
/-- A write of FAB_TILE_RAMERR (R100). -/
def ramErrWrite (p : Nat) (v : Word) (s : State) : State :=
  checked [fabTileStatus s p] (fun s =>
    if bitOf v 31 && mapped s (fabSel s p) then s.onTile (physOf s (fabSel s p)) (fun x => { x with ramErr := none }) else s) s
/-- A write of PIN_STAT: OVR (R442). -/
def pinStatWrite (p i : Nat) (v : Word) (s : State) : State :=
  checked [pinAllow s p i] (fun s => s.putFields 0 .pinStat i 0 v) s

/-! ## Command registers: OP stands in [31:28]; 0 is one of the codes that each register's rule does not list, and starts nothing
(R18) -/

/-- BATCH_CMD (R486). -/
def batchCmd (p : Fin 4) (v : Word) (s : State) : State :=
  match fld v 31 28 with
  | 1 => beginCheck p none s
  | 2 => discard p s
  | 3 => commitAt p s
  | _ => s.stat stUnsupported
/-- CFG_LOAD_CMD (R533). -/
def cfgCmd (p : Fin 4) (v : Word) (s : State) : State :=
  match fld v 31 28 with
  | 1 => startFull p s
  | 2 => startPartial p s
  | 3 => abortLoad p s
  | 4 => clearRegion p s
  | _ => s.stat stUnsupported
/-- SCRUB_BIST_CMD (R547, R552). -/
def bistCmd (p : Fin 4) (v : Word) (s : State) : State :=
  match fld v 31 28 with
  | 1 => tileTest p v s
  | _ => ownerOnly p (fun s => s.stat stUnsupported) s
/-- SCRUB_FUSE_CMD (R549, R552). -/
def fuseCmd (p : Fin 4) (v : Word) (s : State) : State :=
  match fld v 31 28 with
  | 1 => fuseRetire p v s
  | _ => ownerOnly p (fun s => s.stat stUnsupported) s
/-- SEC_CMD (R572, R573). -/
def secCmd (p : Fin 4) (v : Word) (s : State) : State :=
  match fld v 31 28 with
  | 1 => takeOwnership p v s
  | 2 => programSlot p v s
  | 3 => revokeSlot p v s
  | 4 => sealPart p v s
  | 5 => advanceRollback p v s
  | 6 => attest p s
  | 7 => signHead p s
  | op => secCommand p op [stUnsupported] id s
/-- PWR_CMD (R586, R601). -/
def pwrCmd (p : Fin 4) (v : Word) (s : State) : State :=
  match fld v 31 28 with
  | 1 => doze p s
  | 2 => park p s
  | 3 => wake p s
  | _ => ownerOnly p (fun s => s.stat stUnsupported) s
/-- DST_CMD (R198, R199). -/
def dstCmd (p : Fin 4) (v : Word) (s : State) : State :=
  match fld v 31 28 with
  | 1 => dstPin p (fld v 11 0) true s
  | 2 => dstPin p (fld v 11 0) false s
  | 3 => dstMigrate p (fld v 11 0) s
  | 4 => dstRetire p s
  | 5 => dstUnretire p s
  | op => if dstBusy s p then s.stat stBusy else dstDone p op stUnsupported s
/-- MEM_TEST_CMD (R362, R370). -/
def memTestCmd (p : Fin 4) (v : Word) (s : State) : State :=
  match fld v 31 28 with
  | 1 => testStart p (fld v 7 4) (fld v 3 0) s
  | 2 => testStop p s
  | _ => ownerOnly p (fun s => s.stat stUnsupported) s
/-- SPL_CMD (R334). -/
def splCmdWrite (p : Fin 4) (v : Word) (s : State) : State := if bitOf v 31 then splGo p s else s.stat stOk
/-- LANE_CMD (R251). -/
def laneCmdWrite (p : Fin 4) (v : Word) (s : State) : State :=
  let n := fld v 5 0
  match fld v 31 28 with
  | 1 => cmdEnable p n s
  | 2 => cmdDisable p n s
  | 3 => cmdRetrain p n s
  | 4 => cmdIslandReset p n s
  | 5 => cmdFeRead p n s
  | 6 => cmdFeWrite p n s
  | op => laneCommand p op stUnsupported false id s
/-- LANE_CH_QUEUE (R263). -/
def chQueueWrite (p : Fin 4) (c : Nat) (v : Word) (s : State) : State :=
  if bitOf v 31 then clrPeak p c s else s.stat (allow (mayReach s p c))
/-- TIME_QD_CMD (R292). -/
def qdCmd (p : Fin 4) (q : Nat) (v : Word) (s : State) : State :=
  match fld v 31 28 with
  | 1 => qdSample p q s
  | 2 => qdClear p q s
  | _ => s.stat (if qdReach s p q then stUnsupported else stDenied)
/-- PIN_ARM (R442). -/
def pinArmWrite (p : Fin 4) (i : Nat) (v : Word) (s : State) : State :=
  if bitOf v 0 then pinArm p i s else s.stat (pinAllow s p i)
/-- HLK_PORT_CMD (R482). -/
def portCmd (p : Fin 4) (v : Word) (s : State) : State :=
  let t := fld v 1 0
  match fld v 31 28 with
  | 1 => portRetrain p t s
  | 2 => islandResetPort p t s
  | _ => s.stat (if mayPort p t = stOk then stUnsupported else stDenied)
/-- DOMAIN_RESET (R475, R482): of the owner for any domain, of a tenant for its own. -/
def resetDomain (p d : Nat) (s : State) : State :=
  checked [allow (p == 0 || p == d)] (orHold (1 + 4 * p + d) (domainReset p d)) s
/-- DOMAIN_RESET (R475). -/
def execDomainReset (port domain : Fin 4) (s : State) : Host.Outcome State Fault Refusal :=
  .next (served (resetDomain port domain) s)
/-- HLK_DOM_RESET (R482). -/
def domResetWrite (p : Fin 4) (v : Word) (s : State) : State :=
  let d := fld v 1 0
  if bitOf v 31 then resetDomain p d s else s.stat (allow (p.val == 0 || p.val == d))
/-- OBS_CTL (R606, R617). -/
def obsCtlWrite (p : Fin 4) (v : Word) (s : State) : State :=
  let s := s.putFields p .obsCtl 0 0 v
  if bitOf v 31 then snapAll s else s.stat stOk

/-! ## The write -/

/-- A write of a register that has no operation of its own: its settings take the value, or, where it has none, it stands (R19). -/
def plainWrite (p : Fin 4) (r : Reg) (i j : Nat) (v : Word) (s : State) : State :=
  if isDesc r then s.stat stDenied
  else if hasSetting r then settingWrite p r i j v s
  else s.stat (allow (mayTouch s p r i))
/-- A write of register `r` (instance `i`, `j`) by port `p`. -/
def writeOf (p : Fin 4) (r : Reg) (i j : Nat) (v : Word) (s : State) : State :=
  match r with
  | .sysReset => sysResetWrite p v s
  | .sysLock => sysLockWrite p v s
  | .batchData => batchData p v s
  | .batchCmd => batchCmd p v s
  | .batchFail => okAfter (clearRecord p [.batchFail, .batchFailAddr] v) s
  | .cfgLoadCmd => cfgCmd p v s
  | .cfgStream => streamWrite p v s
  | .scrubBistCmd => bistCmd p v s
  | .scrubFuseCmd => fuseCmd p v s
  | .scrubLastErr => ownerRecord p [.scrubLastErr] v s
  | .secCmd => secCmd p v s
  | .secLedgerAckLo => ledgerAck p v s
  | .secRecSelLo => recSel p v s
  | .pwrCmd => pwrCmd p v s
  | .plyLastRefusal => ownerRecord p [.plyLastRefusal, .plyLastRefusalAddr] v s
  | .pwrVlim => pwrVlimWrite p v s
  | .pwrTherm => pwrThermWrite p v s
  | .pwrWakeAtHi => pwrWakeAtWrite p v s
  | .dstCmd => dstCmd p v s
  | .fabQfaultLast => ownerRecord p [.fabQfaultLast] v s
  | .fabXingLast => ownerRecord p [.fabXingLast] v s
  | .fabTileStat => tileStatWrite p v s
  | .fabTileRamerr => ramErrWrite p v s
  | .memCtl => memCtlWrite p v s
  | .memTestCmd => memTestCmd p v s
  | .memErrAddr => ownerRecord p [.memErrAddr, .memErrInfo] v s
  | .splCmd => splCmdWrite p v s
  | .laneCmd => laneCmdWrite p v s
  | .laneCfg => laneCfgWrite p i v s
  | .laneChEn => laneChEnWrite p i v s
  | .laneSub => laneSubWrite p i v s
  | .laneChQueue => chQueueWrite p i v s
  | .pinOut => pinOutWrite p i (j == 1) v s
  | .timeQdCmd => qdCmd p i v s
  | .pinSet => pinSetBits p i (j == 1) v s
  | .pinClr => pinClrBits p i (j == 1) v s
  | .pinStat => pinStatWrite p i v s
  | .pinTgl => pinTglBits p i (j == 1) v s
  | .pinDir => pinDirWrite p i (j == 1) v s
  | .pinArm => pinArmWrite p i v s
  | .pinPend => pendClear p i (j == 1) v s
  | .pinCfg => pinCfgWrite p i v s
  | .pinEvt => pinEvtWrite p i v s
  | .pinBankCfg => bankCfgWrite p i v s
  | .pwmCfg => pwmCfgWrite p i v s
  | .hlkPortCmd => portCmd p v s
  | .pwmPeriod => pwmPeriodWrite p i v s
  | .pwmDuty => pwmDutyWrite p i v s
  | .spiCmd => spiCmd p i v s
  | .i2cCmd => i2cCmd p i v s
  | .hlkDomReset => domResetWrite p v s
  | .hlkNtfRptr => rptrWrite p v s
  | .obsCntSrc => cntSrcWrite p i v s
  | .obsProbeSrc => probeSrcWrite p i v s
  | .obsCtl => obsCtlWrite p v s
  | r => plainWrite p r i j v s
/-- What a direct write of a register answers: that of a batch's entry is checked as one (R472). A word that would wait for the loader
answers as one that it takes. -/
def directStatus (p : Fin 4) (s : State) (r : Reg) (i j : Nat) (v : Word) : Status := (writeOf p r i j v (s.stat stOk)).done.status
/-- BATCH_CHECK_DONE (R472). -/
def execBatchCheckDone (port : Fin 4) (s : State) : Host.Outcome State Fault Refusal := .next (checkDone (directStatus port) port s)
/-- A write of a register by port `p` at an address: UNSUPPORTED where it is not aligned (R38), RANGE where no chapter assigns the
offset (R21). -/
def writeReg (p : Fin 4) (a : Nat) (v : Word) (s : State) : State :=
  if a % 4 ≠ 0 then s.stat stUnsupported else
  match regAt a with
  | none => s.stat stRange
  | some (r, i, j) => if servedBlock r.block then writeOf p r i j v s else served (fun s => writeOf p r i j v (toBlock r i s)) s
/-- REGISTER_WRITE (R16–R23). -/
def execRegisterWrite (port : Fin 4) (addr val : Word) (s : State) : Host.Outcome State Fault Refusal :=
  .next (writeReg port addr.toNat val s)

end Sys2Proof.Machine
end

