-- ==== Sys2Proof/Machine/HostReq.lean ====
section
/-! DEFINITION. HostReq: RD and WR packets of a host port (R35, R38, R452, R460, R461): the access that each asks for and the
response that answers it. -/
namespace Sys2Proof.Machine

/-- ADDR of an RD or a WR. -/
def reqAddr (words : List DWord) : Nat := fld (words.headD 0) 31 0
/-- COUNT of an RD or a WR. -/
def reqCount (words : List DWord) : Nat := fld (words.headD 0) 40 32
/-- A register write that resets or retrains the port's own link: its RSP is sent before (R478, R595). -/
def cutsOwn (p addr : Nat) (v : Word) : Bool :=
  match regAt addr with
  | some (.hlkPortCmd, _, _) => (fld v 31 28 == 1 || fld v 31 28 == 2) && fld v 1 0 == p
  | some (.sysReset, _, _) => bitOf v 1
  | _ => false
/-- A register access (R38, R460); one that meets the absent crossing of the port's register path is discarded (R392). One that resets or
retrains the port's own link takes effect once its RSP is sent (R478). -/
def hostReg (p : Fin 4) (tag : Option Byte) (wr : Bool) (addr n : Nat) (bs : List Byte) (s : State) : State :=
  if pathAbsent s p.val 8 then formRsp p tag stStale (noBytes wr n) s
  else if n ≠ 4 ∨ addr % 4 ≠ 0 then formRsp p tag stUnsupported (noBytes wr n) s
  else if wr then
    let v := (wordsOfBytes bs).headD 0
    let t := writeReg p addr v s
    match tag with
    | some tg =>
      if t.done.status = stOk ∧ cutsOwn p addr v then queueRsp p { tag := tg, status := stOk, words := [], after := some (addr, v) } s
      else formRsp p tag t.done.status [] t
    | none => t
  else
    let s := readReg p addr s
    formRsp p tag s.done.status [(s.done.data.headD 0).setWidth 64] s
/-- The access that an RD or a WR asks for, by the address map of R35. -/
def hostAccess (p : Fin 4) (tag : Option Byte) (wr : Bool) (addr n : Nat) (bs : List Byte) (s : State) : State :=
  if addr < 0x61F00000 then
    if beforeRelease s then formRsp p tag stBusy (noBytes wr n) s
    else if addr < 0x60000000 then hostMem p tag wr addr n bs s
    else hostWin p tag wr addr n bs s
  else if 0x70000000 ≤ addr ∧ addr < 0x71000000 then hostReg p tag wr addr n bs s
  else formRsp p tag stRange (noBytes wr n) s
/-- An RD: its LEN is one data word (R452). -/
def hostRead (p : Fin 4) (tag : Option Byte) (words : List DWord) (s : State) : State :=
  if words.length ≠ 1 then formRsp p tag stRange [] s else hostAccess p tag false (reqAddr words) (reqCount words) [] s
/-- A WR: its LEN is one data word and those that hold COUNT bytes (R452). -/
def hostWrite (p : Fin 4) (tag : Option Byte) (words : List DWord) (s : State) : State :=
  let n := reqCount words
  if words.length ≠ 1 + (n + 7) / 8 then formRsp p tag stRange [] s
  else hostAccess p tag true (reqAddr words) n ((bytesOfDwords (words.drop 1)).take n) s

/-! ## The request queue (R455, R459) -/

/-- The requests of a port that have left its request queue and whose RSP is still to come. -/
def unanswered (s : State) (p : Nat) : Nat :=
  (s.memory.ops.filter (fun e => match e.2.src with
    | .host q (some _) => q.val == p
    | _ => false)).length + ((port s p).wins.filter (·.tag.isSome)).length + ((port s p).plyq.filter (·.2.isSome)).length
/-- The response queue of 64 has room for the RSP of one more request (notes/assumptions/88.md). -/
def rspRoom (s : State) (p : Nat) : Bool := decide ((port s p).rspq.items.length + unanswered s p < 64)
/-- A WR of CFG_STREAM, which waits while the loader takes no word (R517). -/
def isStream (words : List DWord) : Bool :=
  match regAt (reqAddr words) with
  | some (.cfgStream, _, _) => decide (0x70000000 ≤ reqAddr words ∧ reqAddr words < 0x71000000)
  | _ => false
/-- Whether a request may leave the request queue now. -/
def reqGoes (s : State) (p : Fin 4) : HReq → Bool
  | .word _ => !streamWaits s p
  | .wr _ words => rspRoom s p && !(isStream words && streamWaits s p)
  | _ => rspRoom s p
/-- A request is performed: an RSP of UNSUPPORTED answers one of a reserved TYPE (R452). -/
def doReq (p : Fin 4) (r : HReq) (s : State) : State :=
  match r with
  | .rd tag words => hostRead p tag words s
  | .wr tag words => hostWrite p tag words s
  | .ply tag arg words => hostPly p tag arg words s
  | .other tag => formRsp p tag stUnsupported [] s
  | .word v => streamWrite p v s
/-- The request at the head of a port's queue, if it may leave now. -/
def reqReady (s : State) (p : Fin 4) : Bool := (port s p).reqq.items.head?.any (reqGoes s p)
/-- It leaves the queue, one more REQ credit is granted (R455), and it is performed. -/
def grantReq (p : Fin 4) (s : State) : State :=
  let x := port s p
  match x.reqq.items with
  | [] => s
  | r :: _ =>
    if !x.reqq.ok then reqFault p [] s
    else
      let y := { x with reqq := x.reqq.pop 64 }
      let back := reqsHeld x - reqsHeld y
      let s := s.setPort p { y with reqCredit := y.reqCredit + back }
      doReq p r { s with host := { s.host with turn := some p.val } }
/-- The requests that may leave their queues do, one of a port at a time in rotation (R459); at most `n`. -/
def grantReqs : Nat → State → State
  | 0, s => s
  | n + 1, s =>
    match nextInTurn (allPorts.filter (fun p => reqReady s (Fin.ofNat 4 p))) s.host.turn with
    | some p => grantReqs n (grantReq (Fin.ofNat 4 p) s)
    | none => s
/-- What stands in the request queues. -/
def reqsWaiting (s : State) : Nat := (allPorts.map (fun p => (port s p).reqq.items.length)).sum
/-- Every request that may leave does. -/
def serveAll (s : State) : State := grantReqs (reqsWaiting s) s
/-- A request packet of a host arrives; what may leave the request queues does. -/
def hostPacket (p : Nat) (seq : BitVec 12) (r : HReq) (s : State) : State := serveAll (onPacket p seq r s)
/-- HOST_RD (R460). -/
def execHostRd (p : Fin 4) (seq : BitVec 12) (tag : Byte) (words : List DWord) (s : State) :
    Host.Outcome State Fault Refusal := .next (hostPacket p seq (.rd (some tag) words) s)
/-- HOST_WR (R460). -/
def execHostWr (p : Fin 4) (seq : BitVec 12) (tag : Byte) (words : List DWord) (s : State) :
    Host.Outcome State Fault Refusal := .next (hostPacket p seq (.wr (some tag) words) s)
/-- HOST_PLY (R465). -/
def execHostPly (p : Fin 4) (seq : BitVec 12) (tag : Byte) (arg : BitVec 16) (words : List Word) (s : State) :
    Host.Outcome State Fault Refusal := .next (hostPacket p seq (.ply (some tag) arg words) s)
/-- RSP_SEND (R460, R478). -/
def execRspSend (p : Fin 4) (s : State) : Host.Outcome State Fault Refusal := .next (serveAll (rspSend p (writeReg p) s))
/-- PLACEMENT_COMPLETE (R503); the words that waited for it are taken (R517). -/
def execPlacementComplete (s : State) : Host.Outcome State Fault Refusal := .next (serveAll (placementDone s))

end Sys2Proof.Machine
end

