-- ==== Sys2Proof/Machine/Ticks.lean ====
section
/-! DEFINITION. Ticks: what falls at a commit tick (R12, R273) and at a TBSYNC pulse (R12, R224, R270, R271, R608). -/
namespace Sys2Proof.Machine

/-! ## Link utilisation (R608) -/

/-- The flit times of an output in 2^20 ticks, at 1.25 G flits/s (R115). -/
def flitTimes : Nat := 10240
/-- The share of flit times that an output was busy, in whole percent. -/
def busyShare (a : OutArb) : Nat := min 100 (a.busy * 100 / flitTimes)
/-- The name of an output in OBS_UTIL_MAX: as EVENT of CLASS 0x3 (R603, R617). -/
def sideName (o : Nat) : Nat := if o % 5 != 4 && leaves? (o / 5) (o % 5) then 5 else o % 5
/-- The interval ends: the shares are taken, and the counts start anew. -/
def takeUtil (s : State) : State :=
  let l := (s.ply.outs.map (fun e => (e.1, busyShare e.2))).filter (fun e => e.2 != 0)
  let best := l.foldl (fun b e => if b.2 < e.2 then e else b) (0, 0)
  let top : Word := if best.2 = 0 then 0 else w32 (place 24 8 best.2 + place 12 3 (sideName best.1) + place 0 12 (best.1 / 5))
  let outs := (s.ply.outs.map (fun e => (e.1, { e.2 with busy := 0, held := 0 }))).filter (fun e => e.2 != OutArb.init)
  { s with ply := { s.ply with util := l, utilMax := top, outs := outs } }

/-! ## Commit ticks -/

/-- PWR_WAKE_AT names this commit tick (R583). -/
def wakeDue (t : Tick) (s : State) : State :=
  let hi := s.reg .pwrWakeAtHi 0
  if bitOf hi 31 && wakeTick s hi == t && (s.pwr.state == 2 || s.pwr.state == 3 || s.pwr.state == 4) then wakeBy 3 0 s else s
/-- COMMIT_TICK (R273): the batches accepted for the tick are applied, counters that sample at it do. -/
def commitAct (s : State) : State :=
  if s.time.locked then
    let t := dueAt 16 s.now s.time.lastCommit
    let s := (advanceTo t s).onTime (fun x => { x with lastCommit := t })
    wakeDue t (tally 8 0 0 (sampleTick t (s.time.lastPulse == t) (applyDue t s)))
  else s
/-- COMMIT_TICK (R273). -/
def execCommitTick (s : State) : Host.Outcome State Fault Refusal := .next (commitAct s)

/-! ## TBSYNC -/

/-- A pulse time passes for the lanes in RUN (R224). -/
def pulseTime (s : State) : State :=
  forEach ((List.range 64).filter (fun n => (lane s n).state == 3))
    (fun n s => s.onLane n (fun x => { x with noEcho := x.noEcho + 1 })) s
/-- A pulse time passes for a lane in step 6 of its training (R222): at the edge it is armed for, the front end loads its counter;
where that edge did not come or none was armed, the writes start for the next one. -/
def loadTime (s : State) : State :=
  forEach ((List.range 64).filter (fun n => (lane s n).state == 2 && (lane s n).step == 6)) (fun n s =>
    let here := s.now.toNat / 2 ^ 20
    if s.time.emitted ≠ some here then s.onLane n (fun x => { x with loadPulse := none })
    else if (lane s n).loadPulse.any (fun l => !pulseLt here l) then s
    else feLoad n (pulseAfter here 1) s) s
/-- TBSYNC_PULSE (R270, R271): a TBSYNC value, with a pulse where TIME_TBSYNC.EN is 1. The interval in which a notification may be
raised once ends with it (R468). -/
def pulseAct (s : State) : State :=
  if s.time.locked then
    let t := dueAt 20 s.now s.time.lastPulse
    let en := bitOf (s.reg .timeTbsync 0) 31
    let s := (advanceTo t s).onTime (fun x =>
      { x with lastPulse := t, emitted := if en then some (t.toNat / 2 ^ 20) else x.emitted })
    let s := newInterval s
    takeUtil (tally 8 0 1 (pwmAlign (sampleTick t (s.time.lastCommit == t) (loadTime (pulseTime s)))))
  else s
/-- TBSYNC_PULSE (R270). -/
def execTbsyncPulse (s : State) : Host.Outcome State Fault Refusal := .next (pulseAct s)

end Sys2Proof.Machine
end

