-- ==== Sys2Proof/Machine/Upset.lean ====
section
/-! DEFINITION. Upset: a bit flips in a memory or a latch that the part guards (R78, R347, R394, R399, R535, R542). -/
namespace Sys2Proof.Machine

/-- Flip one bit of a word. -/
def flipBit {n : Nat} (w : BitVec n) (k : Nat) : BitVec n := w ^^^ BitVec.ofNat n (2 ^ k)
/-- A bit flips: it joins the flipped ones, or stands as written again. -/
def toggleNat (k : Nat) (l : List Nat) : List Nat := if l.contains k then removeNat k l else insertNat k l
/-- One of the 2,048 bits of a configuration frame or of the 13 bits of its code (R535): what handshakes under the frame then
find, they do (R46, R49). -/
def upsetFrame (f b : Nat) (s : State) : State :=
  let k := 64 * f + b / 32
  let s := if b < 2048 then s.setCfg k (flipBit (s.fab.cfg.get 0 k) (b % 32)) else s
  let s := { s with fab := { s.fab with cfgErr := s.fab.cfgErr.set [] f (toggleNat b (frameFlips s f)) } }
  if f < sysFrame then settleRunning (f / 40) s else s
/-- One of the 64 data bits and 8 check bits of a reel word (R347). -/
def upsetReel (w b : Nat) (s : State) : State :=
  let s := if b < 64 then s.putBytes (8 * w) (bytesOf64 (flipBit (reelWord s w) b)) else s
  s.onMem (fun m => { m with err := m.err.set [] w (toggleNat b (m.err.get [] w)) })
/-- One of the 32 data bits of a tile RAM word, or its parity bit (R78): an odd number of flips is bad parity. -/
def upsetRam (t w b : Nat) (s : State) : State :=
  s.onTile t (fun x =>
    { x with ram := if b < 32 then x.ram.set 0 w (flipBit (x.ram.get 0 w) b) else x.ram, ramBad := toggleNat w x.ramBad })
/-- A bit of one copy of a triple (R542). -/
def upsetTriple (i c b : Nat) (s : State) : State :=
  s.setTriple i (setAt (triple s i) c (flipBit ((triple s i).getD c 0) b))
/-- A bit of the second copy of a pointer of a queue. -/
def HQ.upset {α : Type} (wr : Bool) (b : Nat) (q : HQ α) : HQ α :=
  if wr then { q with wr2 := q.wr2 ^^^ 2 ^ b } else { q with rd2 := q.rd2 ^^^ 2 ^ b }
/-- The same of a bank queue. -/
def QPtr.upset (wr : Bool) (b : Nat) (q : QPtr) : QPtr :=
  if wr then { q with wr2 := q.wr2 ^^^ 2 ^ b } else { q with rd2 := q.rd2 ^^^ 2 ^ b }
/-- The same of a queue of port `p` that is held as the difference of its pointers alone. -/
def upsetDiff (p k : Nat) (wr : Bool) (b : Nat) (s : State) : State :=
  s.onPort p (fun x => { x with qdiff := x.qdiff.set 0 k (flipBit (x.qdiff.get 0 k) (if wr then b + 8 else b)) })
/-- The bits of a pointer, from the entries of the queue (R394, R455); class 0x8 by its k. -/
def ptrBits (cls k : Nat) : Nat :=
  match cls with
  | 1 => 5
  | 2 => 6
  | 3 => 6
  | 4 => 3
  | 5 => 8
  | 6 => 2
  | 7 => 2
  | 8 => if k < 2 then 6 else if k = 3 then 4 else if k < 5 then 5 else 0
  | 9 => 4
  | _ => 0
/-- A bit of the second copy of a pointer of the queue that class and index name (R394, R399); where they name none, nothing. -/
def upsetPtr (cls i : Nat) (wr : Bool) (b : Nat) (s : State) : State :=
  if ptrBits cls (i % 16) ≤ b then s
  else
    match cls with
    | 1 =>
      if mapped s (i / 2) then s.setTileQ (physOf s (i / 2)) (i % 2) ((tileQ s (physOf s (i / 2)) (i % 2)).upset wr b) else s
    | 2 => if i < 2048 then s.setChan i { chan s i with q := (chan s i).q.upset wr b } else s
    | 3 => if i < 64 then s.setChan (2048 + i) { chan s (2048 + i) with q := (chan s (2048 + i)).q.upset wr b } else s
    | 4 => if i < 16 then s.setQd i { qd s i with q := (qd s i).q.upset wr b } else s
    | 5 => if i < 64 then s.setLane i { lane s i with wq := (lane s i).wq.upset wr b } else s
    | 6 =>
      if i < 1024 then
        let x := bank s (i / 4)
        let m := 64 + i / 64
        s.setBank (i / 4) (x.setPtr m (1 + i % 4) ((qptr x m (1 + i % 4)).upset wr b))
      else s
    | 7 =>
      if i < 1024 then
        let x := bank s (i / 4)
        s.setBank (i / 4) (x.setPtr 86 (1 + i % 4) ((qptr x 86 (1 + i % 4)).upset wr b))
      else s
    | 8 =>
      if i < 64 then
        let p := i / 16
        match i % 16 with
        | 0 => s.onPort p (fun x => { x with reqq := x.reqq.upset wr b })
        | 1 => s.onPort p (fun x => { x with rspq := x.rspq.upset wr b })
        | 3 => s.onPort p (fun x => { x with ntfq := x.ntfq.upset wr b })
        | k => upsetDiff p k wr b s
      else s
    | 9 => if i < 64 then upsetDiff (i / 16) (16 + i % 16) wr b s else s
    | _ => s
/-- UPSET. -/
def upsetAct (u : UpsetAt) (s : State) : State :=
  match u with
  | .frame f bit => upsetFrame f bit s
  | .reel word bit => upsetReel word bit s
  | .tileRam tile word bit => upsetRam tile word bit s
  | .triple i c bit => upsetTriple i c bit s
  | .pointer cls i wr bit => upsetPtr cls i wr bit s
/-- UPSET (R78, R347, R399, R535, R542). -/
def execUpset (u : UpsetAt) (s : State) : Host.Outcome State Fault Refusal := .next (upsetAct u s)

end Sys2Proof.Machine
end

