-- ==== Sys2Proof/Machine/Dispatch.lean ====
section
/-! DEFINITION. Dispatch: the table of meanings, one arm per command of spec/opcode_table.json. -/
namespace Sys2Proof.Machine

/-- The meaning of a command: its effect on everything but the queue. -/
def exec (i : Instr) (s : State) : Host.Outcome State Fault Refusal :=
  match i with
  | .registerWrite port addr val => Sys2Proof.Machine.execRegisterWrite port addr val s
  | .functionCellEvaluate tile cell => Sys2Proof.Machine.execFunctionCellEvaluate tile cell s
  | .mergeForward tile cell => Sys2Proof.Machine.execMergeForward tile cell s
  | .arbiterGrant tile cell tie => Sys2Proof.Machine.execArbiterGrant tile cell tie s
  | .sourceRefill tile cell => Sys2Proof.Machine.execSourceRefill tile cell s
  | .sinkAcknowledge tile cell => Sys2Proof.Machine.execSinkAcknowledge tile cell s
  | .constantSelectRepeat tile sink => Sys2Proof.Machine.execConstantSelectRepeat tile sink s
  | .ramPortOperation tile portB met => Sys2Proof.Machine.execRamPortOperation tile portB met s
  | .railError tile sink => Sys2Proof.Machine.execRailError tile sink s
  | .macOperation tile unit => Sys2Proof.Machine.execMacOperation tile unit s
  | .queuePush tile q => Sys2Proof.Machine.execQueuePush tile q s
  | .edgeCollision tile east wire => Sys2Proof.Machine.execEdgeCollision tile east wire s
  | .queuePop tile q => Sys2Proof.Machine.execQueuePop tile q s
  | .tileRamWindowRead tile met => Sys2Proof.Machine.execTileRamWindowRead tile met s
  | .tileRamWindowWrite tile met => Sys2Proof.Machine.execTileRamWindowWrite tile met s
  | .plyTxPacket tile => Sys2Proof.Machine.execPlyTxPacket tile s
  | .packetInjection router side vc dom => Sys2Proof.Machine.execPacketInjection router side vc dom s
  | .flitAdvance router out => Sys2Proof.Machine.execFlitAdvance router out s
  | .rxDelivery tile => Sys2Proof.Machine.execRxDelivery tile s
  | .holdQueueForward router side dom => Sys2Proof.Machine.execHoldQueueForward router side dom s
  | .memGatewayRd g k => Sys2Proof.Machine.execMemGatewayRd g k s
  | .memGatewayWr g k => Sys2Proof.Machine.execMemGatewayWr g k s
  | .memGatewaySet g k => Sys2Proof.Machine.execMemGatewaySet g k s
  | .migrationDecision => Sys2Proof.Machine.execMigrationDecision s
  | .memGatewayClr g k => Sys2Proof.Machine.execMemGatewayClr g k s
  | .instanceQuiescent => Sys2Proof.Machine.execInstanceQuiescent s
  | .quiescenceTimeout => Sys2Proof.Machine.execQuiescenceTimeout s
  | .migrationCopyDone badTile => Sys2Proof.Machine.execMigrationCopyDone badTile s
  | .sourceTilesCleared => Sys2Proof.Machine.execSourceTilesCleared s
  | .policyEvaluation temps => Sys2Proof.Machine.execPolicyEvaluation temps s
  | .pin port inst => Sys2Proof.Machine.execPin port inst s
  | .unpin port inst => Sys2Proof.Machine.execUnpin port inst s
  | .migrate port inst => Sys2Proof.Machine.execMigrate port inst s
  | .retireTile port => Sys2Proof.Machine.execRetireTile port s
  | .unretire port => Sys2Proof.Machine.execUnretire port s
  | .headerBlock lane payload => Sys2Proof.Machine.execHeaderBlock lane payload s
  | .eventBlock lane payload => Sys2Proof.Machine.execEventBlock lane payload s
  | .gapBlock lane payload => Sys2Proof.Machine.execGapBlock lane payload s
  | .blockError lane sync payload => Sys2Proof.Machine.execBlockError lane sync payload s
  | .trainBlock lane payload => Sys2Proof.Machine.execTrainBlock lane payload s
  | .idleBlock lane payload => Sys2Proof.Machine.execIdleBlock lane payload s
  | .blockLock lane => Sys2Proof.Machine.execBlockLock lane s
  | .lockLost lane silent => Sys2Proof.Machine.execLockLost lane silent s
  | .syncLost lane => Sys2Proof.Machine.execSyncLost lane s
  | .laneGatewaySend lane => Sys2Proof.Machine.execLaneGatewaySend lane s
  | .spoolWrite writer => Sys2Proof.Machine.execSpoolWrite writer s
  | .laneWriterTimeout spool => Sys2Proof.Machine.execLaneWriterTimeout spool s
  | .trainingAttemptStart => Sys2Proof.Machine.execTrainingAttemptStart s
  | .trainingStepDone feId feVersion => Sys2Proof.Machine.execTrainingStepDone feId feVersion s
  | .trainingStepLate check => Sys2Proof.Machine.execTrainingStepLate check s
  | .eyeSample lane height width => Sys2Proof.Machine.execEyeSample lane height width s
  | .laneEnable port lane => Sys2Proof.Machine.execLaneEnable port lane s
  | .laneDisable port lane => Sys2Proof.Machine.execLaneDisable port lane s
  | .laneRetrain port lane => Sys2Proof.Machine.execLaneRetrain port lane s
  | .laneResetEnd lane => Sys2Proof.Machine.execLaneResetEnd lane s
  | .laneIslandReset port lane => Sys2Proof.Machine.execLaneIslandReset port lane s
  | .feRead port lane => Sys2Proof.Machine.execFeRead port lane s
  | .feWrite port lane => Sys2Proof.Machine.execFeWrite port lane s
  | .laneCfgWrite port lane val => Sys2Proof.Machine.execLaneCfgWrite port lane val s
  | .laneChEnWrite port lane val => Sys2Proof.Machine.execLaneChEnWrite port lane val s
  | .laneSubWrite port ch val => Sys2Proof.Machine.execLaneSubWrite port ch val s
  | .clrPeak port ch => Sys2Proof.Machine.execClrPeak port ch s
  | .timebaseStart => Sys2Proof.Machine.execTimebaseStart s
  | .tbrefStartTimeout => Sys2Proof.Machine.execTbrefStartTimeout s
  | .tbrefLost => Sys2Proof.Machine.execTbrefLost s
  | .tbrefBack => Sys2Proof.Machine.execTbrefBack s
  | .holdoverEnd => Sys2Proof.Machine.execHoldoverEnd s
  | .tbsyncEnWrite port val => Sys2Proof.Machine.execTbsyncEnWrite port val s
  | .wrapNear => Sys2Proof.Machine.execWrapNear s
  | .timebaseWrap => Sys2Proof.Machine.execTimebaseWrap s
  | .tbsyncPulse => Sys2Proof.Machine.execTbsyncPulse s
  | .commitTick => Sys2Proof.Machine.execCommitTick s
  | .timebaseSnapshot => Sys2Proof.Machine.execTimebaseSnapshot s
  | .senseEdge k rise time => Sys2Proof.Machine.execSenseEdge k rise time s
  | .filterWindowClosed k => Sys2Proof.Machine.execFilterWindowClosed k s
  | .senseEventSend k => Sys2Proof.Machine.execSenseEventSend k s
  | .quadratureStep q a b => Sys2Proof.Machine.execQuadratureStep q a b s
  | .indexEdge q => Sys2Proof.Machine.execIndexEdge q s
  | .qdSample port q => Sys2Proof.Machine.execQdSample port q s
  | .qdClear port q => Sys2Proof.Machine.execQdClear port q s
  | .qdSampleSend q => Sys2Proof.Machine.execQdSampleSend q s
  | .qdCfgWrite port q val => Sys2Proof.Machine.execQdCfgWrite port q val s
  | .senseSubWrite port k val => Sys2Proof.Machine.execSenseSubWrite port k val s
  | .timeNowRead port => Sys2Proof.Machine.execTimeNowRead port s
  | .qdLastCntRead port q => Sys2Proof.Machine.execQdLastCntRead port q s
  | .slotStart src => Sys2Proof.Machine.execSlotStart src s
  | .slotStop src => Sys2Proof.Machine.execSlotStop src s
  | .slotQuery src => Sys2Proof.Machine.execSlotQuery src s
  | .markSet src => Sys2Proof.Machine.execMarkSet src s
  | .slotPacketSend spool slotB => Sys2Proof.Machine.execSlotPacketSend spool slotB s
  | .markClear src => Sys2Proof.Machine.execMarkClear src s
  | .markQuery src => Sys2Proof.Machine.execMarkQuery src s
  | .spoolQuery src => Sys2Proof.Machine.execSpoolQuery src s
  | .mtInsert src => Sys2Proof.Machine.execMtInsert src s
  | .slotFlushTimeout spool slotB => Sys2Proof.Machine.execSlotFlushTimeout spool slotB s
  | .mtLookup src => Sys2Proof.Machine.execMtLookup src s
  | .mtDelete src => Sys2Proof.Machine.execMtDelete src s
  | .exportStart src => Sys2Proof.Machine.execExportStart src s
  | .exportStop src => Sys2Proof.Machine.execExportStop src s
  | .mtSweep => Sys2Proof.Machine.execMtSweep s
  | .resize src => Sys2Proof.Machine.execResize src s
  | .spoolClose spool => Sys2Proof.Machine.execSpoolClose spool s
  | .exportPacketSend spool => Sys2Proof.Machine.execExportPacketSend spool s
  | .splWptrRead port spool => Sys2Proof.Machine.execSplWptrRead port spool s
  | .splLiveRead port spool => Sys2Proof.Machine.execSplLiveRead port spool s
  | .reelWordAccess g bank => Sys2Proof.Machine.execReelWordAccess g bank s
  | .memoryInitDone => Sys2Proof.Machine.execMemoryInitDone s
  | .correctedWriteBack g bank => Sys2Proof.Machine.execCorrectedWriteBack g bank s
  | .regionTestStart => Sys2Proof.Machine.execRegionTestStart s
  | .regionTestEnd fail => Sys2Proof.Machine.execRegionTestEnd fail s
  | .bankTestStart port g bank => Sys2Proof.Machine.execBankTestStart port g bank s
  | .bankTestStop port => Sys2Proof.Machine.execBankTestStop port s
  | .bankTestRegionTimer => Sys2Proof.Machine.execBankTestRegionTimer s
  | .memCtlWrite port val => Sys2Proof.Machine.execMemCtlWrite port val s
  | .groupWakeDone g => Sys2Proof.Machine.execGroupWakeDone g s
  | .groupIdleTimeout g => Sys2Proof.Machine.execGroupIdleTimeout g s
  | .memConfRead port m => Sys2Proof.Machine.execMemConfRead port m s
  | .bundleEntryTaken router side => Sys2Proof.Machine.execBundleEntryTaken router side s
  | .xingUnstable x => Sys2Proof.Machine.execXingUnstable x s
  | .pulseArrival x => Sys2Proof.Machine.execPulseArrival x s
  | .pulseDeliveryDone x => Sys2Proof.Machine.execPulseDeliveryDone x s
  | .islandClockStop isl => Sys2Proof.Machine.execIslandClockStop isl s
  | .functionSwitch port pin val => Sys2Proof.Machine.execFunctionSwitch port pin val s
  | .wakeRequest isl => Sys2Proof.Machine.execWakeRequest isl s
  | .crossingPresent isl => Sys2Proof.Machine.execCrossingPresent isl s
  | .pinBankCfgWrite port b val => Sys2Proof.Machine.execPinBankCfgWrite port b val s
  | .viobFault b => Sys2Proof.Machine.execViobFault b s
  | .viobRestore b => Sys2Proof.Machine.execViobRestore b s
  | .pinLevelAccept pin level => Sys2Proof.Machine.execPinLevelAccept pin level s
  | .pinWakeEvent pin level => Sys2Proof.Machine.execPinWakeEvent pin level s
  | .pinEvtWrite port pin val => Sys2Proof.Machine.execPinEvtWrite port pin val s
  | .pinArm port pin => Sys2Proof.Machine.execPinArm port pin s
  | .pinPendClear port b hi val => Sys2Proof.Machine.execPinPendClear port b hi val s
  | .pinOutWrite port b hi val => Sys2Proof.Machine.execPinOutWrite port b hi val s
  | .pinEventSend pin => Sys2Proof.Machine.execPinEventSend pin s
  | .pinSet port b hi val => Sys2Proof.Machine.execPinSet port b hi val s
  | .pinClr port b hi val => Sys2Proof.Machine.execPinClr port b hi val s
  | .gatewayPinsRead b dom => Sys2Proof.Machine.execGatewayPinsRead b dom s
  | .pinTgl port b hi val => Sys2Proof.Machine.execPinTgl port b hi val s
  | .pinDirWrite port b hi val => Sys2Proof.Machine.execPinDirWrite port b hi val s
  | .gatewayPinsWrite b dom => Sys2Proof.Machine.execGatewayPinsWrite b dom s
  | .gatewayOeRead b dom => Sys2Proof.Machine.execGatewayOeRead b dom s
  | .gatewayOeWrite b dom => Sys2Proof.Machine.execGatewayOeWrite b dom s
  | .pwmPeriodBoundary c => Sys2Proof.Machine.execPwmPeriodBoundary c s
  | .gatewayRearm b dom => Sys2Proof.Machine.execGatewayRearm b dom s
  | .gatewayPwmRead b dom => Sys2Proof.Machine.execGatewayPwmRead b dom s
  | .gatewayPwmWrite b dom => Sys2Proof.Machine.execGatewayPwmWrite b dom s
  | .pwmCfgWrite port c val => Sys2Proof.Machine.execPwmCfgWrite port c val s
  | .gatewaySpiRead b dom => Sys2Proof.Machine.execGatewaySpiRead b dom s
  | .gatewaySpiWrite b dom => Sys2Proof.Machine.execGatewaySpiWrite b dom s
  | .gatewayI2cRead b dom => Sys2Proof.Machine.execGatewayI2cRead b dom s
  | .pwmDutyWrite port c val => Sys2Proof.Machine.execPwmDutyWrite port c val s
  | .gatewayI2cWrite b dom => Sys2Proof.Machine.execGatewayI2cWrite b dom s
  | .pwmPeriodWrite port c val => Sys2Proof.Machine.execPwmPeriodWrite port c val s
  | .spiTransferStart port u val => Sys2Proof.Machine.execSpiTransferStart port u val s
  | .spiTransferEnd u rx => Sys2Proof.Machine.execSpiTransferEnd u rx s
  | .i2cTransferStart port u val => Sys2Proof.Machine.execI2cTransferStart port u val s
  | .i2cTransferEnd u cause xferred rx => Sys2Proof.Machine.execI2cTransferEnd u cause xferred rx s
  | .stretchTimeout u xferred => Sys2Proof.Machine.execStretchTimeout u xferred s
  | .linkTrainingStep p => Sys2Proof.Machine.execLinkTrainingStep p s
  | .trainTimeout p => Sys2Proof.Machine.execTrainTimeout p s
  | .trainRetry p => Sys2Proof.Machine.execTrainRetry p s
  | .linkDown p cause => Sys2Proof.Machine.execLinkDown p cause s
  | .hostTrain p ack => Sys2Proof.Machine.execHostTrain p ack s
  | .alignBlock p lane => Sys2Proof.Machine.execAlignBlock p lane s
  | .hostRd p seq tag words => Sys2Proof.Machine.execHostRd p seq tag words s
  | .hostWr p seq tag words => Sys2Proof.Machine.execHostWr p seq tag words s
  | .hostPly p seq tag arg words => Sys2Proof.Machine.execHostPly p seq tag arg words s
  | .packetCrcError p => Sys2Proof.Machine.execPacketCrcError p s
  | .linkAck p seq => Sys2Proof.Machine.execLinkAck p seq s
  | .linkNak p seq => Sys2Proof.Machine.execLinkNak p seq s
  | .linkCredit p cls count => Sys2Proof.Machine.execLinkCredit p cls count s
  | .replayTimeout p => Sys2Proof.Machine.execReplayTimeout p s
  | .rspSend p => Sys2Proof.Machine.execRspSend p s
  | .mbxSend p => Sys2Proof.Machine.execMbxSend p s
  | .ntfSend p => Sys2Proof.Machine.execNtfSend p s
  | .ntfRptrWrite port val => Sys2Proof.Machine.execNtfRptrWrite port val s
  | .packetLayerTimeout p => Sys2Proof.Machine.execPacketLayerTimeout p s
  | .batchDataWrite port val => Sys2Proof.Machine.execBatchDataWrite port val s
  | .commit port => Sys2Proof.Machine.execCommit port s
  | .commitAt port => Sys2Proof.Machine.execCommitAt port s
  | .discard port => Sys2Proof.Machine.execDiscard port s
  | .batchCheckDone port => Sys2Proof.Machine.execBatchCheckDone port s
  | .portRetrain port target => Sys2Proof.Machine.execPortRetrain port target s
  | .portIslandReset port target => Sys2Proof.Machine.execPortIslandReset port target s
  | .portResetEnd p => Sys2Proof.Machine.execPortResetEnd p s
  | .domainReset port dom => Sys2Proof.Machine.execDomainReset port dom s
  | .flashReadDone words dqs => Sys2Proof.Machine.execFlashReadDone words dqs s
  | .cfgStreamWrite port val => Sys2Proof.Machine.execCfgStreamWrite port val s
  | .wreg => Sys2Proof.Machine.execWreg s
  | .skein => Sys2Proof.Machine.execSkein s
  | .inst => Sys2Proof.Machine.execInst s
  | .dirEnd => Sys2Proof.Machine.execDirEnd s
  | .placementComplete => Sys2Proof.Machine.execPlacementComplete s
  | .startFull port => Sys2Proof.Machine.execStartFull port s
  | .framesP => Sys2Proof.Machine.execFramesP s
  | .framesL => Sys2Proof.Machine.execFramesL s
  | .skeinFrames => Sys2Proof.Machine.execSkeinFrames s
  | .region => Sys2Proof.Machine.execRegion s
  | .keywrap => Sys2Proof.Machine.execKeywrap s
  | .startPartial port => Sys2Proof.Machine.execStartPartial port s
  | .epoch => Sys2Proof.Machine.execEpoch s
  | .nextkey => Sys2Proof.Machine.execNextkey s
  | .endCheck => Sys2Proof.Machine.execEndCheck s
  | .signature => Sys2Proof.Machine.execSignature s
  | .ioRelease => Sys2Proof.Machine.execIoRelease s
  | .abort port => Sys2Proof.Machine.execAbort port s
  | .clearRegion port => Sys2Proof.Machine.execClearRegion port s
  | .streamLost => Sys2Proof.Machine.execStreamLost s
  | .regionRelease => Sys2Proof.Machine.execRegionRelease s
  | .chainInputTimeout => Sys2Proof.Machine.execChainInputTimeout s
  | .chainSync => Sys2Proof.Machine.execChainSync s
  | .scrubFrameRead => Sys2Proof.Machine.execScrubFrameRead s
  | .tileTestEnd failUnit => Sys2Proof.Machine.execTileTestEnd failUnit s
  | .tripleVote => Sys2Proof.Machine.execTripleVote s
  | .tileTestStart => Sys2Proof.Machine.execTileTestStart s
  | .tileTest port val => Sys2Proof.Machine.execTileTest port val s
  | .fuseRetire port val => Sys2Proof.Machine.execFuseRetire port val s
  | .fuseProgramDone => Sys2Proof.Machine.execFuseProgramDone s
  | .takeOwnership port val => Sys2Proof.Machine.execTakeOwnership port val s
  | .programSlot port val => Sys2Proof.Machine.execProgramSlot port val s
  | .revokeSlot port val => Sys2Proof.Machine.execRevokeSlot port val s
  | .attest port => Sys2Proof.Machine.execAttest port s
  | .seal port val => Sys2Proof.Machine.execSeal port val s
  | .advanceRollback port val => Sys2Proof.Machine.execAdvanceRollback port val s
  | .signHead port => Sys2Proof.Machine.execSignHead port s
  | .reportDone => Sys2Proof.Machine.execReportDone s
  | .ledgerAckWrite port val => Sys2Proof.Machine.execLedgerAckWrite port val s
  | .recSelWrite port val => Sys2Proof.Machine.execRecSelWrite port val s
  | .ledgerSeqRead port => Sys2Proof.Machine.execLedgerSeqRead port s
  | .doze port => Sys2Proof.Machine.execDoze port s
  | .park port => Sys2Proof.Machine.execPark port s
  | .wake port => Sys2Proof.Machine.execWake port s
  | .powerEntryProceed => Sys2Proof.Machine.execPowerEntryProceed s
  | .wakeTimer => Sys2Proof.Machine.execWakeTimer s
  | .thermalRelease => Sys2Proof.Machine.execThermalRelease s
  | .thermTrip region temp => Sys2Proof.Machine.execThermTrip region temp s
  | .wakeComplete => Sys2Proof.Machine.execWakeComplete s
  | .governorPeriod temps cong pmb => Sys2Proof.Machine.execGovernorPeriod temps cong pmb s
  | .pmbAlert ack status => Sys2Proof.Machine.execPmbAlert ack status s
  | .pwrVlimWrite port val => Sys2Proof.Machine.execPwrVlimWrite port val s
  | .pwrThermWrite port val => Sys2Proof.Machine.execPwrThermWrite port val s
  | .powerOnReset => Sys2Proof.Machine.execPowerOnReset s
  | .pwrWakeAtWrite port val => Sys2Proof.Machine.execPwrWakeAtWrite port val s
  | .sysLockWrite port val => Sys2Proof.Machine.execSysLockWrite port val s
  | .fullReset => Sys2Proof.Machine.execFullReset s
  | .sysResetFull port val mode pulldef => Sys2Proof.Machine.execSysResetFull port val mode pulldef s
  | .sysResetFabric port val => Sys2Proof.Machine.execSysResetFabric port val s
  | .railBrownout rail => Sys2Proof.Machine.execRailBrownout rail s
  | .obsCntSrcWrite port k val => Sys2Proof.Machine.execObsCntSrcWrite port k val s
  | .obsProbeSrcWrite port j val => Sys2Proof.Machine.execObsProbeSrcWrite port j val s
  | .snap port => Sys2Proof.Machine.execSnap port s
  | .tallyRead => Sys2Proof.Machine.execTallyRead s
  | .probeRecord j data time => Sys2Proof.Machine.execProbeRecord j data time s
  | .traceWrite => Sys2Proof.Machine.execTraceWrite s
  | .obsCntRead port k => Sys2Proof.Machine.execObsCntRead port k s
  | .counterRead dom => Sys2Proof.Machine.execCounterRead dom s
  | .idcode => Sys2Proof.Machine.execIdcode s
  | .samplePreload balls => Sys2Proof.Machine.execSamplePreload balls s
  | .bypass code => Sys2Proof.Machine.execBypass code s
  | .testLogicReset => Sys2Proof.Machine.execTestLogicReset s
  | .mailboxArrival p k => Sys2Proof.Machine.execMailboxArrival p k s
  | .chainInputWord val => Sys2Proof.Machine.execChainInputWord val s
  | .laneCmdComplete port data => Sys2Proof.Machine.execLaneCmdComplete port data s
  | .evacuationCapRelease => Sys2Proof.Machine.execEvacuationCapRelease s
  | .upset u => Sys2Proof.Machine.execUpset u s
  | .porstNDeasserted mode pulldef => Sys2Proof.Machine.execPorstNDeasserted mode pulldef s
  | .rstNDeasserted mode pulldef => Sys2Proof.Machine.execRstNDeasserted mode pulldef s
  | .vfuseLost => Sys2Proof.Machine.execVfuseLost s

end Sys2Proof.Machine
end

