-- ==== Sys2Proof/Machine/Idle.lean ====
section
/-! DEFINITION. Idle: what the block does when no command waits (notes/assumptions/5.md, DESIGN CHOICE). -/
namespace Sys2Proof.Machine

/-- Ticks between two values of which the commanded rows speak: a multiple of 2^k passed when the count goes from
`a` to `b`. -/
def crosses (k : Nat) (a b : Tick) : Bool := decide (a.toNat / 2 ^ k ≠ b.toNat / 2 ^ k)

/-- One 2 ns cycle of the timebase island (R264): the count rises by 256 ticks while the timebase is locked or in
holdover; the rows that are due at a multiple of the count passed are put at the end of the queue: the snapshot every
2^12 ticks (R383), the commit tick every 2^16 (R12, R273), the TBSYNC pulse every 2^20 (R12, R270), the warning before the wrap and the wrap (R267). -/
def idleCycle (s : State) : State :=
  if s.time.locked then
    let a := s.time.count
    let b := a + 256
    let due := (if b.toNat < a.toNat then [Instr.timebaseWrap] else []) ++
      (if b >>> 56 == 0xFF && a >>> 56 != 0xFF then [Instr.wrapNear] else []) ++
      (if crosses 12 a b then [Instr.timebaseSnapshot] else []) ++
      (if crosses 16 a b then [Instr.commitTick] else []) ++ (if crosses 20 a b then [Instr.tbsyncPulse] else [])
    { s with time := { s.time with count := b }, pending := due }
  else s

end Sys2Proof.Machine
end

