-- ==== Sys2Proof/Safety.lean ====
section
/-! DEFINITION. Safety: the invariants and the named hypotheses that claims speak of. -/
namespace Sys2Proof.Machine

/-! ## Invariants -/

/-- Reel memory in its canonical form: addresses strictly rising, no entry equal to what an unlisted byte reads as
(R343: 0). -/
def Memory.wf (m : List Host.Cell) : Bool := NMap.wf (0 : Byte) m
/-- What a fuse program will bring into force can still be programmed (R555): OWNED is not set where the part takes its owner, another
slot that is written is empty, a rollback target is not below the counter. -/
def FuseOp.fits (f : FuseOp) (x : FuseSt) : Prop :=
  match f with
  | .own _ _ => x.owned = false
  | .slot _ i _ => i ≠ 0 ∨ x.owned = true → x.slots.find i = none
  | .rollback _ n => x.rollback ≤ n
  | .revoke _ _ => True
  | .seal _ => True
  | .retire _ _ => True
/-- The fuses and the program that runs agree (R555, R557). -/
structure SecSt.Good (x : SecSt) : Prop where
  op : ∀ f, x.fuseOp = some f → f.fits x.fuses
/-- Fuses `g` hold everything that fuses `f` hold: nothing programmed is undone (R555, R556, R560); slot 0 is settled once OWNED is set
(notes/assumptions/92.md). -/
structure FuseSt.Ext (f g : FuseSt) : Prop where
  slots : ∀ i h, i ≠ 0 ∨ f.owned = true → f.slots.find i = some h → g.slots.find i = some h
  revoked : ∀ i, i ∈ f.revoked → i ∈ g.revoked
  rollback : f.rollback ≤ g.rollback
  owned : f.owned = true → g.owned = true
  sealed : f.sealed_ = true → g.sealed_ = true
  retired : ∀ i, i ∈ f.retired → i ∈ g.retired
/-- The invariant of the part: reel memory and the register store in canonical form, and fuses that agree with the program
that runs. -/
structure Canonical (s : State) : Prop where
  mem : Memory.wf s.mem = true
  regs : NMap.sorted s.regs = true
  sec : s.sec.Good

/-! ## Hypotheses of completion statements -/

/-- Every group that holds a spool's segments is awake (R364). -/
def SpoolAwake (s : State) (n : Nat) : Prop := (spoolGroups (spoolOf s n)).filter (retained s) = []
/-- A spool command that waits at `src` and passes every check that stands before its effect (R322–R325), its spool awake. -/
def SplReady (s : State) (src : SplSrc) (code : Nat) (c : SplCmd) : Prop :=
  memLive s = true ∧ s.xng.stopped.contains 192 = false ∧ splWaiting s src = some c ∧ cmdForm c = none ∧ cmdOf c = code ∧
    resizing s (cmdSpool c) = false ∧ splCheck s c = stOk ∧ SpoolAwake s (cmdSpool c)
/-- The request that pin gateway `b` serves next is `p`, of domain `d` (R429). -/
def GateReady (s : State) (b : Fin 8) (d : Fin 4) (p : Packet) : Prop :=
  firstReq s (portOf s (.pin b) 0) = some p ∧ p.dom = d
/-- The load under way holds a whole command `c` with operation code `op` that may act now, and `l'` is the load once it
is taken (R493, R494). -/
def LoadReady (s : State) (op : Nat) (c : LCmd) (l l' : Load) : Prop :=
  s.ldr.load = some l ∧ mayAct l = true ∧ headError l = none ∧ s.memory.initDone = true ∧ takeCmd l = some (c, l') ∧ opOf c.word = op

end Sys2Proof.Machine
end

