-- ==== Sys2Proof/Certificates/Slice0/Obligations.lean ====
section
/-! DEFINITION. Obligations: the statements for the provers. A completion statement says of each command that exec answers a
next state, and which, under hypotheses on the state and the operands alone; where that next state is written out with the
operations of Machine/, everything they do not name stands as it was. -/
open Sys2Proof Sys2Proof.Machine

/-! ## The part as a whole -/

/-- A step on a state with a command c at the front of its queue answers what exec of c answers on the state with the queue's rest; on an
empty queue it is one idle cycle of the timebase island, which ends in a next state. The queue and the idle cycle are the model's own choice
(notes/assumptions/5.md). (R264) -/
def Obligations.StepRunsTheFrontCommand : Prop :=
  (∀ (c : Instr) (rest : List Instr) (s : State), step { s with pending := c :: rest } = exec c { s with pending := rest }) ∧
  (∀ s : State, step { s with pending := [] } = .next (idleCycle { s with pending := [] }))

/-- Every command ends in a next state, whatever the state and the operands, and leaves the queue as it stands: no command of this block is
a fault or a refusal of the model. (R18, R19, R21, R22, R23) -/
def Obligations.EveryCommandCompletes : Prop :=
  ∀ (c : Instr) (s : State), ∃ t, exec c s = .next t ∧ t.pending = s.pending

/-- From every state that meets the invariant, a step that answers a next state, resets and loads included, answers one that meets it: reel
memory in canonical form (addresses strictly rising, no entry equal to what an unlisted byte reads as), the register store in rising order,
and the fuses in agreement with the fuse program that runs (a slot that it programs is empty, or is slot 0 before OWNED is set,
notes/assumptions/92.md). (R343, R553, R557) -/
def Obligations.StepKeepsCanonicalForm : Prop :=
  ∀ s t : State, Canonical s → step s = .next t → Canonical t

/-- From every state that meets the invariant, no step, of no command and no reset, clears OWNED or SEALED, changes or drops a programmed
slot (slot 0 once OWNED is set: until then TAKE_OWNERSHIP may program again what a cut left in force, the model's choice,
notes/assumptions/92.md), drops a revocation or a retirement, or lowers the rollback counter; the security state never goes back. (R549,
R553, R555, R556, R557, R558, R559, R560) -/
def Obligations.FusesOnlyGain : Prop :=
  ∀ s t : State, Canonical s → step s = .next t →
    (s.sec.fuses.owned = true → t.sec.fuses.owned = true) ∧ (s.sec.fuses.sealed_ = true → t.sec.fuses.sealed_ = true) ∧
    (∀ i h, i ≠ 0 ∨ s.sec.fuses.owned = true → s.sec.fuses.slots.find i = some h → t.sec.fuses.slots.find i = some h) ∧
    (∀ i, i ∈ s.sec.fuses.revoked → i ∈ t.sec.fuses.revoked) ∧ (∀ i, i ∈ s.sec.fuses.retired → i ∈ t.sec.fuses.retired) ∧
    s.sec.fuses.rollback ≤ t.sec.fuses.rollback ∧ secState s ≤ secState t

/-- At State.reset the invariant holds, every register has the reset value of its table, every byte of reel memory reads 0, the fabric is
frozen and not released, every lane and every port is OFF, the timebase stands at 0, reel memory is not initialised and no command waits.
Reset values that the spec does not give, and what memory reads as before its initialisation, are the model's choice
(notes/assumptions/2.md). (R17, R93, R343, R266, R237, R448) -/
def Obligations.ResetState : Prop :=
  Canonical State.reset ∧ (∀ (p : Nat) (r : Reg) (i j : Nat), State.reset.regP p r i j = r.reset) ∧ (∀ a, memByte State.reset a = 0) ∧
  State.reset.fab.frozen = true ∧ State.reset.fab.released = false ∧ (∀ n, (lane State.reset n).state = 0) ∧
  (∀ p, (port State.reset p).state = 0) ∧ State.reset.now = 0 ∧ State.reset.memory.initDone = false ∧ State.reset.pending = []

/-- A power-on reset and a brownout of VCFG or VAUX leave every register at its reset value but SYS_RESET_CAUSE, which holds the cause, reel
memory empty, and fabric, ply network, lanes, ports, spools, timebase and Distaff as at power-on. A full reset, unless a power-on reset
stands, leaves memory empty, fabric, lanes and ports as at power-on, adds the failing tiles to the runtime retirements, and keeps the
repairs of reel memory. SYS_RESET with the key and FULL resets fully and starts the part, with FABRIC alone resets the fabric; the release
of PORST_N or RST_N starts the part; a brownout of VCORE in Run resets the fabric with cause 1 and is raised. The straps that a SYS_RESET
samples are free operands of the command (notes/assumptions/2.md). (R577, R578, R592, R593, R594, R595, R596) -/
def Obligations.Resets : Prop :=
  ∀ s : State,
    (∀ (c : Instr) (cause : Nat), (c, cause) ∈ [(Instr.powerOnReset, 1), (.railBrownout .vcfg, 4), (.railBrownout .vaux, 4)] → ∃ t, exec c s = .next t ∧
      t = wideReset true cause s ∧ t.reg .sysResetCause 0 = w32 cause ∧
      (∀ p r i j, regKey r i j p ≠ regKey .sysResetCause 0 0 0 → t.regP p r i j = r.reset) ∧ t.mem = [] ∧
      t.fab = FabSt.init ∧ t.ply = PlySt.init ∧ t.lanes = [] ∧ t.host = HostSt.init ∧ t.spl = SplSt.init ∧ t.time = TimeSt.init ∧ t.dst = DstSt.init ∧
      t.pwr.reset = 2) ∧
    (s.pwr.reset ≠ 2 → ∃ t, exec .fullReset s = .next t ∧ t = wideReset false 2 s ∧ t.mem = [] ∧ t.fab = FabSt.init ∧ t.lanes = [] ∧ t.host = HostSt.init ∧
      t.dst.retRt = (s.dst.retRt ++ s.dst.failing).take 256 ∧ t.memory.spares = s.memory.spares ∧ t.pwr.reset = 1) ∧
    (∀ (v : Word) (mode : BitVec 2) (pd : Byte), fld v 31 16 = 0xA5C3 → bitOf v 1 = true →
      exec (.sysResetFull 0 v mode pd) s = .next ((startUp mode pd (wideReset false 3 s)).stat stOk)) ∧
    (∀ v : Word, fld v 31 16 = 0xA5C3 → bitOf v 1 = false → bitOf v 0 = true → coreLive s = true →
      exec (.sysResetFabric 0 v) s = .next ((fabricCmd 0 s.nextFree).stat stOk)) ∧
    (∀ (mode : BitVec 2) (pd : Byte), s.pwr.reset = 2 → exec (.porstNDeasserted mode pd) s = .next (startUp mode pd s)) ∧
    (∀ (mode : BitVec 2) (pd : Byte), s.pwr.reset = 1 → exec (.rstNDeasserted mode pd) s = .next (startUp mode pd s)) ∧
    (s.pwr.state = 0 → exec (.railBrownout .vcore) s = .next (notifyPorts 0x02 0 [Config.itemCode 2 0] allPorts (fabricCmd 1 s)))

/-- DOZE, PARK, WAKE, writes of PWR_VLIM, PWR_THERM, PWR_WAKE_AT, SYS_LOCK, PIN_BANK_CFG, MEM_CTL, TIME_TBSYNC, LANE_CFG, a full SYS_RESET,
START_FULL, a ledger acknowledgement, the stop of a bank test, TILE_TEST and FUSE_RETIRE from ports 1 to 3 after release complete with
DENIED and change nothing else. (R457, R598, R528, R571, R438, R367, R287, R551, R248) -/
def Obligations.TenantsAreDenied : Prop :=
  ∀ (s : State) (p : Fin 4) (v : Word) (k : Fin 8) (n : Fin 64) (m : BitVec 2) (d : Byte) (c : Instr), p ≠ 0 → beforeRelease s = false →
    c ∈ [Instr.doze p, .park p, .wake p, .pwrVlimWrite p v, .pwrThermWrite p v, .pwrWakeAtWrite p v, .sysLockWrite p v,
      .sysResetFull p v m d, .startFull p, .ledgerAckWrite p v, .pinBankCfgWrite p k v, .memCtlWrite p v,
      .bankTestStop p, .tbsyncEnWrite p v, .tileTest p v, .fuseRetire p v, .laneCfgWrite p n v] →
    exec c s = .next (s.stat stDenied)

/-- While a full load runs or has failed, the listed register commands of DST, LANE, TIME, PIN, MEM, HLK, OBS and SCRUB complete with BUSY
and change nothing; the reads of QD_LAST_CNT, TIME_NOW_LO and MEM_CONF_LO answer BUSY with a zero word. (R509, R515) -/
def Obligations.BusyBeforeRelease : Prop :=
  ∀ (s : State) (p q : Fin 4) (v : Word) (n : Fin 64) (ch : Fin 2048) (b : Fin 8) (hi : Bool) (k : Fin 384) (x : Fin 16) (t : BitVec 12) (m : Fin 88) (c : Instr),
    beforeRelease s = true →
    (c ∈ [Instr.pin p t, .laneEnable p n, .laneDisable p n, .laneSubWrite p ch v, .qdSample p x, .qdClear p x, .pinOutWrite p b hi v,
      .pinSet p b hi v, .functionSwitch p k v, .pinEvtWrite p k v, .batchDataWrite p v, .commit p, .memCtlWrite p v,
      .portRetrain p q, .domainReset p q, .snap p, .tileTest p v, .fuseRetire p v, .ntfRptrWrite p v] → exec c s = .next (s.stat stBusy)) ∧
    (c ∈ [Instr.qdLastCntRead p x, .timeNowRead p, .memConfRead p m] → exec c s = .next (s.finish stBusy [0]))

/-- A write to an address that is not a multiple of 4 answers UNSUPPORTED, one to an address that no chapter assigns RANGE, and neither
changes anything; a write of a register with settings that its checks let through stores its writable bits and completes OK; a write of a
NOTIFY_MASK after release completes OK, changes the writing port's own mask as its access says, no other port's, and no byte of memory.
(R18, R19, R20, R21, R38, R638) -/
def Obligations.RegisterWrites : Prop :=
  ∀ (s : State) (p : Fin 4) (a v : Word),
    (a.toNat % 4 ≠ 0 → exec (.registerWrite p a v) s = .next (s.stat stUnsupported)) ∧
    (a.toNat % 4 = 0 → regAt a.toNat = none → exec (.registerWrite p a v) s = .next (s.stat stRange)) ∧
    (∀ r i j u, a.toNat % 4 = 0 → regAt a.toNat = some (r, i, j) → (servedBlock r.block || !beforeRelease s) = true →
      u = (if servedBlock r.block then s else toBlock r i s) → writeOf p r i j v u = plainWrite p r i j v u →
      isDesc r = false → hasSetting r = true → settingStatus u p r i j v = stOk →
      exec (.registerWrite p a v) s = .next ((putSetting p r i j v u).stat stOk)) ∧
    (∀ r i, ∃ l, toBlock r i s = { s with xng := { s.xng with stopped := l } }) ∧
    (∀ r : Reg, r ∈ [Reg.sysNotifyMask, .cfgNotifyMask, .scrubNotifyMask, .secNotifyMask, .pwrNotifyMask, .plyNotifyMask, .memNotifyMask, .splNotifyMask,
        .laneNotifyMask, .timeNotifyMask, .pinNotifyMask, .hlkNotifyMask, .obsNotifyMask] → a.toNat = r.addr 0 0 → beforeRelease s = false →
      ∃ t, exec (.registerWrite p a v) s = .next t ∧ t.mem = s.mem ∧ t.done = { status := stOk, data := [] } ∧
        t.regP p r 0 0 = written r (s.regP p r 0 0) v ∧ ∀ q : Fin 4, q ≠ p → t.regP q r 0 0 = s.regP q r 0 0)

/-- A notification to a port that does not mask it, while reel memory takes writes, no record of the port is on its way and the queue has
room: where nobody waits at its banks its record stands at 0x1FD0_0000 + p × 0x0004_0000 + 32 × (WPTR mod 8,192), with the code, the domain,
the number, the tick and the items, WPTR rises by 1 and every other byte of memory keeps its value; where somebody waits at its first bank
its words wait there as a write of master 80 + p, and memory and WPTR stand. A full queue takes nothing, LOST rises by 1 (saturating) and
memory is unchanged. While reel memory takes no writes the record waits for it (the model's choice, notes/assumptions/75.md). (R467, R468)
-/
def Obligations.NotificationQueue : Prop :=
  ∀ (s : State) (p : Fin 4) (code dom : Nat) (items : List Word) (w : Word), w = s.regP p .hlkNtfWptr 0 0 →
    (memLive s = true → earlyOf s p = 0 → (w - s.regP p .hlkNtfRptr 0 0).toNat < 8192 →
      (∀ i, i < 4 → waitingMasters s (bankOf ((0x1FD00000 + p * 0x40000 + w.toNat % 8192 * 32) / 8 + i)) = []) → ∀ t, t = queueRecord p code dom items s →
      memBytes t (0x1FD00000 + p * 0x40000 + w.toNat % 8192 * 32) 32 = bytesOfWords (ntfRecord code dom w.toNat s.now items) ∧
      t.regP p .hlkNtfWptr 0 0 = w + 1 ∧
      (∀ a, (a < 0x1FD00000 + p * 0x40000 + w.toNat % 8192 * 32 ∨ 0x1FD00000 + p * 0x40000 + w.toNat % 8192 * 32 + 32 ≤ a) →
        memByte t a = memByte s a)) ∧
    (memLive s = true → earlyOf s p = 0 → (w - s.regP p .hlkNtfRptr 0 0).toNat < 8192 → s.memory.test = none →
      waitingMasters s (bankOf ((0x1FD00000 + p * 0x40000 + w.toNat % 8192 * 32) / 8)) ≠ [] → ∀ t, t = queueRecord p code dom items s →
      t.mem = s.mem ∧ t.regP p .hlkNtfWptr 0 0 = w ∧ ∃ o, t.memory.ops = s.memory.ops.put s.memory.nextOp o ∧ o.master = 80 + p ∧ o.src = .notice p ∧
        o.addr = 0x1FD00000 + p * 0x40000 + w.toNat % 8192 * 32 ∧ o.left = 4) ∧
    (memLive s = false → (w - s.regP p .hlkNtfRptr 0 0).toNat + earlyOf s p < 8192 → queueRecord p code dom items s =
      { s with ntf := { s.ntf with early := s.ntf.early ++ [{ port := p, code := code, dom := dom, time := s.now, items := items }] } }) ∧
    (8192 ≤ (w - s.regP p .hlkNtfRptr 0 0).toNat + earlyOf s p → ∀ t, t = queueRecord p code dom items s →
      t.mem = s.mem ∧ t.regP p .hlkNtfWptr 0 0 = w ∧ t.regP p .hlkNtfLost 0 0 = satAdd (s.regP p .hlkNtfLost 0 0) 1)

/-! ## Fabric -/

/-- In a running tile, each where its condition holds: a function cell puts TABLE[index] in its latch and acknowledges its used inputs; a
merge cell forwards the token of the side it serves as TABLE[2 × side + value], an arbiter cell that of the side it grants, which is the
side whose request has waited where one side's alone has; a source cell refills its latch with SRCVAL and a sink cell acknowledges its
inputs. Which side an arbiter grants at a tie is a free value (notes/assumptions/4.md). (R53, R55, R56, R57, R58) -/
def Obligations.LogicCells : Prop :=
  ∀ (s : State) (t : Fin 4096) (c : Fin 64), running s t = true →
    (cellMode s t c = 0 → inputsReady s t c = true → latchReady s t c = true →
      exec (.functionCellEvaluate t c) s = .next (settle t (raiseAcks
        (s.onTile t (fun x => { x with latch := x.latch.put c (cellTable s t c (cellIndex s t c)) })) t (usedSinks s t c)))) ∧
    (∀ (side : Nat) (v : Bool), cellMode s t c = 1 → latchReady s t c = true → mergeSide s t c = some (side, v) →
      exec (.mergeForward t c) s = .next (settle t (raiseAcks
        ((s.onTile t (fun x => { x with mergeBoth := x.mergeBoth || bothHold s t c,
                                        mergeOwe := putNat c (bothHold s t c && side == 0) x.mergeOwe })).onTile t
          (fun x => { x with latch := x.latch.put c (cellTable s t c (2 * side + b2n v)) })) t [6 * c + side]))) ∧
    (∀ (tie : Bool) (side : Nat) (v : Bool) (s1 : State), cellMode s t c = 2 → latchReady s t c = true → arbSide s t c tie = some (side, v) →
      s1 = (if tie = true ∧ bothHold s t c = true then s.nextFree else s) →
      exec (.arbiterGrant t c tie) s = .next (settle t (raiseAcks
        ((s1.onTile t (fun x => { x with lastGrant := x.lastGrant.put c (side == 1),
                                         arbWait := if bothHold s t c then insertNat (6 * c + (1 - side)) x.arbWait else x.arbWait })).onTile t
          (fun x => { x with latch := x.latch.put c (cellTable s t c (2 * side + b2n v)) })) t [6 * c + side]))) ∧
    (∀ (tie v w : Bool) (k : Fin 2), tokenOn s t (6 * c) = some v → tokenOn s t (6 * c + 1) = some w →
      (tileSt s t).arbWait.contains (6 * c + k) = true → (tileSt s t).arbWait.contains (6 * c + (1 - k)) = false →
      arbSide s t c tie = some (k.val, if k = 0 then v else w)) ∧
    (cellMode s t c = 3 → latchReady s t c = true →
      exec (.sourceRefill t c) s = .next (settle t (raiseAcks
        (s.onTile t (fun x => { x with latch := x.latch.put c (bitOf (cellCtl s t c) 11) })) t []))) ∧
    (cellMode s t c = 4 → inputsReady s t c = true →
      exec (.sinkAcknowledge t c) s = .next (settle t (raiseAcks s t (usedSinks s t c))))

/-- In a running tile: a write that is due at a RAM port stores its word at its address and no other; a read that is due leaves the RAM, the
registers and reel memory as they were; a MAC operation puts A × B into its accumulator under CTL and leaves the other's alone; a push
enters the entry while the queue has room, meets a taken head at full after the pop, is discarded with Qn_OVR in drop mode at full where no
head is taken, meets no pop where the pointers disagree, and acknowledges its bundle; a pop takes the oldest entry; a constant select
presents its token again. (R62, R66, R67, R68, R69, R70, R75) -/
def Obligations.HardBlocks : Prop :=
  ∀ (s : State) (t : Fin 4096), running s t = true →
    (∀ (b met : Bool) (a : Nat) (w : Word), ramWaiting s t b = some (a, w, true) → ramDue s t b met (a, w, true) = true →
      ∃ u, exec (.ramPortOperation t b met) s = .next u ∧ (tileSt u t).ram.get 0 a = w ∧
        ∀ k, k ≠ a → (tileSt u t).ram.get 0 k = (tileSt s t).ram.get 0 k) ∧
    (∀ (b met : Bool) (a : Nat) (w : Word), ramWaiting s t b = some (a, w, false) → ramDue s t b met (a, w, false) = true →
      (tileSt s t).ramBad.contains a = false →
      ∀ s1, s1 = emit s t (32 * b2n b) 32 ((tileSt s t).ram.get 0 a).toNat →
      exec (.ramPortOperation t b met) s = .next (settle t (raiseAcks
        (if b then s1.onTile t (userServed (winWaiting s t).isSome) else s1) t (bundleSinks s t (44 * b2n b) 44)))) ∧
    (∀ (m : Fin 2) (v : Nat), bundle s t (88 + 39 * m) 39 = some v → v / 2 ^ 36 % 8 < 4 →
      ∃ u, exec (.macOperation t m) s = .next u ∧
        (if m = 0 then (tileSt u t).acc0 else (tileSt u t).acc1) =
          macNext (v / 2 ^ 36 % 8) (if m = 0 then (tileSt s t).acc0 else (tileSt s t).acc1)
            (macProduct (bitOf (hbMode s t) (3 + m)) (v % 2 ^ 18) (v / 2 ^ 18 % 2 ^ 18)) ∧
        (if m = 0 then (tileSt u t).acc1 else (tileSt u t).acc0) = (if m = 0 then (tileSt s t).acc1 else (tileSt s t).acc0)) ∧
    (∀ (q : Fin 2) (v : Nat), bundle s t (166 + 36 * q) 36 = some v → tileQOk s t q = true →
      (tileQ s t q).items.length < 32 →
      exec (.queuePush t q) s = .next (settle t (raiseAcks (s.setTileQ t q ((tileQ s t q).push 32 (BitVec.ofNat 36 v))) t
        (bundleSinks s t (166 + 36 * q) 36)))) ∧
    (∀ (q : Fin 2) (v : Nat), bundle s t (166 + 36 * q) 36 = some v → tileQOk s t q = true →
      32 ≤ (tileQ s t q).items.length → bitOf (hbMode s t) q = true → headTaken s t (outQ s t q) = false →
      exec (.queuePush t q) s = .next (settle t (raiseAcks (s.setTileQ t q { tileQ s t q with ovr := true }) t
        (bundleSinks s t (166 + 36 * q) 36)))) ∧
    (∀ q : Fin 2, (32 ≤ (tileQ s t q).items.length → tileQOk s t q = true →
        exec (.queuePush t q) s = .next (takePush t q (popTileQ t (outQ s t q) s))) ∧
      (tileQOk s t q = false → exec (.queuePush t q) s = .next (takePush t q s))) ∧
    (∀ (q : Fin 2) (v : BitVec 36) (rest : List (BitVec 36)), (tileQ s t q).items = v :: rest → headTaken s t q = true →
      tileQOk s t q = true →
      exec (.queuePop t q) s = .next (settle t ((s.setTileQ t q ((tileQ s t q).pop 32)).onTile t
        (fun x => if q = 0 then { x with shown0 := false } else { x with shown1 := false })))) ∧
    (∀ k : Fin 544, constDue s t k = true →
      exec (.constantSelectRepeat t k) s = .next (settle t (s.onTile t (fun x => { x with constIdle := removeNat k x.constIdle }))))

/-- Cells, constants, MACs and sound queues, when they answer a next state, change the tiles' tokens, latches, accumulators and queues
alone: no tile's RAM, no register, no byte of reel memory, nothing else of the part; a tie at an arbiter also takes the next free value
(notes/assumptions/4.md). (R53, R55, R56, R57, R62, R69, R70) -/
def Obligations.FabricFrame : Prop :=
  ∀ (s u : State) (t : Fin 4096) (c : Fin 64) (q : Fin 2) (k : Fin 544) (i : Instr),
    (i ∈ [Instr.functionCellEvaluate t c, .mergeForward t c, .arbiterGrant t c false, .arbiterGrant t c true, .sourceRefill t c, .sinkAcknowledge t c,
      .constantSelectRepeat t k, .macOperation t q] ∨ (i ∈ [Instr.queuePush t q, .queuePop t q] ∧ tileQOk s t q = true)) → exec i s = .next u →
    u = { s with fab := { s.fab with tiles := u.fab.tiles }, fresh := if i = .arbiterGrant t c true then u.fresh else s.fresh } ∧
      ∀ j, (tileSt u j).ram = (tileSt s j).ram

/-- RX delivers the words of a packet under way in turn. The arrival word holds [31:16] SRC, [15:12] STATUS, [11:8] OP, [7] 0, [6:0] TAG;
the LEN payload words follow in order; RX_END is set on the last word alone, the arrival word itself when LEN is 0; RX_SLOT carries the
header's SLOT and RX_RESP the VC, on every word. (R126) -/
def Obligations.RxWords : Prop :=
  ∀ (p : Packet) (i : Nat) (w : Nat), i ≤ p.words.length → w = rxWord p i →
    (i = 0 → w / 2 ^ 16 % 2 ^ 16 = p.src.toNat ∧ w / 2 ^ 12 % 16 = p.status.toNat ∧ w / 2 ^ 8 % 16 = p.op.toNat ∧ w / 2 ^ 7 % 2 = 0 ∧
      w % 2 ^ 7 = p.tag.toNat) ∧
    (∀ j, i = j + 1 → w % 2 ^ 32 = (p.words.getD j 0).toNat) ∧
    (w / 2 ^ 32 % 2 = 1 ↔ i = p.words.length) ∧ w / 2 ^ 33 % 32 = p.slot.toNat ∧ (w / 2 ^ 38 % 2 = 1 ↔ p.vc = true) ∧
    (∀ (s : State) (t : Fin 4096), running s t = true → rxEnabled s t = true → resultFree s t 232 39 = true →
      (tileSt s t).ifc.rx = some { pkt := p, idx := i } →
      exec (.rxDelivery t) s = .next (settle t ((emit s t 232 39 w).onIfc t (fun x => { x with rx := some { pkt := p, idx := i + 1 } }))))

/-- In a running tile: a word offered on TX without LAST joins the packet being assembled, and with LAST the packet, of an OP below 7, goes
to the injection port; an arrival is offered on RX with its arrival word first; a window word that is due, and not the last of its packet,
is written to tile RAM or read from it; a rail error at an input is recorded, counted and raised with the input's name (for a hard block's
pin the name is the model's choice, notes/assumptions/65.md). (R50, R72, R73, R74, R75, R76, R125, R126, R131) -/
def Obligations.TilePorts : Prop :=
  ∀ (s : State) (t : Fin 4096), running s t = true →
    (∀ v l, txEnabled s t = true → bundle s t 238 33 = some v → logicalAt s t = some l → v / 2 ^ 32 % 2 = 0 →
      (tileSt s t).ifc.txOver = false → (tileSt s t).ifc.txWords.length < 19 →
      exec (.plyTxPacket t) s = .next (settle t (raiseAcks (s.onIfc t (fun x =>
        { x with txWords := (tileSt s t).ifc.txWords ++ [w32 v], txOver := false })) t (bundleSinks s t 238 33)))) ∧
    (∀ v l p, txEnabled s t = true → bundle s t 238 33 = some v → logicalAt s t = some l → v / 2 ^ 32 % 2 = 1 →
      (tileSt s t).ifc.txOver = false → (tileSt s t).ifc.txWords.length < 19 →
      p = packetOf (((tileSt s t).ifc.txWords ++ [w32 v]).headD 0) l (tileDom s l) (((tileSt s t).ifc.txWords ++ [w32 v]).drop 1) →
      p.op.toNat < 7 → assembled s t < 2 →
      exec (.plyTxPacket t) s = .next (settle t (raiseAcks
        (queueOut (5 * t + 4) p (s.onIfc t (fun x => { x with txWords := [], txOver := false }))) t (bundleSinks s t 238 33)))) ∧
    (∀ p x, rxEnabled s t = true → (tileSt s t).ifc.rx = none → resultFree s t 232 39 = true →
      rxNext (tileSt s t).ifc = some (p, x) →
      exec (.rxDelivery t) s = .next (settle t (emit (s.onIfc t (fun _ => { x with rx := some { pkt := p, idx := 1 } })) t 232 39
        (rxWord p 0)))) ∧
    (∀ met w x a, winStart s t = some (w, x) → w.pkt.op ≠ 2 → winOk w.pkt = true → a = fld (w.pkt.words.getD 0 0) 10 0 + w.idx →
      winDue s t met a true = true → w.idx + 1 < winWords w.pkt →
      exec (.tileRamWindowWrite t met) s = .next ((ramPut t a (w.pkt.words.getD (1 + w.idx) 0)
        (s.onTile t (winServed (ramWaiting s t true).isSome))).onIfc t
          (fun _ => { x with win := some { w with idx := w.idx + 1, acc := [] } }))) ∧
    (∀ met w x a, winStart s t = some (w, x) → w.pkt.op = 2 → winOk w.pkt = true → a = fld (w.pkt.words.getD 0 0) 10 0 + w.idx →
      winDue s t met a false = true → w.idx + 1 < winWords w.pkt → (tileSt s t).ramBad.contains a = false →
      exec (.tileRamWindowRead t met) s = .next ((s.onTile t (winServed (ramWaiting s t true).isSome)).onIfc t
          (fun _ => { x with win := some { w with idx := w.idx + 1, acc := w.acc ++ [(tileSt s t).ram.get 0 a] } }))) ∧
    (∀ l (k : Fin 544) s1 pin, logicalAt s t = some l → inputName s t k = some pin → selOf s t k ≠ 0xFF →
      (tileSt s t).railBad.contains k.val = false →
      s1 = (s.onTile t (fun x => { x with railBad := insertNat k x.railBad, railErr := true })).bump .fabRailCount 0 1 →
      exec (.railError t k) s = .next (notify 0x6B (tileDom s1 l) [w32 l, w32 pin] s1))

/-! ## Ply network -/

/-- A packet of at most 18 payload words makes 1 + ceil(LEN / 2) flits: a header flit with the header word and the route word, then two
payload words to a flit, the last upper half 0 where LEN is odd; and the flits spell the packet again (the model's own notes of a packet are
its order of arrival, which is given at its exit, and an event's report, which its payload carries). (R121, R122, R123) -/
def Obligations.PacketFlits : Prop :=
  ∀ (p : Packet) (exit : Nat), p.words.length ≤ 18 →
    (flitsOf p exit).length = 1 + (p.words.length + 1) / 2 ∧
    (∃ f rest, flitsOf p exit = f :: rest ∧ lo32 f.bits = headerWord p ∧ hi32 f.bits = routeWord p ∧
      (∀ (k : Nat) (g : Flit), rest[k]? = some g → lo32 g.bits = p.words.getD (2 * k) 0 ∧ hi32 g.bits = p.words.getD (2 * k + 1) 0)) ∧
    packetFrom (flitsOf p exit) = some { p with seq := 0, rep := if p.words = [] then { } else p.rep }

/-- Away from its exit a packet goes along the row first, then along the column; each hop leaves it on a neighbour that is one hop nearer;
at the exit's router it takes the exit's own side. (R116, R132) -/
def Obligations.DimensionOrder : Prop :=
  ∀ (r : Fin 4096) (e : Nat), e < 20480 →
    (nextSide r e ∈ [1, 3] ↔ colOf r ≠ colOf (e / 5) ∨ (r.val = e / 5 ∧ e % 5 ∈ [1, 3])) ∧
    (r.val ≠ e / 5 → nextSide r e < 4 ∧ neighbour r (nextSide r e) < 4096 ∧
      hops (neighbour r (nextSide r e)) (e / 5) + 1 = hops r (e / 5)) ∧
    (r.val = e / 5 → nextSide r e = e % 5)

/-- A packet that may enter a lane leaves its injection queue and enters; a flit that the round of turns picks moves on; a parked packet
whose destination is no longer fenced enters its lane; the last flit at an endpoint attachment delivers the packet that was being gathered.
(R117, R123, R132, R133, R134, R137, R138, R139, R140, R142) -/
def Obligations.Routers : Prop :=
  (∀ (s s1 : State) (r : Fin 4096) (side : Fin 5) (vc : Bool) (d : Fin 4) (p : Packet) (rest : List Packet) (k : Nat),
    k = laneKey (5 * r + side) vc d → coreLive s = true → copyingPort s (5 * r + side) = false →
    (plane s k).out = p :: rest → senderDom s p = d → p.dom = d → (holdQ s (5 * r + side) d).wait.any (· != vc) = false →
    reserve p s = some s1 → injectStatus s p = none → mustPark s (5 * r + side) p = false → (plane s k).rest = [] →
    exec (.packetInjection r side vc d) s = .next (hostInjected p (slotEntered p (tallyInject p
      (enterLane (5 * r + side) p ((s1.setPlane k { plane s1 k with out := rest }).setHold (5 * r + side) d
        { holdQ s (5 * r + side) d with wait := none })))))) ∧
  (∀ (s : State) (r : Fin 4096) (out : Fin 5) (vc : Bool) (d i : Nat) (turns : Nat → Nat) (f : Flit) (a : OutArb),
    coreLive s = true → a = outArb s (5 * r + out) →
    (List.range 4).any (laneReady s r out vc) = true → (List.range 4).any (laneReady s r out (!vc)) = false →
    roundPick s (fun d => a.left.get 0 (4 * b2n vc + d)) (laneReady s r out vc) = some (d, turns) →
    inputFor s r out vc d = some i → headFor s r out i vc d = some f →
    exec (.flitAdvance r out) s = .next (moveFlit r out i vc (Fin.ofNat 4 d) f
      (tally 3 r (if out.val != 4 && leaves? r out then 5 else out) (s.setOutArb (5 * r + out)
        { a with lastVc := vc, left := putTurns a.left (b2n vc) turns,
                 cur := if f.tail then a.cur.erase (4 * b2n vc + d)
                   else a.cur.put (4 * b2n vc + d) (8 * (65536 * f.exit + f.src.toNat) + i),
                 last := a.last.put (4 * b2n vc + d) i, busy := a.busy + 1 })))) ∧
  (∀ (s : State) (r : Fin 4096) (side : Fin 5) (d : Fin 4) (p : Packet), coreLive s = true →
    (holdQ s (5 * r + side) d).pkts.find? (fun q => match target q.dest.toNat with
      | .tile l => !fenced s l
      | _ => true) = some p →
    (plane s (laneKey (5 * r + side) p.vc p.dom)).rest = [] → injectStatus s p = none →
    exec (.holdQueueForward r side d) s = .next (enterLane (5 * r + side) p (s.setHold (5 * r + side) d
      { holdQ s (5 * r + side) d with pkts := (holdQ s (5 * r + side) d).pkts.erase p }))) ∧
  (∀ (s : State) (r : Fin 4096) (side : Fin 5) (t : Target) (a : Nat) (e : RingEnt) (rest : List RingEnt) (p : Packet) (k : Nat),
    attachedAt (5 * r + side) = some (t, a) → ring s (5 * r + side) = e :: rest → k = laneKey (5 * r + side) e.vc e.dom →
    (xing s (attachXing t a)).absent = false → s.xng.stopped.contains (attachIsland t) = false →
    attachFull s (5 * r + side) t e.vc = false → asmOf s k ≠ [] → e.flit.tail = true →
    packetFrom (asmOf s k ++ [e.flit]) = some p →
    exec (.bundleEntryTaken r side) s = .next (landAttach t a (5 * r + side) p
      (({ s with ply := { s.ply with ring := s.ply.ring.set [] (5 * r + side) rest } }).setAsm k [])))

/-! ## Distaff -/

/-- A decision whose edges stay apart fences the instance and sends its seals; a quiescent instance begins to be copied; an instance that is
not quiescent in time aborts its migration with FAULT; a clean copy commits; the cleared source ends the migration, which is raised with its
reason, its places and its time. A halted scrubber reads no frame: a copy meets FAULT and held wires stay held (the model's choice,
notes/assumptions/90.md). (R171, R172, R173, R174, R176) -/
def Obligations.MigrationSteps : Prop :=
  ∀ (s : State) (m : Mig) (i : Inst), s.dst.mig = some m → instAt s m.base = some i →
    (m.step = 0 → edgesApart s (rect i.w i.h m.col m.row) = true →
      exec .migrationDecision s = .next (sendSeals i (setFence i true (s.onDst (fun d => { d with mig := some { m with step := 2 } }))))) ∧
    (m.step = 2 → quiescent s i = true →
      exec .instanceQuiescent s = .next (s.onDst (fun d => { d with mig := some { m with step := 4 } }))) ∧
    (m.step = 2 → quiescent s i = false → exec .quiescenceTimeout s = .next (serveFailing (abortMig stFault true s))) ∧
    (m.step = 4 → s.scrub.state = 2 → exec (.migrationCopyDone none) s = .next (serveFailing (abortMig stFault false s))) ∧
    (∀ s1, m.step = 4 → s.scrub.state ≠ 2 → (instTiles i).foldl (fun (a : Bool × State) t =>
        ((a.1 && (readSource t a.2).1), (readSource t a.2).2)) (true, s) = (true, s1) →
      exec (.migrationCopyDone none) s = .next (commitMig m i s1)) ∧
    (m.step = 6 → ∀ s2 s3, m.test = none → m.pinAfter = none →
      s2 = forEach (rect i.w i.h m.oldCol m.oldRow) clearTile (if s.scrub.state = 2 then s else forEach (s.fab.held.filter (fun id =>
        (rect i.w i.h m.oldCol m.oldRow).contains (wireAt id).1 || (rect i.w i.h m.oldCol m.oldRow).contains (wireFar id)))
        releaseWire s) →
      s3 = lastMig m stOk (s2.onDst (fun d => { d with mig := none })) →
      exec .sourceTilesCleared s = .next (serveFailing (notify 0x50 (instDom s3 i)
        [w32 m.base, w32 m.reason.toNat, cornerItem m.oldCol m.oldRow, cornerItem m.col m.row,
         w32 ((s3.now - m.start).toNat / 12800)] s3)))

/-- From a port that may give them, while the port's last command has ended and the part is released: PIN and UNPIN set and clear the
instance's pin, MIGRATE starts the migration to the place that its check finds, RETIRE_TILE (the owner's) fails the tile named in
DST_CMD_ARG, UNRETIRE (the owner's) takes a runtime entry off the list. (R198, R199, R200, R201) -/
def Obligations.DistaffCommands : Prop :=
  ∀ (s : State) (p : Fin 4) (i : BitVec 12) (x : Inst), beforeRelease s = false → dstBusy s p = false →
    mayCommand s p i.toNat = true → instAt s i.toNat = some x →
    exec (.pin p i) s = .next (dstDone p 1 stOk (setPin i.toNat true s)) ∧
    exec (.unpin p i) s = .next (dstDone p 2 stOk (setPin i.toNat false s)) ∧
    (∀ st c r, migrateCheck s x (s.regP p .dstCmdArg 0 0) = (st, some (c, r)) →
      exec (.migrate p i) s = .next (((startMig x 5 c r (some p) none s).setRegP p .dstCmdStat 0 0
        (w32 (place 31 1 1 + place 30 1 1 + place 4 4 3))).stat stOk)) ∧
    (∀ t, p = 0 → t = fld (s.regP p .dstCmdArg 0 0) 11 0 → retired s t = false → s.dst.retRt.length < 256 →
      exec (.retireTile p) s = .next (dstDone p 4 stOk (failTile t 0 s))) ∧
    (∀ t, p = 0 → t = fld (s.regP p .dstCmdArg 0 0) 11 0 → s.sec.fuses.retired.contains t = false →
      s.dst.retRt.any (fun e => e.tile == t) = true →
      exec (.unretire p) s = .next (dstDone p 5 stOk
        (s.onDst (fun d => { d with retRt := d.retRt.filter (fun e => e.tile != t) }))))

/-- A policy evaluation takes the readings, evaluates every instance on them, reports pinned pressure and starts at most one move; at an
edge wire that two tiles drive, outside a migration, the wire is held and the tiles and their frames stand as they were. (R83, R181, R182,
R183, R184, R185) -/
def Obligations.PolicyAndCollision : Prop :=
  (∀ (s s1 s2 : State) (temps : List Byte), s1 = tally 7 0 2 (s.onDst (fun d => { d with temps := temps })) →
    s2 = policyMove (pinPressure (retryFailing (s1.onDst (fun d => { d with insts := d.insts.map (evalInst s1) })))) →
    exec (.policyEvaluation temps) s = .next (s2.onDst (fun d =>
      { d with hot := hotGroups s2, lastStall := d.grpStall, grpAcc := [], grpStall := [], swapAge := min (d.swapAge + 1) 2 }))) ∧
  (∀ (s : State) (t : Fin 4096) (e : Bool) (w : Fin 8) (id : Nat), id = wireId t (if e then 8 + w.val else w.val) →
    colliding s t (if e then 8 + w.val else w.val) = true → id ∉ s.fab.held → coreLive s = true → s.dst.mig = none →
    ∃ u, exec (.edgeCollision t e w) s = .next u ∧ id ∈ u.fab.held ∧ u.dst.mig = none ∧
      u.fab.tiles = s.fab.tiles ∧ u.fab.cfg = s.fab.cfg)

/-! ## Reel memory and crossings -/

/-- A request of the row's kind, which the rounds of turns pick among those that can go on, in the group's reach and allowed to its domain,
has room in its bank queues: it is taken from the attachment and its word requests join the bank queues. (R117, R118, R130, R341, R344,
R349, R350, R352) -/
def Obligations.MemGateways : Prop :=
  ∀ (s : State) (g : Fin 16) (k : Fin 4) (c : Instr) (ops : List (BitVec 4)) (p : Packet),
    (c, ops) ∈ [(Instr.memGatewayRd g k, [2]), (Instr.memGatewayWr g k, [3, 4]), (Instr.memGatewaySet g k, [5]),
      (Instr.memGatewayClr g k, [6])] →
    nextReqIf (gwGoes s g) s (portOf s (.mem g) k) = some p → ops.contains p.op = true → s.memory.vret = false → gwRange g p = true →
    memAllowed s false p.dom.val (p.op != 2) ((p.words.getD 0 0).toNat % 0x20000000) = true → s.memory.initDone = true →
    bankRoom s (64 + g) (1 + p.dom.val) ((p.words.getD 0 0).toNat % 0x20000000) (fld (p.words.getD 1 0) 6 0) = true ∧
    exec c s = .next (startOp { kind := gwKind p, master := 64 + g, dom := p.dom, src := .ply p (portOf s (.mem g) k),
                                addr := (p.words.getD 0 0).toNat % 0x20000000, count := fld (p.words.getD 1 0) 6 0,
                                left := 0, got := [], status := stOk, refused := false }
      (bytesOfWords (p.words.drop 2)) (takeReqIf (gwGoes s g) (portOf s (.mem g) k) s))

/-- A bank's slot goes to the turn that is picked there, a word under test is served beside it, and a lane writer that was granted a slot
writes with it (how slots pass between commands is the model's choice, notes/assumptions/74.md); a corrected word is written back;
initialisation clears every word and the recorded errors, and the notifications held until then are written; a background region test starts
when its turn comes and one that passes ends; a bank test goes to its next region; a group that has been idle long enough enters retention,
and a woken group with nothing to serve leaves it. (R343, R347, R352, R353, R357, R358, R362, R363, R364) -/
def Obligations.MemoryBanks : Prop :=
  ∀ s : State,
    (∀ (g b : Fin 16) (t : Turn) (s1 : State), memLive s = true → s.xng.stopped.contains 192 = false → retained s g = false →
      shadowTurn s (16 * g + b) = none → pickSlot s (16 * g + b) none = some t → s1 = enterRet g (serveTurn (16 * g + b) t [] s) →
      exec (.reelWordAccess g b) s = .next (forEach (s1.lanes.map (·.1)) spendSlot s1)) ∧
    (∀ (g b : Fin 16) (t : Turn) (s1 : State), memLive s = true → s.xng.stopped.contains 192 = false → retained s g = false →
      shadowTurn s (16 * g + b) = some t → s1 = enterRet g (serveOne (16 * g + b) t [] s) →
      exec (.reelWordAccess g b) s = .next (forEach (s1.lanes.map (·.1)) spendSlot s1)) ∧
    (∀ (g b : Fin 16) (w : Nat) (rest : List Nat), s.memory.fixq.get [] (16 * g + b) = w :: rest → memLive s = true →
      s.memory.ret.contains g.val = false →
      exec (.correctedWriteBack g b) s = .next (putReel w (trueData s w) s)) ∧
    (s.memory.initDone = false → ∃ u, u.memory.initDone = true ∧ u.memory.err = [] ∧ u.mem = [] ∧ u.regs = s.regs ∧ u.host = s.host ∧
      exec .memoryInitDone s = .next (writeEarly u)) ∧
    (∀ n, bitOf (s.reg .memCtl 0) 31 = true → s.memory.initDone = true → s.memory.vret = false → s.memory.test = none →
      bgRegion s 17 s.memory.bgNext = some n →
      exec .regionTestStart s = .next (startRegion (n / 16 % 16) (n % 16) (n / 256) false
        (s.onMem (fun m => { m with bgNext := (n + 1) % 2097152 })))) ∧
    (∀ t, s.memory.test = some t → t.requested = false →
      exec (.regionTestEnd false) s = .next (enterRet t.group (tallyN 4 t.group 3 192 (s.onMem (fun m => { m with test := none }))))) ∧
    (∀ t, s.memory.bankTest = some t → s.memory.test = none → memLive s = true → s.memory.ret.contains t.group = false → t.next < 8192 →
      exec .bankTestRegionTimer s = .next (startRegion t.group t.bank t.next true
        (s.onMem (fun m => { m with bankTest := some { t with next := t.next + 1 } })))) ∧
    (∀ g : Fin 16, 2 ^ 20 ≤ (s.now - s.memory.lastUse.get 0 g).toNat → exec (.groupIdleTimeout g) s = .next (enterRet g s)) ∧
    (∀ g : Fin 16, s.memory.waking.contains g.val = true → (∀ b, (bank s (16 * g + b)).reqs = []) →
      exec (.groupWakeDone g) s = .next (s.onMem (fun m =>
        { m with ret := removeNat g m.ret, waking := removeNat g m.waking, lastUse := m.lastUse.set 0 g s.now,
                 woken := if bitOf (s.reg .memCtl 0) g then insertNat g m.woken else m.woken })))

/-- After release the owner starts and stops a bank test and writes MEM_CTL; a read of MEM_CONF_LO by a port that may gives the low half of
the conflict counter, as the crossing last accepted it, and latches the high half, with FAULT while the crossing is unstable; a crossing
that is neither unstable nor absent gives the counter itself. (R354, R362, R367, R369, R370, R371, R376) -/
def Obligations.MemoryCommands : Prop :=
  ∀ s : State, beforeRelease s = false →
    (∀ (g b : Fin 16) (t : BankTest), s.memory.bankTest = none → s.memory.vret = false → s.memory.ret.contains g.val = false →
      t = { group := g, bank := b, next := 0, fails := 0, done := 0 } →
      exec (.bankTestStart 0 g b) s = .next ((((wakeIsl 3 0 s).onMem (fun m => { m with bankTest := some t })).setReg .memTestStat 0
        (testStat t true stOk)).stat stOk)) ∧
    (∀ t, s.memory.bankTest = some t → exec (.bankTestStop 0) s = .next ((bankTestEnd t stStale (wakeIsl 3 0 s)).stat stOk)) ∧
    (∀ v, exec (.memCtlWrite 0 v) s = .next (memCtl v s)) ∧
    (∀ (p : Fin 4) (m : Fin 88) (l : List Word), (p = 0 ∨ m.val = 80 + p.val) → l = accepted s 3 0 →
      exec (.memConfRead p m) s = .next (((wakeIsl 3 0 s).setRegP p .memConfHi m 0 (l.getD (2 * m + 1) 0)).finish
        (if unstable s 3 0 then stFault else stOk) [l.getD (2 * m) 0]) ∧
      (s.xng.xings.any (fun e => valueOf 3 0 e.1 && (e.2.unstable || e.2.absent)) = false →
        l.getD (2 * m) 0 = (s.memory.conf.get 0 m).setWidth 32 ∧ l.getD (2 * m + 1) 0 = ((s.memory.conf.get 0 m) >>> 32).setWidth 32))

/-- An unstable value crossing is recorded, counted and raised once and keeps the value last accepted; a pulse is delivered, held while
another is under way, passed over at a stopped island that counts the tick itself, and otherwise held while the island wakes, and the end of
its delivery delivers the next; an idle island's clock stops; a wake request starts it and changes nothing else; the crossings of an island
that is out of reset are present. (R377, R378, R382, R384, R385, R386, R387, R389, R390, R392) -/
def Obligations.CrossingEvents : Prop :=
  ∀ s : State,
    (∀ x : XId, keyKind (xidKey x) = 1 → (xing s (xidKey x)).unstable = false →
      exec (.xingUnstable x) s = .next (notifyOwner 0x67 0 (xingItems (xidKey x)) (xingLast 0 (xidKey x)
        ((s.setXing (xidKey x) { xing s (xidKey x) with
            unstable := true, last := if (xing s (xidKey x)).absent then (xing s (xidKey x)).last
              else xingWords s (keyIsl (xidKey x)) (keyIdx (xidKey x)) }).bump .fabXingUnstable 0 1)))) ∧
    (∀ (x : XId) (k : Nat), x.kind = 2 → k = xidKey x →
      ((xing s k).absent = true → exec (.pulseArrival x) s = .next s) ∧
      ((xing s k).absent = false → toStopped s k = false → (xing s k).busy = false → (xing s k).pending = 0 →
        exec (.pulseArrival x) s = .next (deliverPulse k (s.setXing k { xing s k with busy := true }))) ∧
      ((xing s k).absent = false → toStopped s k = false → (xing s k).busy = true ∨ (xing s k).pending ≠ 0 →
        exec (.pulseArrival x) s = .next (holdPulse k s)) ∧
      ((xing s k).absent = false → toStopped s k = true → exec (.pulseArrival x) s =
        .next (if tickPulse k then s else holdPulse k (wakeIsl (keyIsl k) (keyIdx k) s))) ∧
      (xingPin k = none → (xing s k).busy = true → (xing s k).pending = 0 →
        exec (.pulseDeliveryDone x) s = .next (s.setXing k { xing s k with busy := false })) ∧
      (xingPin k = none → (xing s k).pending ≠ 0 → exec (.pulseDeliveryDone x) s = .next (deliverPulse k (s.setXing k
        { xing s k with busy := true, pending := (xing s k).pending - 1, overrun := (xing s k).overrun && (xing s k).pending != 1 })))) ∧
    (∀ i : Isl, islandIdle s i.code.val i.index.val = true →
      exec (.islandClockStop i) s = .next { s with xng := { s.xng with stopped := insertNat (islNum i) s.xng.stopped } }) ∧
    (∀ i : Isl, ∃ u, exec (.wakeRequest i) s = .next u ∧ islNum i ∉ u.xng.stopped ∧
      u = { s with xng := { s.xng with stopped := u.xng.stopped } } ∧ ∀ k ∈ s.xng.stopped, k ≠ islNum i → k ∈ u.xng.stopped) ∧
    (∀ i : Isl, inReset s i = false → exec (.crossingPresent i) s = .next (forEach s.xng.xings (fun e s =>
      if keyIsl e.1 = i.code.val ∧ keyIdx e.1 = i.index.val
        then s.setXing e.1 { e.2 with absent := false, last := if e.2.unstable then e.2.last else [] } else s) s))

/-! ## Lanes -/

/-- In a lane in RUN with block lock that drops no frame, a received block is descrambled and noted; a header, event or gap block then acts
by its rule; a TRAIN block counts as a frame error and towards the four that retrain; an IDLE block ends that count. (R213, R214, R215,
R216, R217, R219, R227) -/
def Obligations.LaneBlocks : Prop :=
  ∀ (s s1 : State) (n : Fin 64) (payload d : DWord) (scr : BitVec 58), listening (lane s n) = true →
    descramble (lane s n).scr payload = (d, scr) →
    s1 = tally 1 n 1 (s.setLane n ({ lane s n with scr := scr, cdr := true }.note true false)) →
    (lane s1 n).lock = true → (lane s1 n).state = 3 → (lane s1 n).skip = false →
    (blockType d = 0x78 → exec (.headerBlock n payload) s = .next (runHeader n d s1)) ∧
    exec (.eventBlock n payload) s = .next (runEvents n d s1) ∧
    (blockType d = 0x33 → exec (.gapBlock n payload) s = .next (runGap n d s1)) ∧
    (blockType d = 0x2D → exec (.trainBlock n payload) s =
      .next (countFrameErr n (s1.onLane n (fun x => { x with trains := x.trains + 1 })))) ∧
    (blockType d = 0x1E → exec (.idleBlock n payload) s = .next (s1.onLane n (fun x => { x with trains := 0 })))

/-- 64 good blocks give block lock; an invalid sync header in RUN is a block error and drops the frame; lock is lost after 16 errors and is
raised; four missing echoes lose the pulse, which is raised. (R225, R226, R227, R236) -/
def Obligations.LaneFaults : Prop :=
  ∀ (s : State) (n : Fin 64) (x : LaneSt), x = lane s n → listening x = true →
    (x.lock = false → 64 ≤ x.good → exec (.blockLock n) s = .next (s.setLane n { x.noLock with lock := true })) ∧
    (∀ (sync : BitVec 2) (payload d : DWord) (scr : BitVec 58) (s1 : State), descramble x.scr payload = (d, scr) →
      (sync = 0 ∨ sync = 3 ∨ (sync = 1 ∧ knownType d = false ∧ x.skip = false)) →
      s1 = tally 1 n 1 (s.setLane n ({ x with scr := scr, cdr := true }.note (sync == 1 || sync == 2) true)) →
      (lane s1 n).lock = true → (lane s1 n).state = 3 →
      exec (.blockError n sync payload) s =
        .next (blkErr n (s1.setLane n { (lane s1 n).noFrame with skip := true, trains := 0 }))) ∧
    (∀ (k : Fin 65) (y : LaneSt) (s1 : State), y = x.silent k → losesLock y = true → y.state = 3 →
      s1 = laneGap 1 true n (laneGo n 4 (s.setLane n y.noLock)) →
      exec (.lockLost n k) s = .next (if bitOf (laneCfg s1 n) 30 then laneGo n 1 s1 else s1)) ∧
    (∀ (k : Fin 65), losesLock (x.silent k) = false → exec (.lockLost n k) s = .next (s.setLane n (x.silent k))) ∧
    (x.state = 3 → x.syncLost = false → 4 ≤ x.noEcho →
      exec (.syncLost n) s = .next (laneGap 9 true n (notifyOwner 0x95 0 [w32 n] (s.setLane n { x with syncLost := true }))))

/-- An event of a subscribed channel goes to the attachment, the channels in turn; a lane writer takes the record that is next and writes
its words, one at a time, as long as its banks grant their slots; the last word ends the record; a half word that waits too long is written
alone, or wakes the group that holds it. (R228, R229, R230, R231, R345, R352) -/
def Obligations.LaneWriters : Prop :=
  (∀ (s : State) (n : Fin 64) (i : Nat), coreLive s = true →
    nextInTurn ((List.range 32).filter (fun i => !(chan s (32 * n + i)).q.items.isEmpty &&
      gateFree s (portOf s (.lane n) 0) (spoolDom s (32 * n + i))))
      (if (lane s n).turn = 0 then none else some ((lane s n).turn - 1)) = some i →
    exec (.laneGatewaySend n) s = .next (chanSend (32 * n + i) (0x1000 + n) (portOf s (.lane n) 0) (s.reg .laneSub (32 * n + i))
      (s.setLane n { lane s n with turn := i + 1 }))) ∧
  (∀ (s s1 s2 : State) (k : Fin 64), memLive s = true → (xing s (writerXing k)).absent = false → s1 = takeRecord k s →
    s2 = writerGo k (((lane s1 k).cur.map (fun c => c.words.length)).getD 0) s1 → (lane s2 k).state ≠ 7 →
    exec (.spoolWrite k) s = .next s2) ∧
  (∀ (s : State) (k : Fin 64) (c : WCur) (v : Word) (ws : List Word), (lane s k).cur = some c → c.words = v :: ws →
    writerStep k s = if ws = [] then recDone c (putRecWord c.spool v (s.setLane k { lane s k with cur := none, slot := false }))
      else putRecWord c.spool v (s.setLane k { lane s k with cur := some { c with words := ws }, slot := false })) ∧
  (∀ (s : State) (n : Fin 2112), memLive s = true → (spoolOf s n).half.isSome = true → (spoolOf s n).w % 8 = 0 →
    (lane s (writerOf n)).cur.any (fun c => c.spool == n.val) = false →
    exec (.laneWriterTimeout n) s = .next (if retained s (offAddr (spoolOf s n) (spoolOf s n).w / 2 ^ 25)
      then askWake (offAddr (spoolOf s n) (spoolOf s n).w / 2 ^ 25) s else flushHalf n s))

/-- In Run a queued lane starts its attempt when no lane trains. Front-end identification (step 1), clock recovery (2), block lock (3), 16
TRAIN blocks (4), the load of the pulse number (5), the pulse that was loaded (6), a frame (7) and an echo in it (8) lead on, the last to
RUN; the number loaded is that of the edge after the present one, where its writes can end before it; step 1 when late fails the attempt
with cause 0xA or the front end's cause, a later step k with cause k + 1. An eye sample in RUN that clears the thresholds enters LANE_EYE
and the run of good samples. (R238, R239, R244, R257) -/
def Obligations.LaneTraining : Prop :=
  (∀ (s : State) (n : Nat), trainingLane s = none → (List.range 64).find? (fun n => (lane s n).state == 1) = some n →
    s.pwr.state = 0 → exec .trainingAttemptStart s = .next (startAttempt n 1 s)) ∧
  (∀ (s : State) (n : Nat) (id ver : Word), trainingLane s = some n →
    ((lane s n).step = 1 → feCause id ver = 0 →
      exec (.trainingStepDone id ver) s = .next (feSetup n ((s.setLane n { lane s n with step := 2 }).setReg .laneFeId n id))) ∧
    ((lane s n).step = 2 → exec (.trainingStepDone id ver) s = .next (s.setLane n { lane s n with cdr := true, step := 3 })) ∧
    ((lane s n).step = 3 → (lane s n).lock = true →
      exec (.trainingStepDone id ver) s = .next (s.setLane n { lane s n with step := 4 })) ∧
    ((lane s n).step = 4 → (lane s n).lock = true → 16 ≤ (lane s n).trains →
      exec (.trainingStepDone id ver) s = .next (s.setLane n { lane s n with step := 5 })) ∧
    ((lane s n).step = 5 → exec (.trainingStepDone id ver) s = .next (match loadPulseNow s n with
      | some l => feLoad n l (s.setLane n { lane s n with step := 6 })
      | none => s.setLane n { lane s n with step := 6 })) ∧
    (∀ j, s.time.emitted = some j → s.now.toNat / 2 ^ 20 = j → s.now.toNat % 2 ^ 20 ≤ syncDelay s n + 128 →
      syncDelay s n + 128 + loadTicks + 128000 ≤ 2 ^ 20 → loadPulseNow s n = some (pulseAfter j 1)) ∧
    (∀ l j, (lane s n).step = 6 → (lane s n).loadPulse = some l → s.time.emitted = some j → pulseLt j l = false → exec (.trainingStepDone id ver) s =
      .next (feMode n 2 (s.setLane n { lane s n with frame := none, step := 7 }))) ∧
    ((lane s n).step = 7 → (lane s n).frame.isSome = true →
      exec (.trainingStepDone id ver) s = .next (s.setLane n { lane s n with step := 8 })) ∧
    ((lane s n).step = 8 → (lane s n).frame.isSome = true → syncedAfterLoad s n = true →
      exec (.trainingStepDone id ver) s = .next (enterRun n s)) ∧
    ((lane s n).step ≠ 1 → exec (.trainingStepLate none) s = .next (attemptFails n ((lane s n).step.toNat + 1) s)) ∧
    ((lane s n).step = 1 → exec (.trainingStepLate none) s = .next (attemptFails n 0xA s)) ∧
    ((lane s n).step = 1 → feCause id ver ≠ 0 →
      exec (.trainingStepLate (some (id, ver))) s = .next (attemptFails n (feCause id ver) (s.setReg .laneFeId n id)))) ∧
  (∀ (s : State) (n : Fin 64) (h w : Byte), (lane s n).state = 3 → fld (s.reg .laneEye n) 15 8 ≤ h.toNat →
    fld (s.reg .laneEye n) 7 0 ≤ w.toNat →
    exec (.eyeSample n h w) s = .next ((s.setReg .laneEye n (putFld (putFld (s.reg .laneEye n) 31 24 h.toNat) 23 16 w.toNat)).setLane n
      { lane s n with eyeBadH := 0, eyeBadW := 0, eyeGood := min 4 ((lane s n).eyeGood + 1),
                      eyeLow := if min 4 ((lane s n).eyeGood + 1) = 4 then false else (lane s n).eyeLow }))

/-- From the owner after release while no command of the port runs: ENABLE queues the lane for training, DISABLE and the front-end
transactions start a transaction and read RUNNING, RETRAIN trains the lane anew, ISLAND_RESET resets the island; every one records its OP
and OK. The end of an island's reset queues an enabled lane. A front-end read that completes gives its data and OK; a front-end write that
completes writes its register, and it and DISABLE end with OK. That DISABLE reads RUNNING until LANE_CMD_COMPLETE follows that row of the
command table. (R240, R246, R251, R252) -/
def Obligations.LaneCommands : Prop :=
  ∀ (s : State) (n : Fin 64), (beforeRelease s = false → runningCmd s 0 .laneCmdStat = false →
    (enableStatus s n = stOk → exec (.laneEnable 0 n) s =
      .next (((laneGo n 1 (s.setReg .laneCfg n (putBit (laneCfg s n) 31 true))).setRegP 0 .laneCmdStat 0 0 (laneStatWord false 1 stOk)).stat stOk)) ∧
    exec (.laneDisable 0 n) s =
      .next (((startFe 0 n 2 (disableLane n s)).setRegP 0 .laneCmdStat 0 0 (laneStatWord true 2 stOk)).stat stOk) ∧
    ((lane s n).state = 3 → exec (.laneRetrain 0 n) s =
      .next (((retrainLane n s).setRegP 0 .laneCmdStat 0 0 (laneStatWord false 3 stOk)).stat stOk)) ∧
    exec (.laneIslandReset 0 n) s =
      .next (((resetLane n s).setRegP 0 .laneCmdStat 0 0 (laneStatWord false 4 stOk)).stat stOk) ∧
    (feBusy s n = false → exec (.feRead 0 n) s =
      .next (((startFe 0 n 5 s).setRegP 0 .laneCmdStat 0 0 (laneStatWord true 5 stOk)).stat stOk)) ∧
    (feBusy s n = false → 0x100 ≤ fld (s.regP 0 .laneCmdArg 0 0) 15 0 → exec (.feWrite 0 n) s =
      .next (((startFe 0 n 6 s).setRegP 0 .laneCmdStat 0 0 (laneStatWord true 6 stOk)).stat stOk))) ∧
    ((lane s n).state = 7 → exec (.laneResetEnd n) s = .next (laneGo n (if bitOf (laneCfg s n) 31 then 1 else 0) s)) ∧
    (∀ (p : Fin 4) (x : FeTxn) (data : Word), s.fe.find p = some x → x.op = 5 → exec (.laneCmdComplete p data) s =
      .next ((({ s with fe := s.fe.erase p }).setRegP p .laneCmdData 0 0 data).setRegP p .laneCmdStat 0 0 (laneStatWord false 5 stOk))) ∧
    (∀ (p : Fin 4) (x : FeTxn) (data : Word) (s1 : State), s.fe.find p = some x → x.op ≠ 5 →
      s1 = (if x.op = 6 then feWrite x.lane x.addr x.data { s with fe := s.fe.erase p } else { s with fe := s.fe.erase p }) →
      exec (.laneCmdComplete p data) s = .next (s1.setRegP p .laneCmdStat 0 0 (laneStatWord false x.op.toNat stOk)))

/-- After release a write of LANE_CFG, LANE_CH_EN, LANE_SUB, SENSE_SUB, QD_CFG or TIME_TBSYNC that passes its checks takes effect and
completes OK; a subscription that takes every event still queued keeps the queue; CLR_PEAK sets the channel's peak to its present depth.
(R254, R258, R261, R263, R290, R291, R292) -/
def Obligations.LaneRegisters : Prop :=
  ∀ (s : State) (v : Word), beforeRelease s = false →
    (∀ n : Fin 64, laneCfgStatus s n v = stOk → exec (.laneCfgWrite 0 n v) s = .next ((putLaneCfg n v s).stat stOk)) ∧
    (∀ n : Fin 64, chEnOk s n v = true → exec (.laneChEnWrite 0 n v) s = .next ((putChEn n v s).stat stOk)) ∧
    (∀ (p : Fin 4) (c : Fin 2048), subStatus s p c v = stOk →
      exec (.laneSubWrite p c v) s = .next ((putSub .laneSub c c v s).stat stOk)) ∧
    (∀ (p : Fin 4) (k : Fin 64), subStatus s p (2048 + k) v = stOk →
      exec (.senseSubWrite p k v) s = .next ((putSub .timeSenseSub k (2048 + k) v s).stat stOk)) ∧
    (∀ (r : Reg) (i c : Nat) (u : State), u = s.putFields 0 r i 0 v → (∀ e ∈ (chan s c).q.items, subTakes (u.reg r i) e.kind = true) →
      putSub r i c v s = u) ∧
    (∀ (p : Fin 4) (c : Fin 2048), mayReach s p c = true →
      exec (.clrPeak p c) s = .next ((s.setChan c { chan s c with peak := (chan s c).q.items.length }).stat stOk)) ∧
    (∀ (p : Fin 4) (q : Fin 16), qdReach s p q = true → qdCfgOk v = true →
      exec (.qdCfgWrite p q v) s = .next ((putQdCfg q v s).stat stOk)) ∧
    exec (.tbsyncEnWrite 0 v) s = .next ((s.putFields 0 .timeTbsync 0 0 v).stat stOk)

/-! ## Time -/

/-- Its start sets the count to 0 and locks it, without TBREF in holdover; the loss and the return of TBREF, the end of holdover and the
nearness of the wrap are kept, and the loss, the end and the nearness raised; the wrap sets the count to 0. Reading TIME_NOW_LO latches the
high half. Once locked, a commit tick, a TBSYNC value and a snapshot each bring the count to the tick that is due: a commit tick applies the
batches due and samples the counters, a TBSYNC value begins a new interval of notifications, loads the pulse at the front ends, samples the
counters, aligns the PWM periods and takes the port's readings, a snapshot is taken. That the count moves on a command or an idle cycle is
the model's choice (notes/assumptions/5.md). (R12, R264, R266, R267, R268, R269, R270, R273, R289, R606) -/
def Obligations.Timebase : Prop :=
  ∀ s : State,
    (s.time.locked = false → exec .timebaseStart s = .next { s with time := { s.time with locked := true, count := 0 } }) ∧
    (s.time.locked = false → exec .tbrefStartTimeout s = .next (notifyOwner 0xA0 0 (tickPair 0)
      { s with time := { s.time with locked := true, count := 0, refLost := true, holdover := true,
                                     holdStart := if s.time.holdover then s.time.holdStart else 0 } })) ∧
    (s.time.locked = true → s.time.refLost = false → exec .tbrefLost s = .next (notifyOwner 0xA0 0 (tickPair s.now)
      ((s.onTime (fun x => { x with refLost := true, holdover := true,
                                    holdStart := if x.holdover then x.holdStart else x.count })).bump .timeRefCount 0 1))) ∧
    (s.time.refLost = true → exec .tbrefBack s = .next { s with time := { s.time with refLost := false } }) ∧
    (s.time.holdover = true → s.time.refLost = false → exec .holdoverEnd s =
      .next (notifyOwner 0xA1 0 (tickPair s.now ++ tickPair (s.now - s.time.holdStart)) { s with time := { s.time with holdover := false } })) ∧
    (topSet s.now = true → s.time.wrapNear = false → exec .wrapNear s =
      .next (notifyOwner 0xA2 0 [] { s with time := { s.time with wrapNear := true } })) ∧
    (s.time.wrapNear = true → topSet s.now = true → exec .timebaseWrap s =
      .next { s with time := { s.time with wrapNear := false, count := 0 } }) ∧
    (∀ p : Fin 4, beforeRelease s = false → s.xng.xings.any (fun e => valueOf 5 0 e.1 && (e.2.unstable || e.2.absent)) = false →
      exec (.timeNowRead p) s = .next ((s.setRegP p .timeNowHi 0 0 (hi32 s.now)).finish stOk [lo32 s.now &&& 0xFFFFFF00])) ∧
    (s.time.locked = true →
      (∀ t s1, t = dueAt 16 s.now s.time.lastCommit → s1 = (advanceTo t s).onTime (fun x => { x with lastCommit := t }) →
        exec .commitTick s = .next (wakeDue t (tally 8 0 0 (sampleTick t (s1.time.lastPulse == t) (applyDue t s1))))) ∧
      (∀ t s1, t = dueAt 20 s.now s.time.lastPulse →
        s1 = (advanceTo t s).onTime (fun x =>
          { x with lastPulse := t, emitted := if bitOf (s.reg .timeTbsync 0) 31 then some (t.toNat / 2 ^ 20) else x.emitted }) →
        exec .tbsyncPulse s = .next (takeUtil (tally 8 0 1 (pwmAlign (sampleTick t ((newInterval s1).time.lastCommit == t) (loadTime (pulseTime (newInterval s1)))))))) ∧
      (∀ t, t = dueAt 12 s.now s.time.lastSnap →
        exec .timebaseSnapshot s = .next (agree 5 ((advanceTo t s).onTime (fun x => { x with snap := t, lastSnap := t })))))

/-- An edge at a sense pin opens its filter window; a second edge within the window is a glitch, one after it ends the window with an event
of the first; the close of the window ends it with its event; the event's time is a multiple of 8; an event of a sense pin whose
configuration takes its edge becomes a record, samples the counters that name the pin and joins the queue of a subscription that takes it; a
queued event is sent as a packet of OP 0 from the pin's bank to the subscriber with its kind, GAP, MISS and ORDER. A step of the inputs
counts by the table, reversed where the configuration says so; a step of both inputs is an error, counted and raised; the index zeroes,
samples or does both; a sample keeps the count and the time and, subscribed, joins the counter's queue, is missed in Doze and Park and
overruns a full queue; causes that fall in one bank cycle make one sample. After release QD_SAMPLE and QD_CLEAR sample and zero, QD_LAST_CNT
reads with its time latched; a queued sample is sent to its subscriber with cause, MISS, ERR and IDX, and discarded without one. Which times
the history of a count keeps, and where a bank cycle begins, are the model's choice (notes/assumptions/76.md). (R274, R275, R276, R278,
R280, R281, R282, R283, R284, R292) -/
def Obligations.SenseAndQuadrature : Prop :=
  ∀ s : State,
    (∀ (k : Fin 64) (rise : Bool) (t : Tick),
      (captures s k = false → exec (.senseEdge k rise t) s = .next s) ∧
      (captures s k = true → (sense s k).open_ = none →
        exec (.senseEdge k rise t) s = .next (s.setSense k { sense s k with open_ := some (t, rise) })) ∧
      (∀ (t0 : Tick) (r0 : Bool), captures s k = true → (sense s k).open_ = some (t0, r0) →
        ((t - t0).toNat < senseWindow s k →
          exec (.senseEdge k rise t) s = .next (glitch k (s.setSense k { sense s k with open_ := none }))) ∧
        (senseWindow s k ≤ (t - t0).toNat → exec (.senseEdge k rise t) s =
          .next (senseEvent k (senseTime s k t0) r0 (s.setSense k { sense s k with open_ := some (t, rise) }))))) ∧
    (∀ k : Fin 64, ((sense s k).open_ = none → exec (.filterWindowClosed k) s = .next s) ∧
      (∀ (t0 : Tick) (r0 : Bool), (sense s k).open_ = some (t0, r0) →
        exec (.filterWindowClosed k) s = .next (senseEvent k (senseTime s k t0) r0 (s.setSense k { sense s k with open_ := none })))) ∧
    (∀ (k : Fin 64) (t : Tick), (senseTime s k t).toNat % 8 = 0) ∧
    (∀ (k : Fin 64) (t : Tick) (rise : Bool) (edges : Nat) (s1 s2 : State), edges = fld (s.reg .timeSenseCfg k) 7 6 →
      s1 = acceptEvent (2048 + k) t (if rise then 0 else 1) false s →
      s2 = forEach ((List.range 16).filter (fun q => bitOf (qdCfg s1 q) 23 && fld (qdCfg s1 q) 21 16 == k.val)) (fun q => sample q 4 t)
        (s1.setChan (2048 + k) { chan s1 (2048 + k) with lastTime := some t }) →
      senseEvent k t rise s = if edges = 3 ∨ edges = (if rise then 1 else 2) then
        (if subTakes (s2.reg .timeSenseSub k) (if rise then 0 else 1) then
          chanPush (2048 + k) { time := t, kind := if rise then 0 else 1, order := false }
            (notifyOnce 0xA3 k (spoolDom s2 (2048 + k)).val 1 [w32 k]) s2
         else s2) else s) ∧
    (∀ (k : Fin 64) (pt : Nat), pt = portOf s (.pin (k.val / 32)) 0 → coreLive s = true → gateFree s pt (spoolDom s (2048 + k)) = true →
      ((chan s (2048 + k)).q.items = [] → exec (.senseEventSend k) s = .next s) ∧
      (∀ (e : ChEnt) (rest : List ChEnt) (p : Packet) (sub : Word), (chan s (2048 + k)).q.items = e :: rest → (chan s (2048 + k)).q.ok = true →
        sub = s.reg .timeSenseSub k → p = eventPacket s (2048 + k) (0x1050 + k.val / 32) sub e →
        exec (.senseEventSend k) s = .next (gateOut pt p (tally 2 (2048 + k) 1 (s.setChan (2048 + k)
          { chan s (2048 + k) with q := (chan s (2048 + k)).q.pop 64, lastDel := e.time, told := false }))) ∧
        p.op = 0 ∧ p.dom = spoolDom s (2048 + k) ∧ p.src = BitVec.ofNat 16 (0x1050 + k.val / 32) ∧
        p.dest = BitVec.ofNat 16 (fld sub 11 0) ∧ p.slot = BitVec.ofNat 5 (fld sub 25 21) ∧
        p.words.getD 0 0 = w32 (place 30 2 e.kind.toNat + place 29 1 (b2n e.rep.gap) + place 28 1 (b2n (decide (e.rep.miss ≠ 0))) +
          place 27 1 (b2n e.order) + (2048 + k)) ∧ p.words.getD 1 0 = lo32 e.time)) ∧
    (∀ (q : Fin 16) (a b : Bool) (ab : BitVec 2) (s1 : State),
      ab = BitVec.ofNat 2 (2 * b2n (qdInput s q 0 a ((qd s q).ab.getLsbD 1)) + b2n (qdInput s q 1 b ((qd s q).ab.getLsbD 0))) →
      s1 = s.setQd q { qd s q with ab := ab, fresh := false } →
      ((qd s q).fresh = true ∨ bitOf (qdCfg s q) 31 = false → exec (.quadratureStep q a b) s = .next s1) ∧
      (∀ d : Int, (qd s q).fresh = false → bitOf (qdCfg s q) 31 = true → qdStep (fld (qdCfg s q) 30 29) (qd s q).ab ab = some d →
        exec (.quadratureStep q a b) s =
          .next (setCount q ((qd s q).count + BitVec.ofInt 32 (if bitOf (qdCfg s q) 28 then -d else d)) s1)) ∧
      ((qd s q).fresh = false → bitOf (qdCfg s q) 31 = true → qdStep (fld (qdCfg s q) 30 29) (qd s q).ab ab = none →
        exec (.quadratureStep q a b) s = .next (notifyOnce 0xA5 q (qdPktDom s q).val 1 [w32 q]
          ((s1.setQd q { qd s1 q with err := true }).setReg .timeQdErrcnt q (satFld (s.reg .timeQdErrcnt q) 15 0 1))))) ∧
    (∀ x4 x2 x1 i j, (i, j, x4, x2, x1) ∈ [(0, 2, 1, 1, 1), (2, 3, 1, 0, 0), (3, 1, 1, 1, 0), (1, 0, 1, 0, 0), (2, 0, -1, -1, -1), (3, 2, -1, 0, 0),
        (1, 3, -1, -1, 0), (0, 1, -1, 0, 0)] → ∀ a b : BitVec 2, a.toNat = i → b.toNat = j →
      qdStep 0 a b = some x1 ∧ qdStep 1 a b = some x2 ∧ qdStep 2 a b = some x4) ∧
    (∀ (m : Nat) (a b : BitVec 2), qdStep m a b = none ↔ a ^^^ b = 3) ∧
    (∀ (q : Fin 16) (i : Nat) (s1 : State), i = fld (qdCfg s q) 27 26 → s1 = s.setQd q { qd s q with idx := true } →
      (i = 0 ∨ (claimants s 4 q 2).head?.any (fun p => viobOk s (bankOfPin p)) = false → exec (.indexEdge q) s = .next s) ∧
      ((claimants s 4 q 2).head?.any (fun p => viobOk s (bankOfPin p)) = true →
        (i = 1 → exec (.indexEdge q) s = .next (setCount q 0 s1)) ∧ (i = 2 → exec (.indexEdge q) s = .next (sample q 2 s1.now s1)) ∧
        (i = 3 → exec (.indexEdge q) s = .next (setCount q 0 (sample q 2 s1.now s1))))) ∧
    (∀ (q : Fin 16) (c : Word), ∃ hist, setCount q c s = s.setQd q { qd s q with count := c, hist := hist }) ∧
    (∀ (q : Fin 16) (cause : Nat) (t : Tick), sameCycle (qd s q) cause t = true → sample q cause t s = s.setQd q (addCause (qd s q) cause) ∧
      (addCause (qd s q) cause).lastCnt = (qd s q).lastCnt ∧ (addCause (qd s q) cause).lastTime = (qd s q).lastTime ∧
      (addCause (qd s q) cause).q.items.length = (qd s q).q.items.length ∧
      (∀ (b l : Nat) (w c : Word) (u : Tick) (r : List (Word × Word × Tick)), (qd s q).cycle = some (b, l) → (qd s q).q.items = r ++ [(w, c, u)] →
        bankCycle u = b → (addCause (qd s q) cause).q.items = r ++ [(w ||| w32 (place 27 5 cause), c, u)])) ∧
    (∀ (q : Fin 16) (cause : Nat) (t : Tick) (s1 : State), sameCycle (qd s q) cause t = false →
      s1 = s.setQd q { qd s q with lastCnt := (qd s q).countAt t, lastTime := t, cycle := some (bankCycle t, cause) } →
      (bitOf (s.reg .timeQdSub q) 31 = false → sample q cause t s = s1) ∧
      (bitOf (s.reg .timeQdSub q) 31 = true → s.pwr.state = 2 ∨ s.pwr.state = 3 → sample q cause t s = sampleMissed q s1) ∧
      (bitOf (s.reg .timeQdSub q) 31 = true → s.pwr.state ≠ 2 → s.pwr.state ≠ 3 → (qd s q).q.ok = true →
        ((qd s q).q.items.length < 8 → sample q cause t s =
          s1.setQd q { qd s1 q with q := (qd s q).q.push 8 (w32 (place 27 5 cause), (qd s q).countAt t, t) }) ∧
        (8 ≤ (qd s q).q.items.length → sample q cause t s =
          missSample q (s1.setQd q { qd s1 q with q := { (qd s q).q with ovr := true } })))) ∧
    (∀ (p : Fin 4) (q : Fin 16), beforeRelease s = false → qdReach s p q = true →
      exec (.qdSample p q) s = .next ((sample q 1 s.now s).stat stOk) ∧
      exec (.qdClear p q) s = .next ((setCount q 0 s).stat stOk) ∧
      exec (.qdLastCntRead p q) s = .next (((s.setRegP p .timeQdLastLo q 0 (lo32 (qd s q).lastTime)).setRegP p .timeQdLastHi q 0
        (hi32 (qd s q).lastTime)).finish stOk [(qd s q).lastCnt])) ∧
    (∀ (q : Fin 16) (cause cnt : Word) (t : Tick) (rest : List (Word × Word × Tick)) (sub : Word) (pt : Nat) (x : QdSt), x = qd s q →
      x.q.items = (cause, cnt, t) :: rest → coreLive s = true → s.pins.asleep = false → x.q.ok = true → sub = s.reg .timeQdSub q →
      pt = portOf s (.pin (homeBank s q)) 0 → gateFree s pt (qdPktDom s q) = true →
      (bitOf sub 31 = false → exec (.qdSampleSend q) s = .next (s.setQd q { x with q := x.q.pop 8 })) ∧
      (bitOf sub 31 = true → ∃ p : Packet, exec (.qdSampleSend q) s = .next (queueOut pt p
          (s.setQd q { x with q := x.q.pop 8, miss := false, err := false, idx := false })) ∧
        p.words = [cause + w32 (place 26 1 (b2n x.miss) + place 25 1 (b2n x.err) + place 24 1 (b2n x.idx) + q), cnt, lo32 t, hi32 t] ∧
        p.op = 0 ∧ p.dest = BitVec.ofNat 16 (fld sub 11 0) ∧ p.slot = BitVec.ofNat 5 (fld sub 25 21) ∧ p.dom = qdPktDom s q ∧
        p.src = BitVec.ofNat 16 (0x1050 + homeBank s q)))

/-! ## Spools -/

/-- A spool command that is ready and whose position resolves: SLOT_START sets the slot, MARK_SET the mark, EXPORT_START the export of the
commanding port and its slot, MT_INSERT the entry of the mark table, counting and raising an eviction; each answers OK with its words.
(R304, R305, R307, R312, R315, R318, R319, R322, R323) -/
def Obligations.SpoolPositions : Prop :=
  ∀ (s s2 : State) (src : SplSrc) (code : Nat) (c : SplCmd) (p : Pos), SplReady s src code c →
    cmdPos c (splTake src s) = (.ok p, s2) →
    (code = 0x01 → exec (.slotStart src) s = .next (splEnd c stOk (pair p.off) (s2.setSlot (cmdSpool c) (cmdIndex c)
      { slotOf s2 (cmdSpool c) (cmdIndex c) with
        state := runState s2 (cmdSpool c) (bitOf (cmdWord c 3) 31) p.off, pos := p.off, run := p.base, follow := bitOf (cmdWord c 3) 31, endTime := bitOf (cmdWord c 3) 30,
        stop := (join32 (cmdWord c 4) (cmdWord c 5)).toNat, pace := fld (cmdWord c 3) 29 24, slot := BitVec.ofNat 5 (cmdSlot c),
        tile := BitVec.ofNat 12 (cmdTile c), syn := if p.off % 4096 = 0 then 0 else 1, ready := s2.now, seg := p.off / 65536,
        runs := (slotOf s2 (cmdSpool c) (cmdIndex c)).runs + 1 }))) ∧
    (code = 0x04 → exec (.markSet src) s = .next (splEnd c stOk (pair p.off)
      (s2.onMarks (cmdSpool c) (fun m => m.put (cmdIndex c) (p.off, p.base))))) ∧
    (code = 0x20 → bitOf (cmdWord c 3) 29 = false → ∃ e s3, exec (.exportStart src) s = .next (splEnd c stOk (pair p.off) s3) ∧
      s3 = (s2.setExp (cmdSpool c) (some e)).setSlot (cmdSpool c) 2
        { slotOf s2 (cmdSpool c) 2 with state := runState s2 (cmdSpool c) e.follow p.off, pos := p.off } ∧
      e.port = c.dom ∧ e.follow = bitOf (cmdWord c 3) 31 ∧ e.hash = false ∧ e.run = p.base) ∧
    (code = 0x10 → ∀ l s3 j rep ev s4, mtRead c.dom (mtHash (cmdSpool c) (cmdClass c) (cmdWord c 3)) s2 = (some l, s3) →
      mtPlace s3 (cmdSpool c) (cmdClass c) (cmdWord c 3) l = (j, rep, ev) →
      s4 = mtWrite c.dom (mtHash (cmdSpool c) (cmdClass c) (cmdWord c 3)) j
        { valid := true, cls := cmdClass c, spool := cmdSpool c, key := cmdWord c 3, off40 := p.off % 2 ^ 40,
          tag := fld (cmdWord c 4) 23 0 } (s3.bump .splMtInserts 0 1) →
      exec (.mtInsert src) s = .next (splEnd c stOk [w32 (place 1 1 (b2n ev) + b2n rep)] (if ev then notifyOnce 0x83 (cmdSpool c)
        (spoolDom s4 (cmdSpool c)).val 1 [w32 (cmdSpool c), w32 (cmdClass c)] (s4.bump .splMtEvicts 0 1) else s4)))

/-- A spool command that is ready: SLOT_STOP records the stop of a slot that runs; SLOT_QUERY, MARK_QUERY, SPOOL_QUERY and MT_LOOKUP answer
with their words; MARK_CLEAR and MT_DELETE remove the mark and the entry; EXPORT_STOP ends the export; RESIZE waits for the spool to close.
(R307, R311, R312, R315, R319, R320, R322, R323, R325, R326, R327) -/
def Obligations.SpoolCommands : Prop :=
  ∀ (s : State) (src : SplSrc) (code n i : Nat) (c : SplCmd), SplReady s src code c → n = cmdSpool c → i = cmdIndex c →
    ∀ s1, s1 = splTake src s →
    (code = 0x02 → ∀ x, x = slotOf s1 n i →
      (inRun x = true → exec (.slotStop src) s = .next (s1.setSlot n i
        { x with stops := x.stops ++ [{ run := x.runs, pos := x.pos, cmd := c }] })) ∧
      (inRun x = false → exec (.slotStop src) s = .next (splEnd c stOk (pair x.pos) s1))) ∧
    (code = 0x03 → exec (.slotQuery src) s = .next (splEnd c stOk
      ([w32 (place 28 4 (slotOf s1 n i).state.toNat + place 24 4 (slotOf s1 n i).last.toNat)] ++ pair (slotOf s1 n i).pos) s1)) ∧
    (code = 0x05 → exec (.markClear src) s = .next (splEnd c stOk [] (s1.onMarks n (fun m => m.erase i)))) ∧
    (code = 0x06 → ∀ o t, (spoolOf s1 n).marks.find i = some (o, t) →
      exec (.markQuery src) s = .next (splEnd c stOk ([w32 (place 31 1 1 + place 30 1 (b2n (decide (o < vOf (spoolOf s1 n)))))] ++
        pair o ++ tickPair t) s1)) ∧
    (code = 0x07 → exec (.spoolQuery src) s =
      .next (splEnd c stOk ([w32 (spoolOf s1 n).size] ++ pair (spoolOf s1 n).w ++ pair (vOf (spoolOf s1 n))) s1)) ∧
    (code = 0x11 → ∀ l s2 j e, mtRead c.dom (mtHash n (cmdClass c) (cmdWord c 1)) (s1.bump .splMtLookups 0 1) = (some l, s2) →
      mtFind c l = some (j, e) → mtLapped s2 e = false →
      exec (.mtLookup src) s = .next (splEnd c stOk ([w32 (place 31 1 1 + place 0 24 e.tag)] ++ pair (mtOff s2 e)) s2)) ∧
    (code = 0x12 → ∀ l s2 j e, mtRead c.dom (mtHash n (cmdClass c) (cmdWord c 1)) s1 = (some l, s2) → mtFind c l = some (j, e) →
      exec (.mtDelete src) s = .next (splEnd c stOk [1] (mtClear c.dom (mtHash n (cmdClass c) (cmdWord c 1)) j e s2))) ∧
    (code = 0x21 → ∀ e, (spoolOf s1 n).exp = some e →
      exec (.exportStop src) s = .next (splEnd c stOk (pair (slotOf s1 n 2).pos) (endExport n 6 (exportStatus e) s1))) ∧
    (code = 0x30 → fld (cmdWord c 1) 12 0 ≠ 0 → fld (cmdWord c 1) 12 0 ≤ freeUnits s1 + (spoolOf s1 n).segs.length →
      exec (.resize src) s = .next (s1.setSpool n { spoolOf s1 n with resizing := some (fld (cmdWord c 1) 12 0, c) }))

/-- A packet of a reader slot, at once when it is full or by the flush rule, carries what may be read up to 16 words; an export whose turn
it is sends; the sweep passes a line of the mark table and clears what has lapped; a resize closes the spool, ends what reads it, counts
what it drops and opens the spool anew; it waits for groups in retention, and where it finds no place ends with RANGE and the spool as it
was; W and V are read with their high halves latched. (R297, R306, R308, R309, R315, R316, R317, R327, R339) -/
def Obligations.SpoolEngine : Prop :=
  (∀ (s s1 : State) (n : Fin 2112) (b f : Bool) (k : Nat) (x : SlotSt) (lim : Limit), x = slotOf s n (b2n b) → reading x = true →
    memLive s = true → SpoolAwake s n → s.xng.stopped.contains 192 = false →
    gateFree s (portOf s (.mem (posOf (spoolOf s n) x.pos / 512)) x.tile.toNat) (spoolDom s n) = true →
    x.pos / 65536 = x.seg → x.stops.any (fun e => e.run == x.runs) = false → tickLt s.now x.ready = false →
    lim = runLimit s n x.follow x.endTime x.stop x.pos → lim.done = false →
    k = min (min (16 - (synWords s n x).length) ((65536 - x.pos % 65536) / 4)) ((lim.off - x.pos) / 4) →
    (k = min (16 - (synWords s n x).length) ((65536 - x.pos % 65536) / 4) ∨ (f = true ∧ x.follow = true ∧ 0 < k)) →
    readOk n (1 + (spoolDom s n).val) (64 + posOf (spoolOf s n) x.pos / 512) x.pos k s = (true, s1) →
    ∀ s2, s2 = sendSlot n (b2n b) k false false s1 →
    exec (if f then .slotFlushTimeout n b else .slotPacketSend n b) s = .next (s2.setSlot n (b2n b) { slotOf s2 n (b2n b) with
      state := if x.follow && x.pos + 4 * k == (spoolOf s n).w then 3 else 2 })) ∧
  (∀ (s : State) (n : Fin 2112) (e : ExpSt), tryClose n s = s → (spoolOf s n).exp = some e → (slotOf s n 2).state ≠ 7 →
    memLive s = true → SpoolAwake s n → s.xng.stopped.contains 192 = false → e.closing = none → (e.hash && s.sec.ledWait) = false →
    maySend s e.port 4 = true →
    qBad s e.port 4 = false → e.skip = none → e.final = none →
    exec (.exportPacketSend n) s = .next (exportBytes n e s)) ∧
  (∀ (s0 s1 : State) (l : List MtEnt), memLive s0 = true →
    mtRead 0 s0.spl.sweep { s0 with spl := { s0.spl with sweep := (s0.spl.sweep + 1) % 131072 } } = (some l, s1) →
    exec .mtSweep s0 = .next (forEach (List.range 4) (fun j s =>
      match l[j]? with
      | some e => if e.valid && mtLapped s e then (mtClear 0 s0.spl.sweep j e s).bump .splMtSwept 0 1 else s
      | none => s) s1)) ∧
  (∀ (s : State) (n : Fin 2112) (new lost : Nat) (c : SplCmd) (segs : List Nat) (s0 s1 s2 s3 s4 : State),
    (spoolOf s n).resizing = some (new, c) → (spoolOf s n).swap = none → memLive s = true →
    placeSegs (freeSegs n s) n 0 [] new = some segs → s0 = wakeFor segs s → segs.any (fun u => retained s (u / 512)) = false → SpoolAwake s0 n →
    s1 = finishCur n (endExport n 6 stStale (stopSlots n s0)) → lost = queuedEvents s1 n → s2 = flushHalf n (closeGap n (dropQueued n s1)) →
    s3 = reopen n new segs (((spoolOf s2 n).w + 4095) / 4096 * 4096) s2 →
    s4 = (if new = 0 then s3 else flagGap n (writeRec (.gap n 0xC false (spoolOf s1 n).run s3.now lost) s3)) →
    exec (.spoolClose n) s = .next (notify 0x84 (spoolDom s4 n).val
      [w32 n, w32 (spoolOf s0 n).size, w32 new, w32 lost] (splEnd c stOk [w32 new] (s4.bump .splResizeLost n lost)))) ∧
  (∀ (s : State) (n : Fin 2112) (new : Nat) (c : SplCmd) (segs : List Nat), (spoolOf s n).resizing = some (new, c) → (spoolOf s n).swap = none →
    memLive s = true → placeSegs (freeSegs n s) n 0 [] new = some segs → segs.any (fun u => retained s (u / 512)) = true →
    exec (.spoolClose n) s = .next (wakeFor segs s)) ∧
  (∀ (s : State) (n : Fin 2112) (new : Nat) (c : SplCmd), (spoolOf s n).resizing = some (new, c) → (spoolOf s n).swap = none →
    memLive s = true → placeSegs (freeSegs n s) n 0 [] new = none →
    exec (.spoolClose n) s = .next (splEnd c stRange [] (s.setSpool n { spoolOf s n with resizing := none }))) ∧
  (∀ (s : State) (p : Fin 4) (n : Fin 2112), beforeRelease s = false → mayReach s p n = true →
    exec (.splWptrRead p n) s = .next (((wakeIsl 3 0 s).setRegP p .splWptrHi n 0 (w32 ((spoolOf s n).w / 2 ^ 32))).finish stOk [w32 (spoolOf s n).w]) ∧
    exec (.splLiveRead p n) s = .next (((wakeIsl 3 0 s).setRegP p .splLiveHi n 0 (w32 (vOf (spoolOf s n) / 2 ^ 32))).finish stOk [w32 (vOf (spoolOf s n))]))

/-! ## Pins -/

/-- After release a write of PIN_CFG, PIN_BANK_CFG, PIN_EVT, PIN_OUT or PIN_DIR that passes its checks takes effect and completes OK, or
with TORN where it touches a torn region's pin; SET, CLR and TGL act on the output word bit by bit; ARM and a cleared pending bit re-arm
their pins. (R408, R409, R413, R422, R423, R424, R428, R431, R438, R440, R442) -/
def Obligations.PinCommands : Prop :=
  ∀ (s : State) (p : Fin 4) (v : Word), beforeRelease s = false →
    (∀ k : Fin 384, pinCfgStatus s p k v = stOk → exec (.functionSwitch p k v) s = .next ((putPinCfg k v (wakeIsl 4 (bankOfPin k) s)).stat stOk)) ∧
    (∀ b : Fin 8, bankCfgOk (s.reg .pinBankCfg b) b v = true → exec (.pinBankCfgWrite 0 b v) s = .next ((putBankCfg b v (wakeIsl 4 b s)).stat stOk)) ∧
    (∀ k : Fin 384, pinEvtStatus s p k v = stOk → exec (.pinEvtWrite p k v) s = .next ((putPinEvt k v (wakeIsl 4 (bankOfPin k) s)).stat stOk)) ∧
    (∀ k : Fin 384, pinAllow s p k = stOk → exec (.pinArm p k) s = .next ((rearm k (wakeIsl 4 (bankOfPin k) s)).stat stOk)) ∧
    (∀ (b : Fin 8) (hi : Bool), bankAllow s p b = stOk →
      exec (.pinPendClear p b hi v) s = .next ((forEach (halfPins b hi (s.regP 0 .pinPend b (b2n hi) &&& v)) rearm
        ((wakeIsl 4 b s).setRegP 0 .pinPend b (b2n hi) (s.regP 0 .pinPend b (b2n hi) &&& ~~~v))).stat stOk) ∧
      exec (.pinOutWrite p b hi v) s = .next ((putHostOut .pinOut b hi v (wakeIsl 4 b s)).stat (hostOutTorn s .pinOut b hi v)) ∧
      exec (.pinDirWrite p b hi v) s = .next ((putHostOut .pinDir b hi v (wakeIsl 4 b s)).stat (hostOutTorn s .pinDir b hi v)) ∧
      (∀ o, o = s.regP 0 .pinOut b (b2n hi) →
        exec (.pinSet p b hi v) s = .next ((putHostOut .pinOut b hi (o ||| v) (wakeIsl 4 b s)).stat (hostOutTorn s .pinOut b hi (o ||| v))) ∧
        exec (.pinClr p b hi v) s = .next ((putHostOut .pinOut b hi (o &&& ~~~v) (wakeIsl 4 b s)).stat (hostOutTorn s .pinOut b hi (o &&& ~~~v))) ∧
        exec (.pinTgl p b hi v) s = .next ((putHostOut .pinOut b hi (o ^^^ v) (wakeIsl 4 b s)).stat (hostOutTorn s .pinOut b hi (o ^^^ v)))))

/-- VIOB lost is recorded and, unless every pin is parked, raised, and before release its return is recorded; an accepted level that is an
event fires; in Doze a wake event wakes the part; a pending delivery is sent as a packet to the subscriber whose word names the mode, the
level, the overrun and the pin; an either-edge delivery without a lost one turns the level of the one before it. (R407, R421, R422, R423,
R424, R425, R583) -/
def Obligations.PinEvents : Prop :=
  ∀ s : State,
    (∀ b : Fin 8, viobOk s b = true → (bankPins b).all (fun p => pinFunc s p == 7) = false →
      ∃ s1, s1 = s.onPins (fun x => { x with viobOk := removeNat b x.viobOk }) ∧
        exec (.viobFault b) s = .next (if (bankPins b).all (fun p => pinFunc s1 p == 7) then s1
          else notify 0xB3 (bankDom s1 b).val [w32 b] s1)) ∧
    (∀ b : Fin 8, viobOk s b = false → s.fab.released = false →
      exec (.viobRestore b) s = .next (s.onPins (fun x => { x with viobOk := insertNat b x.viobOk }))) ∧
    (∀ (k : Fin 384) (l : Bool), viobOk s (bankOfPin k) = true → pinFunc s k ≠ 7 →
      ∀ s1, s1 = (wakeIsl 4 (bankOfPin k) s).setPin k { pinSt s k with level := l } →
      edgeEvent (evtMode s1 k) (pinSt s k).level l = true → detects s1 k = true →
      exec (.pinLevelAccept k l) s = .next (firePin k s1)) ∧
    (∀ (k : Fin 384) (l : Bool), s.pwr.state = 2 → wakeEvent k l s = true →
      exec (.pinWakeEvent k l) s = .next (setPend k (wakeBy 2 k
        (s.setPin k { pinSt s k with level := l, armed := (pinSt s k).armed && decide (evtMode s k < 4) })))) ∧
    (∀ (k : Fin 384) (e : Word), 0 < (pinSt s k).pulses → coreLive s = true → s.pins.asleep = false →
      gateFree s (portOf s (.pin (bankOfPin k)) 0) (bankDom s (bankOfPin k)) = true → e = (pinSt s k).oldEvts.headD (pinEvt s k) →
      ∃ u p, exec (.pinEventSend k) s = .next (queueOut (portOf s (.pin (bankOfPin k)) 0) p u) ∧
        u = s.setPin k (pinSt u k) ∧ (pinSt u k).pulses = (pinSt s k).pulses - 1 ∧ (pinSt u k).ovr = false ∧
        p.words = [w32 (place 29 3 (fld e 31 29) + place 28 1 (b2n (pinSt u k).evLevel) + place 27 1 (b2n (pinSt s k).ovr) + k)] ∧
        (fld e 31 29 = 1 ∨ fld e 31 29 = 4 → (pinSt u k).evLevel = true) ∧ (fld e 31 29 = 2 ∨ fld e 31 29 = 5 → (pinSt u k).evLevel = false) ∧
        (fld e 31 29 = 3 → (pinSt s k).ovr = false → (pinSt s k).resample = false → (pinSt u k).evLevel = !(pinSt s k).evLevel) ∧
        p.dest = BitVec.ofNat 16 (fld e 11 0) ∧ p.slot = BitVec.ofNat 5 (fld e 21 17) ∧ p.op = 0 ∧ p.dom = bankDom s (bankOfPin k))

/-- A request of the row's kind that passes its checks is taken and answered with the words asked for, or acts on the pins, or on the unit
that its domain reaches; an SPI or I²C write starts the transfer. Levels that the spec leaves open are free values (notes/assumptions/4.md).
(R411, R412, R429, R430, R432, R433, R435) -/
def Obligations.PinGateways : Prop :=
  ∀ (s s1 : State) (b : Fin 8) (d : Fin 4) (p : Packet), GateReady s b d p → s1 = takeHead (portOf s (.pin b) 0) d s →
    (p.op = 2 → selOfReq p = 0 → p.words.length = 1 → exec (.gatewayPinsRead b d) s =
      .next (answer p stOk (bankWords b (pinLevel s1) ++ bankWords b (fun i => (drive s1 i).1)) s1.nextFree)) ∧
    (p.op = 4 → selOfReq p = 0 → p.words.length = 5 → exec (.gatewayPinsWrite b d) s =
      .next (answer p stOk [] (gwPut (fun i v s => s.setPin i { pinSt s i with fabOut := v }) b p s1))) ∧
    (readSel 1 1 p = true → p.words.length = 1 → exec (.gatewayOeRead b d) s =
      .next (answer p stOk (bankWords b (fun i => (drive s1 i).2)) s1.nextFree)) ∧
    (writeSel 1 1 p = true → p.words.length = 5 → exec (.gatewayOeWrite b d) s =
      .next (answer p stOk [] (gwPut (fun i v s => s.setPin i { pinSt s i with fabOe := v }) b p s1))) ∧
    (writeSel 2 2 p = true → p.words.length = 3 → exec (.gatewayRearm b d) s =
      .next (answer p stOk [] (gwPut (fun i _ s => rearm i s) b p s1))) ∧
    (∀ c, c = selOfReq p - 16 → unitReach s1 d 3 c = true →
      (readSel 16 31 p = true → p.words.length = 1 → exec (.gatewayPwmRead b d) s =
        .next (answer p stOk [s1.reg .pwmPeriod c, s1.reg .pwmDuty c] s1)) ∧
      (writeSel 16 31 p = true → p.words.length = 2 → bitOf (s1.reg .pwmCfg c) 28 = true → exec (.gatewayPwmWrite b d) s =
        .next (answer p stOk [] (pwmShadow .pwmDuty c (p.words.getD 1 0) s1)))) ∧
    (∀ u, u = selOfReq p - 32 → unitReach s1 d 5 u = true →
      (readSel 32 39 p = true → p.words.length = 1 → exec (.gatewaySpiRead b d) s =
        .next (answer p stOk (s1.reg .spiStat u :: (List.range 16).map (fun j => s1.regP 0 .spiData u j)) s1)) ∧
      (writeSel 32 39 p = true → p.words.length = 2 + (fld (p.words.getD 1 0) 6 0 + 3) / 4 → spiRange s1 u (p.words.getD 1 0) = stOk →
        spiBusy s1 u true = stOk → exec (.gatewaySpiWrite b d) s =
        .next (spiStart u (p.words.getD 1 0) (some (p, b)) (putData .spiData u 0 (p.words.drop 2) s1)))) ∧
    (∀ u, u = selOfReq p - 48 → unitReach s1 d 6 u = true →
      (readSel 48 51 p = true → p.words.length = 1 → exec (.gatewayI2cRead b d) s =
        .next (answer p stOk (s1.reg .i2cStat u :: (List.range 8).map (fun j => s1.regP 0 .i2cData u j)) s1)) ∧
      (writeSel 48 51 p = true → p.words.length = 2 + (fld (p.words.getD 1 0) 5 0 + 3) / 4 → i2cRange (p.words.getD 1 0) = stOk →
        i2cBusy s1 u true = stOk → exec (.gatewayI2cWrite b d) s =
        .next (i2cStart u (p.words.getD 1 0) (some (p, b)) (putData .i2cData u 0 (p.words.drop 2) s1))))

/-- PWM takes its shadows at a period boundary; after release writes of PWM registers and the start of an SPI or I²C transfer by a host that
may reach the unit take effect with OK; what a transfer receives is what its pin gave, all zeros where no pin has the role from its start,
and from some byte on the level last accepted where the pin has left its role (how many came before is a free value,
notes/assumptions/91.md); the end of a host's transfer stores what was received, or the cause, and clears BUSY; a stretch timeout ends an
I²C transfer with FAULT and cause 4. (R412, R432, R433, R435, R436, R443, R444) -/
def Obligations.PinUnits : Prop :=
  ∀ s : State,
    (∀ c : Fin 16, (pwm s c).running = true → s.pins.asleep = false → exec (.pwmPeriodBoundary c) s = .next (pwmBegin c s)) ∧
    (∀ (p : Fin 4) (v : Word), beforeRelease s = false →
      (∀ c : Fin 16, unitReach s p 3 c = true →
        exec (.pwmCfgWrite p c v) s = .next ((putPwmCfg c v s).stat stOk) ∧
        (bitOf (s.reg .pwmCfg c) 28 = false → exec (.pwmDutyWrite p c v) s = .next ((pwmShadow .pwmDuty c v s).stat stOk)) ∧
        (pwmPeriodOk v = true → exec (.pwmPeriodWrite p c v) s = .next ((pwmShadow .pwmPeriod c v s).stat stOk))) ∧
      (∀ u : Fin 8, bitOf v 31 = true → unitReach s p 5 u = true → spiRange s u v = stOk → spiBusy s u false = stOk →
        exec (.spiTransferStart p u v) s = .next ((spiStart u v none s).stat stOk)) ∧
      (∀ u : Fin 4, bitOf v 31 = true → unitReach s p 6 u = true → i2cRange v = stOk → i2cBusy s u false = stOk →
        exec (.i2cTransferStart p u v) s = .next ((i2cStart u v none s).stat stOk))) ∧
    (∀ (f u r n : Nat) (t : XferSt) (rx : List Byte), (roleDead s f u r = false → received s f u r t n rx = takeBytes n rx) ∧
      (roleDead s f u r = true → t.deaf = true → received s f u r t n rx = List.replicate n 0) ∧
      (roleDead s f u r = true → t.deaf = false → ∃ k, k ≤ n ∧
        received s f u r t n rx = takeBytes k rx ++ List.replicate (n - k) (if t.held.getD false then 0xFF else 0))) ∧
    (∀ (u : Fin 8) (rx : List Byte) (t : XferSt), s.pins.spi.find u = some t → t.fabric = none → t.discard = false →
      bitOf t.ctl 30 = false →
      exec (.spiTransferEnd u rx) s = .next (xferDone 5 0 u stOk 0 ((putBytesData .spiData u 16 (received s 5 u 2 t (fld t.ctl 6 0) rx)
        (s.nextFree.onPins (fun x => { x with spi := x.spi.erase u }))).setReg .spiStat u 0x40000000))) ∧
    (∀ (u : Fin 4) (n : BitVec 6) (rx : List Byte) (t : XferSt) (s1 : State), s.pins.i2c.find u = some t → t.fabric = none → t.discard = false →
      s1 = s.nextFree.onPins (fun x => { x with i2c := x.i2c.erase u }) →
      exec (.i2cTransferEnd u 0 n rx) s = .next (xferDone 6 1 u stOk 0
        ((putBytesData .i2cData u 8 (received s 6 u 1 t (if bitOf t.ctl 30 then fld t.ctl 11 6 else 0) rx) s1).setReg .i2cStat u
          (w32 (0x40000000 + 0x10000 * n.toNat)))) ∧
      (∀ cause : BitVec 4, 0 < cause.toNat → cause.toNat < 6 →
        exec (.i2cTransferEnd u cause n rx) s = .next (xferDone 6 1 u stFault cause.toNat (s1.setReg .i2cStat u
          (w32 (0x40000000 + 0x10000 * n.toNat + 0x100 * cause.toNat + stFault.toNat))))) ∧
      exec (.stretchTimeout u n) s = .next (xferDone 6 1 u stFault 4 (s1.setReg .i2cStat u
        (w32 (0x40000000 + 0x10000 * n.toNat + 0x400 + stFault.toNat)))))

/-! ## Host ports -/

/-- Each training step that is due leads to the next, the last to ACTIVE; a timeout in training records cause 9 and waits, and a retry
begins anew; a loss (which takes the lock of a lane at least, unless it is the alignment's; which lanes is a free value,
notes/assumptions/87.md), a TRAIN block and, after release, the commands RETRAIN and ISLAND_RESET of a port that may end ACTIVE; an ALIGN
block aligns its lane; a reset ends in DETECT; the packet layer's timeout outside ACTIVE drops what the port held and makes its crossings
absent. (R446, R448, R449, R450, R476, R482) -/
def Obligations.LinkStates : Prop :=
  ∀ (s : State) (p : Fin 4) (x : PortSt), x = port s p →
    (x.state = 1 → x.wait = false → x.step = 1 →
      exec (.linkTrainingStep p) s = .next ((s.setPort p { x with state := 2, step := 2, locked := x.locked ||| freeLanes s }).nextFree)) ∧
    (x.state = 2 → x.wait = false → x.step = 2 →
      exec (.linkTrainingStep p) s = .next (s.setPort p { x with state := 3, step := 3, locked := 0xF })) ∧
    (x.state = 3 → x.wait = false → x.step = 3 → x.locked = 0xF → x.aligned = 0xF →
      exec (.linkTrainingStep p) s = .next (s.setPort p { x with state := 4, step := 4 })) ∧
    (x.state = 4 → x.wait = false → x.locked = 0xF → x.step = 4 ∨ x.step = 5 →
      exec (.linkTrainingStep p) s = .next (s.setPort p { x with step := x.step + 1 })) ∧
    (x.state = 4 → x.wait = false → x.locked = 0xF → x.step = 6 → exec (.linkTrainingStep p) s = .next (portActive p s)) ∧
    (x.state = 1 ∨ x.state = 2 ∨ x.state = 3 ∨ x.state = 4 →
      exec (.trainTimeout p) s = .next (s.setPort p { x with cause := 9, wait := true })) ∧
    (x.wait = true → exec (.trainRetry p) s = .next (portDetect p s)) ∧
    (∀ c, x.state = 5 → c ≠ .align → exec (.linkDown p c) s = .next (leaveActive p (lossCode c) (loseLock p s)) ∧ (port (loseLock p s) p).locked ≠ 0xF) ∧
    (x.state = 5 → exec (.linkDown p .align) s = .next (leaveActive p 3 s)) ∧
    (x.state = 5 → exec (.hostTrain p false) s = .next (leaveActive p 5 s)) ∧
    (∀ l : Fin 4, x.state = 3 → exec (.alignBlock p l) s = .next (s.setPort p { x with aligned := putBit x.aligned l true })) ∧
    (x.state = 6 → exec (.portResetEnd p) s = .next (portDetect p s)) ∧
    (∀ q : Fin 4, beforeRelease s = false → mayPort q p = stOk →
      exec (.portRetrain q p) s = .next ((leaveActive p 6 s).stat stOk) ∧
      exec (.portIslandReset q p) s = .next ((portCut p (resetPort p s)).stat stOk)) ∧
    (x.state ≠ 5 → x.leftAt.isSome = true → exec (.packetLayerTimeout p) s = .next (portCut p (forEach (portXings p) peerReset (layerTimeout p s))))

/-- A request from the host on an ACTIVE port with the expected SEQ, while no request waits: SEQ moves on; with room for its RSP it is
performed: RD and WR at their address for their count, PLY as a packet of the mailbox that ARG names, entered among the mailbox's requests
where it has a response; without that room it waits in the request queue; one that finds the queue full is discarded and a NAK is owed; one
of a reserved TYPE is answered UNSUPPORTED (what room there is is the model's choice, notes/assumptions/88.md). (R451, R452, R455, R456) -/
def Obligations.HostPackets : Prop :=
  ∀ (s s1 : State) (p : Fin 4) (seq : BitVec 12) (tag : Byte) (take : HReq → State), (port s p).state = 5 → seq = (port s p).rxSeq →
    s1 = tally 5 p 0 ((wakeIsl 2 p s).setPort p { port s p with rxSeq := seq + 1, nakOut := false }) →
    (∀ r, take r = { s1.onPort p (fun x => { x with reqq := (x.reqq.push 64 r).pop 64, reqCredit := x.reqCredit - 1 + 1 }) with
      host := { (s1.onPort p (fun x => { x with reqq := (x.reqq.push 64 r).pop 64, reqCredit := x.reqCredit - 1 + 1 })).host with turn := some p.val } }) →
    (reqsWaiting s = 0 → (port s p).reqq.ok = true → rspRoom s p = true →
      (∀ words, words.length = 1 →
        exec (.hostRd p seq tag words) s = .next (hostAccess p (some tag) false (reqAddr words) (reqCount words) [] (take (.rd (some tag) words)))) ∧
      (∀ words, words.length = 1 + (reqCount words + 7) / 8 → isStream words = false →
        exec (.hostWr p seq tag words) s = .next (hostAccess p (some tag) true (reqAddr words) (reqCount words)
          ((bytesOfDwords (words.drop 1)).take (reqCount words)) (take (.wr (some tag) words)))) ∧
      (∀ (arg : BitVec 16) (h : Word) (ws : List Word) (k : Packet) (t : State), k = packetOf h (0x1080 + 16 * p + arg.toNat % 16) p ws →
        ws.length ≤ 18 → k.op.toNat < 7 → hasResponse k.op = false → t = take (.ply (some tag) arg (h :: ws)) → outAbsent t k = false →
        exec (.hostPly p seq tag arg (h :: ws)) s = .next (send k (t.onPort p (fun x => { x with plyq := x.plyq ++ [(k, some tag)] })))) ∧
      (∀ (arg : BitVec 16) (h : Word) (ws : List Word) (k : Packet) (m : Nat) (t : State), m = arg.toNat % 16 →
        k = packetOf h (0x1080 + 16 * p + m) p ws → ws.length ≤ 18 → k.op.toNat < 7 → hasResponse k.op = true →
        t = take (.ply (some tag) arg (h :: ws)) → outAbsent t k = false → mboxFull (mbox t p m) = false →
        exec (.hostPly p seq tag arg (h :: ws)) s = .next (send k ((t.setMbox p m { mbox t p m with
          reqs := (mbox t p m).reqs ++ [{ dest := k.dest, slot := k.slot, tag := k.tag, flits := respFlits k }] }).onPort p
            (fun x => { x with plyq := x.plyq ++ [(k, some tag)] }))))) ∧
    (reqsWaiting s = 0 → (port s p).reqq.ok = true → rspRoom s p = false → ∀ (words : List DWord),
      exec (.hostRd p seq tag words) s = .next (s1.onPort p (fun x =>
        { x with reqq := x.reqq.push 64 (.rd (some tag) words), reqCredit := x.reqCredit - 1 }))) ∧
    (∀ t : State, doReq p (.other (some tag)) t = formRsp p (some tag) stUnsupported [] t) ∧
    (64 ≤ (port s p).reqq.items.length → (∀ q, reqReady s q = false) → ∀ (words : List DWord),
      exec (.hostRd p seq tag words) s = .next (s.onPort p (fun x => { x with nakOut := true })))

/-- A packet that fails its CRC is counted and a NAK owed; an ACK frees what the host has; a NAK sends again what lies behind it, and the
replay timeout everything unacknowledged; CREDIT adds to its class. (R453, R454, R455, R456) -/
def Obligations.LinkLayer : Prop :=
  ∀ (s : State) (p : Fin 4) (x : PortSt), x = port s p → x.state = 5 →
    exec (.packetCrcError p) s = .next ((bumpLink .hlkCrcErr p s).onPort p (fun x => { x with nakOut := true })) ∧
    (∀ (seq : BitVec 12) (seqs : List (BitVec 12)), seqs = (ackedPkts x seq).map (·.seq) →
      exec (.linkAck p seq) s = .next (forEach (List.range 16) (freeEntries p seqs)
        (s.setPort p { x with unacked := x.unacked.filter (fun k => !seqs.contains k.seq) }))) ∧
    (∀ seq : BitVec 12, exec (.linkNak p seq) s = .next (replayLimit p
      (replayFrom p (fun k => decide (0 < (k.seq - seq).toNat ∧ (k.seq - seq).toNat < 2048)) s))) ∧
    exec (.replayTimeout p) s = .next (replayLimit p (replayFrom p (fun _ => true) s)) ∧
    (∀ (c : BitVec 4) (n : BitVec 16), 1 ≤ c.toNat → c.toNat ≤ 4 → x.regrant.contains c.toNat = false →
      exec (.linkCredit p c n) s = .next (s.setPort p { x with credits := x.credits.set 0 c.toNat (creditOf x c.toNat + n.toNat) }))

/-- While credit lasts a port sends the oldest RSP (a register write that resets or retrains the port's own link takes effect with it, and
the requests that may then leave the request queues do), the next request of the mailbox whose turn it is, and, while reel memory takes
accesses, the oldest notification as an NTF packet with its record's four words; a request that arrives at its attachments is entered in its
mailbox, a response goes to the request that waits for it. (R452, R454, R464, R466, R467, R468) -/
def Obligations.PortSends : Prop :=
  (∀ (s s1 : State) (p : Fin 4) (r : Rsp) (rest : List Rsp), s1 = serveWins p s → maySend s1 p 1 = true →
    (port s1 p).rspq.items = r :: rest → (port s1 p).rspq.ok = true →
    ∀ s2, s2 = sendPkt p 1 4 r.tag r.status 0 r.words (s1.setPort p { port s1 p with rspq := (port s1 p).rspq.pop 64 }) →
    (r.after = none → exec (.rspSend p) s = .next (serveAll s2)) ∧
    (∀ a v, r.after = some (a, v) → exec (.rspSend p) s = .next (serveAll (writeReg p a v s2))) ∧
    (∀ u : State, (∀ q, reqReady u q = false) → serveAll u = u)) ∧
  (∀ (s s1 : State) (p : Fin 4) (m : Nat) (e : MbxEnt), s1 = serveWins p s → maySend s1 p 2 = true → qBad s1 p 2 = false →
    nextInTurn ((List.range 16).filter (fun m => (mboxNext (mbox s1 p m)).isSome))
      (if (port s1 p).mbxTurn = 0 then none else some ((port s1 p).mbxTurn - 1)) = some m →
    mboxNext (mbox s1 p m) = some e → unsent (mbox s1 p m).resp = none → unsent (mbox s1 p m).store = none →
    exec (.mbxSend p) s = .next (sendPkt p 2 5 0 stOk m (mbxWords e.pkt)
      ((s1.setMbox p m { mbox s1 p m with inb := markSent (port s1 p).txSeq (mbox s1 p m).inb }).onPort p
        (fun x => { x with mbxTurn := m + 1 })))) ∧
  (∀ (s s1 s2 : State) (p : Fin 4) (r : Nat) (rest : List Nat) (l : List DWord), (port s p).ntfBack = [] →
    (port s p).ntfq.items = r :: rest → (port s p).ntfq.ok = true → memLive s = true →
    s1 = s.setPort p { port s p with ntfq := (port s p).ntfq, ntfBack := [] } → maySend s1 p 3 = true →
    ntfWords p (ntfAddr p r / 8) 4 s1 = (l, s2) →
    exec (.ntfSend p) s = .next (sendPkt p 3 6 0 stOk 0 l (s2.onPort p (fun x => { x with ntfq := (port s p).ntfq.pop 16 })))) ∧
  (∀ (s s1 : State) (p : Fin 4) (k : Fin 2) (r : Packet) (m : Nat), s.xng.stopped.contains (128 + p.val) = false →
    (List.range 4).find? (fun d => !(inbox s (laneKey (portOf s (.mbox p.val 0) k) true d)).isEmpty) = none →
    nextReq s (portOf s (.mbox p.val 0) k) = some r → s1 = takeReq (portOf s (.mbox p.val 0) k) s →
    m = (r.dest.toNat - 0x1080) % 16 → qBad s1 p (16 + m) = false → (mbox s1 p m).inb.length < 16 →
    exec (.mailboxArrival p k) s = .next (s1.setMbox p m { mbox s1 p m with
      inb := (mbox s1 p m).inb ++ [{ pkt := r, exit := portOf s (.mbox p.val 0) k, sent := none }] })) ∧
  (∀ (s : State) (p : Fin 4) (k : Fin 2) (d : Nat) (r : Packet) (rest : List Packet), s.xng.stopped.contains (128 + p.val) = false →
    (List.range 4).find? (fun d => !(inbox s (laneKey (portOf s (.mbox p.val 0) k) true d)).isEmpty) = some d →
    inbox s (laneKey (portOf s (.mbox p.val 0) k) true d) = r :: rest →
    exec (.mailboxArrival p k) s = .next (serveWins p (respToMbox p.val ((r.dest.toNat - 0x1080) % 16) r
      (s.setInbox (laneKey (portOf s (.mbox p.val 0) k) true d) rest))))

/-- After release RPTR moves up to WPTR; BATCH_DATA stages an entry; COMMIT and COMMIT_AT hand the staged entries to the check, DISCARD
drops them; a check without failure accepts the batch for its tick; DOMAIN_RESET from the owner or its own port resets the domain. (R468,
R471, R472, R473, R474, R475, R483, R486) -/
def Obligations.BatchCommands : Prop :=
  ∀ (s : State) (p : Fin 4), beforeRelease s = false →
    (∀ v : Word, (v - s.regP p .hlkNtfRptr 0 0).toNat ≤ (s.regP p .hlkNtfWptr 0 0 - s.regP p .hlkNtfRptr 0 0).toNat →
      s.ntf.owed.get 0 p = 0 → exec (.ntfRptrWrite p v) s = .next ((s.setRegP p .hlkNtfRptr 0 0 v).stat stOk)) ∧
    (∀ v : Word, (batchOf s p).checking = none → (batchOf s p).staged.length < 1024 →
      exec (.batchDataWrite p v) s = .next ((batchState p 1 (s.setBatch p { batchOf s p with
        staged := (batchOf s p).staged ++ [(s.regP p .batchAddr 0 0, v)] })).stat stOk)) ∧
    ((batchOf s p).checking = none → (pendingOf s p).length < 2 →
      exec (.commit p) s = .next ((batchState p 2 (s.setBatch p { staged := [], checking := some ((batchOf s p).staged, none) })).stat stOk) ∧
      exec (.commitAt p) s = .next ((batchState p 2 (s.setBatch p
        { staged := [], checking := some ((batchOf s p).staged, some (atTick s p)) })).stat stOk)) ∧
    ((batchOf s p).checking.isSome = true →
      exec (.discard p) s = .next ((batchState p 6 (s.setBatch p { batchOf s p with checking := none })).stat stOk)) ∧
    (∀ l at_ s1 t, (batchOf s p).checking = some (l, at_) → s1 = s.setBatch p { batchOf s p with checking := none } →
      t = at_.getD (nextCommit s1.now) → batchCheck (directStatus p) s1 p l t = none → tickLt t (s1.now + 8192) = false →
      exec (.batchCheckDone p) s = .next (batchStat p 3 stOk
        { s1 with host := { s1.host with accepted := s1.host.accepted ++ [{ port := p, entries := l, tick := t }] } })) ∧
    (∀ d : Fin 4, p = 0 ∨ p = d → exec (.domainReset p d) s = .next ((orHold (1 + 4 * p + d) (domainReset p d) s).stat stOk))

/-! ## Images -/

/-- In a full image, each command taken when it is complete and where its checks hold: WREG records its pairs, SKEIN and INST enter their
definitions, DIR_END moves to the frames, FRAMES_P, FRAMES_L and SKEIN_FRAMES write their frames (for one record), END closes the section.
(R493, R494, R495, R496, R498, R500, R501, R502, R503, R504, R505) -/
def Obligations.ImageDirectory : Prop :=
  ∀ (s s1 : State) (op : Nat) (c : LCmd) (l l' : Load), LoadReady s op c l l' → s1 = s.onLoad (fun _ => l') → l'.partial_ = false →
    (op = 0x01 → firstBadPair (fun h p => fullPair h (l'.section_ == 3) p) putPair (withPairs l'.wregs s1) (pairsOf (c.off + 1) c.payload) = none →
      exec .wreg s = .next (scan (epochEnd (inEpoch l) c
        (s1.onLoad (fun l => { l with wregs := l.wregs ++ pairsOf (c.off + 1) c.payload }))))) ∧
    (∀ d : Word, op = 0x02 → d = c.payload.headD 0 → countOf c.word = 1 + 2 * fld d 16 12 → skeinOf l' (fld d 31 24) = none →
      fld d 16 12 ≤ 16 → fld d 23 22 = 0 → fld d 11 0 = 0 →
      (slotsOf (c.payload.drop 1)).all (slotDefOk ((fld d 21 20 + 1) * (fld d 19 18 + 1))) = true →
      exec .skein s = .next (scan (epochEnd (inEpoch l) c (s1.onLoad (fun l => { l with skeins := l.skeins ++
        [{ index := fld d 31 24, w := fld d 21 20 + 1, h := fld d 19 18 + 1, nomove := bitOf d 17,
           slots := slotsOf (c.payload.drop 1) }] }))))) ∧
    (∀ (e : Word) (t : List Word) (d : SkeinDef) (i : Inst), op = 0x03 → c.payload = e :: t → skeinOf l' (fld e 31 24) = some d →
      t.length = 1 + d.slots.length → i = entryInst d e (t.headD 0) ((t.drop 1).take d.slots.length) →
      entryBad l' e (t.headD 0) i = false →
      exec .inst s = .next (scan (epochEnd (inEpoch l) c (s1.onLoad (fun l =>
        { l with insts := l.insts ++ [i], instOffs := l.instOffs.put i.base (c.off + 1) }))))) ∧
    (op = 0x04 → fullDirError c l' (withPairs l'.wregs s1) = none →
      ∃ s2, exec .dirEnd s = .next (scan (epochEnd (inEpoch l) c s2)) ∧
        s2 = ((withPairs (l'.wregs.filter (fun p => match regAt p.addr with
          | some (r, _, _) => dirReg r
          | none => false)) s1).onLdr (fun x => { x with state := 2 })).onLoad
            (fun l => { l with section_ := 3, placed := false, dirEnd := c.off })) ∧
    (∀ (off n : Nat) (a : Word) (ess : DWord) (ws : List Word), op = 0x05 → a = c.payload.headD 0 → fld a 31 30 = 1 → fld a 29 19 = 0 →
      bitOf a 18 = true → fld a 17 12 = 0 → recordCount c = 1 → recordOf c 0 = (off, ess, ws) → n = 64 * fld a 11 6 + fld a 5 0 → n < 128 →
      sysRecordOk n ess ws = true →
      exec .framesP s = .next (scan (epochEnd (inEpoch l) c (writeEss (sysFrame + n) ess (writeFrame (sysFrame + n) ws s1))))) ∧
    (∀ (off t : Nat) (a : Word) (ess : DWord) (ws : List Word), op = 0x06 → a = c.payload.headD 0 → fld a 31 30 = 2 → fld a 29 18 = 0 →
      recordCount c = 1 → recordOf c 0 = (off, ess, ws) → fld a 5 0 < 40 → t = fld a 17 6 → t < 3968 → outside s1 t = false →
      mapped s1 t = true →
      exec .framesL s = .next (scan (epochEnd (inEpoch l) c (putTileFrame (physOf s1 t) (fld a 5 0) ess ws s1)))) ∧
    (∀ (off k : Nat) (a : Word) (ess : DWord) (ws : List Word) (d : SkeinDef), op = 0x07 → a = c.payload.headD 0 →
      skeinOf l' (fld a 31 24) = some d → k = fld a 23 20 → k < d.w * d.h → fld a 19 6 = 0 → recordCount c = 1 →
      recordOf c 0 = (off, ess, ws) → 8 ≤ fld a 5 0 → fld a 5 0 < 40 →
      exec .skeinFrames s = .next (scan (epochEnd (inEpoch l) c (forEach (l'.insts.filter (fun i => i.skein == d.index))
        (fun i s => putTileFrame (physOf s (i.base + k)) (fld a 5 0) ess (patch d i k (fld a 5 0) ws) s) s1)))) ∧
    (op = 0x0C → unsized (withPairs l'.wregs s1) = none → shortSkein l' = none →
      brokenTile s1 (s1.dst.insts.filter (fun i => l'.insts.any (fun k => k.base == i.base))) = none →
      exec .endCheck s = .next (scan (epochEnd (inEpoch l) c (s1.onLoad (fun l => { l with section_ := 4 })))))

/-- An authentic key wrap gives the key, an authentic epoch its plaintext, NEXTKEY the next key; REGION declares a region that stands its
checks; a signature that verifies against a good slot sets the image's hash. The algorithms are those the spec names, by their standards
(notes/assumptions/15.md). (R493, R494, R510, R511, R512, R519) -/
def Obligations.ImageSecurity : Prop :=
  ∀ (s s1 : State) (op : Nat) (c : LCmd) (l l' : Load), LoadReady s op c l l' → s1 = s.onLoad (fun _ => l') →
    (∀ key, op = 0x09 → gcmOpen kek (bytesOfWords ((c.payload.drop 0).take 3)) (bytesOfWords (l'.img.take 16))
        (bytesOfWords ((c.payload.drop 3).take 8)) (bytesOfWords ((c.payload.drop 11).take 4)) = some key →
      exec .keywrap s = .next (scan (epochEnd (inEpoch l) c
        (s1.onLoad (fun l => { l with key := key, section_ := if l'.partial_ then 1 else 2 }))))) ∧
    (∀ e n bs, op = 0x0A → e = (c.payload.headD 0).toNat → n = (c.payload.getD 4 0).toNat → e < 65536 → 0 < n → n ≤ 131072 →
      countOf c.word = 9 + n → e = l'.nextEpoch →
      gcmOpen l'.key (bytesOfWords ((c.payload.drop 1).take 3)) (bytesOfWords (c.word :: c.payload.take 5))
        (bytesOfWords ((c.payload.drop 5).take n)) (bytesOfWords ((c.payload.drop (5 + n)).take 4)) = some bs →
      exec .epoch s = .next (scan (epochEnd (inEpoch l) c ((s1.putWords (0x1FF00000 + e % 2 * 0x80000) (wordsOfBytes bs)).onLoad
        (fun l => { l with plain := wordsOfBytes bs, plainOff := c.off + 6, nextEpoch := e + 1 }))))) ∧
    (op = 0x0B → exec .nextkey s = .next (scan (epochEnd (inEpoch l) c (s1.onLoad (fun l => { l with key := bytesOfWords c.payload }))))) ∧
    (∀ rs pins, op = 0x08 → s.dst.mig = none → rs = regionRanges ((c.payload.drop 1).take (fld (c.payload.headD 0) 31 28)) →
      pins = (c.payload.drop (1 + fld (c.payload.headD 0) 31 28)).map (fun w => (fld w 8 0, BitVec.ofNat 2 (fld w 13 12))) →
      countOf c.word = 1 + fld (c.payload.headD 0) 31 28 + fld (c.payload.headD 0) 8 0 → regionError s1 c = none →
      exec .region s = .next (scan (epochEnd (inEpoch l) c ((acceptRegion rs pins s1).onLoad (fun l => { l with section_ := 2 }))))) ∧
    (∀ mh i, op = 0x0D → mh = sha256 (bytesOfWords (c.payload.take 96)) →
      [0, 1, 2].find? (fun i => slotGood s1.sec.fuses i && s1.sec.fuses.slots.find i == some mh) = some i →
      pssVerify (bytesOfWords (c.payload.take 96)) (bytesOfWords (c.payload.drop 96)) (sha256 (bytesOfWords (l'.img.take c.off))) = true →
      exec .signature s = .next (scan (epochEnd (inEpoch l) c (s1.onLoad (fun l =>
        { l with section_ := 5, hash := sha256 (bytesOfWords (l'.img.take c.off)), modHash := mh, slotUsed := if secState s1 = 0 then none else some i })))))

/-- The flash's words are taken, a host's words written to CFG_STREAM are taken with OK and wait while the placement runs, the chain port's
words are fed and a sync word begins a load; START_FULL and START_PARTIAL begin theirs; ABORT and a lost stream or chain end the load with
its code; CLEAR_REGION from the owner or the region's port clears a torn region. (R487, R490, R506, R507, R516, R517, R518, R522, R524,
R525, R526) -/
def Obligations.LoadControl : Prop :=
  ∀ s : State,
    (∀ (ws : List Word) (dqs : Bool) (l : Load), s.ldr.mode = 0 → s.ldr.load = some l → l.partial_ = false → l.port = none →
      s.ldr.flash = 4 → exec (.flashReadDone ws dqs) s = .next (flashData ws s)) ∧
    (∀ (p : Fin 4) (v : Word) (l : Load), s.ldr.load = some l → l.port = some p → moreWords l = true →
      (l.section_ ≠ 3 ∨ l.placed = true → exec (.cfgStreamWrite p v) s = .next ((takeWord v s).stat stOk)) ∧
      (l.section_ = 3 → l.placed = false → exec (.cfgStreamWrite p v) s = .next (holdWord p v s))) ∧
    (∀ v : Word, s.ldr.mode = 1 → chainWaits s = false → exec (.chainInputWord v) s = .next (feed v s)) ∧
    (chainWaits s = true → exec .chainSync s = .next (takeWord syncWord (beginFull none 2 s))) ∧
    (∀ l, s.ldr.mode = 1 → s.ldr.load = some l → l.partial_ = false → l.port = none → moreWords l = true → (endLoad 0x15 s).ldr.fwd = none →
      exec .chainInputTimeout s = .next (endLoad 0x15 s)) ∧
    (s.ldr.state = 5 → exec (.startFull 0) s = .next ((beginFull (some 0) 3 s).stat stOk)) ∧
    (∀ p : Fin 4, loadRuns s = false → s.ldr.state = 4 → exec (.startPartial p) s = .next (((clearErr s).onLdr
      (fun x => { x with load := some { Load.init with partial_ := true, port := some p }, loadPort := p })).stat stOk)) ∧
    (∀ l, s.ldr.load = some l → exec (.abort 0) s = .next ((endLoad 0x16 s).stat stOk) ∧
      exec .streamLost s = .next (endLoad 0x15 s)) ∧
    (∀ (r : RegionSt) (p : Fin 4), s.ldr.region = some r → p = 0 ∨ p = r.port → r.torn = true → loadRuns s = false →
      exec (.clearRegion p) s = .next ((clearTorn r s).stat stOk))

/-- A full or partial image whose instances find places is mapped, its edges entered and its owner told, and what waited for that goes on; a
full image that is complete and verifies clean, while the scrubber is not halted, is put in force, the part released and that raised to
every port; a region that verifies clean is applied and released with its pins. (R166, R167, R168, R169, R503, R507, R509, R523, R527) -/
def Obligations.ImageRelease : Prop :=
  ∀ (s : State) (l : Load), s.ldr.load = some l →
    (∀ insts s1, l.partial_ = true → l.section_ = 3 → l.placed = false → tryPlace (sortInsts placeBefore l.insts) s = (.ok insts, s1) →
      exec .placementComplete s = .next (serveAll (scan (notifyOwner 0x57 0 [w32 insts.length]
        ((forEach insts enterInst s1).onLoad (fun l => { l with placed := true })))))) ∧
    (∀ insts s1 s2, l.partial_ = false → l.section_ = 3 → l.placed = false → tryPlace (sortInsts placeBefore l.insts) s = (.ok insts, s1) →
      placeSpools 2112 0 (forEach insts enterInst s1) = .ok s2 →
      exec .placementComplete s = .next (serveAll (scan (notifyOwner 0x57 0 [w32 insts.length]
        ((s2.onLdr (fun x => { x with state := 1 })).onLoad (fun l => { l with placed := true })))))) ∧
    (∀ s1 s2, l.partial_ = false → l.section_ = 6 → s.memory.initDone = true → s.scrub.state ≠ 2 → verifyFrames (unverified s) s = (none, s1) →
      s2 = serveFailing (releaseIo (flushHeld (genesis (openSpools (inForce l (withPairs l.wregs
        (clearStaging (clearReel 0x1F000000 0x800000 (passVerified s1))))))))) →
      ∀ s3, s3 = notifyOwner 0x10 0 [imgDesign l, w32 s2.ldr.source.toNat] s2 →
      exec .ioRelease s = .next (notifyPorts 0x00 0 [w32 (fld (s3.reg .sysResetCause 0) 3 0)] [0, 1, 2, 3] s3)) ∧
    (∀ r s1, l.partial_ = true → l.section_ = 6 → s.scrub.state ≠ 2 → s.ldr.region = some r →
      verifyFrames ((physTiles s (rangesHold r.ranges)).flatMap (fun t => (List.range 40).map (fun m => 40 * t + m))) s = (none, s1) →
      ∀ s2 s3 s4, s2 = (closeRegion r.ranges (clearStaging s1)).onLdr (fun x =>
          { x with region := none, load := none, phashPort := r.port, image := l.wregs.foldl (fun m p => m.put p.addr p.val) x.image }) →
        s3 = startTiles (rangesHold r.ranges) (forEach l.wregs (applyPair r.port) s2) →
        s4 = forEach r.pins (fun e s => releasePin (drive s e.1) e.1 s) s3 →
      exec .regionRelease s = .next (serveFailing (notify 0x12 r.port [w32 r.port, imgDesign l] (ledgerRecord 6 r.port 0 0 0 [imgDesign l, w32 r.port] l.hash
        ((putPortRegs 0 .cfgPhash 0 (wordsOfBytes l.hash) (s4.setReg .cfgPdesign 0 (imgDesign l))).bump .cfgPartials 0 1)))))

/-! ## Integrity and security -/

/-- A running scrubber reads the next frame of its pass; unless it is halted the triples are voted; a due test takes the next free tile,
TILE_TEST from the owner the tile it names; a due test that passes leaves the tile clear and counted, one that does not fails the tile.
(R536, R537, R542, R546, R547, R548, R552) -/
def Obligations.ScrubAndTest : Prop :=
  ∀ s : State,
    (∀ s1 s2, s.scrub.state = 1 → s.scrub.verifying = false → frameFrozen s (passFrame s.scrub.pos) = false →
      s1 = serveFailing (scrubFrame (passFrame s.scrub.pos) s) → s2 = s1.onScrub (fun x => { x with pos := x.pos + 1 }) →
      s2.scrub.pos < passFrames → exec .scrubFrameRead s = .next s2) ∧
    (s.scrub.state ≠ 2 → exec .tripleVote s = .next (forEach (s.scrub.triples.map (·.1))
      (fun i s => if s.scrub.state = 2 then s else voteTriple i s) s)) ∧
    (∀ t, bitOf (s.reg .scrubCfg 0) 31 = true → testerIdle s = true → gapOver s = true → nextFreeTile s = some t →
      exec .tileTestStart s = .next (beginTest t false false (s.onDst (fun d => { d with testPos := t + 1 })))) ∧
    (∀ t, s.dst.test = some t → t.requested = false → s.scrub.state ≠ 2 →
      exec (.tileTestEnd 0) s = .next (countTest false (testGap (clearTile t.tile (s.onDst (fun d => { d with test := none })))))) ∧
    (∀ (t : TileTestSt) (u : BitVec 4) (s1 : State), s.dst.test = some t → 0 < u.toNat → u.toNat ≤ 8 → s.scrub.state ≠ 2 →
      s1 = failTile t.tile 1 (countTest true (testGap (clearTile t.tile (s.onDst (fun d => { d with test := none }))))) →
      exec (.tileTestEnd u) s = .next (if t.requested then bistReport t.tile stFault u.toNat s1 else s1)) ∧
    (∀ v t, beforeRelease s = false → t = fld v 11 0 → s.sec.fuses.retired.contains t = false → testerIdle s = true →
      s.dst.retRt.any (fun e => e.tile == t) = false → freeTile s t = true →
      exec (.tileTest 0 v) s = .next ((beginTest t true false s).stat stOk))

/-- An upset of a frame, a reel word, a tile RAM word or a triple flips exactly the bit it names and no other of its kind, and the part goes
on. An evacuation that waits is tried again as soon as the cap allows. (R78, R185, R347, R535, R542) -/
def Obligations.UpsetsAndEvacuation : Prop :=
  ∀ s : State, exec .evacuationCapRelease s = .next (serveFailing s) ∧ (∀ u, exec (.upset u) s = .next (upsetAct u s)) ∧
    (∀ (f : Fin 167936) (b : Fin 2061) (t : State), exec (.upset (.frame f b)) s = .next t → t.mem = s.mem ∧ t.regs = s.regs ∧
      ∀ k, t.fab.cfg.get 0 k = s.fab.cfg.get 0 k ^^^ (if k = 64 * f.val + b / 32 ∧ b.val < 2048 then BitVec.ofNat 32 (2 ^ (b.val % 32)) else 0)) ∧
    (∀ (w : Fin 67108864) (b : Fin 72) (t : State), exec (.upset (.reel w b)) s = .next t → t.regs = s.regs ∧ t.fab = s.fab ∧
      ∀ a, memByte t a = memByte s a ^^^ (if a = 8 * w.val + b / 8 ∧ b.val < 64 then BitVec.ofNat 8 (2 ^ (b.val % 8)) else 0)) ∧
    (∀ (p : Fin 4096) (w : Fin 2048) (b : Fin 33) (t : State), exec (.upset (.tileRam p w b)) s = .next t → t.mem = s.mem ∧ t.regs = s.regs ∧
      ∀ q k, (tileSt t q).ram.get 0 k = (tileSt s q).ram.get 0 k ^^^
        (if q = p.val ∧ k = w.val ∧ b.val < 32 then BitVec.ofNat 32 (2 ^ b.val) else 0)) ∧
    (∀ (i : Fin 256) (c : Fin 3) (b : Fin 32) (t : State), exec (.upset (.triple i c b)) s = .next t → (triple s i).length = 3 →
      (triple t i).getD c 0 = (triple s i).getD c 0 ^^^ BitVec.ofNat 32 (2 ^ b.val) ∧ ∀ e, e ≠ c.val → (triple t i).getD e 0 = (triple s i).getD e 0)

/-- While nothing is busy and VFUSE is good, TAKE_OWNERSHIP, PROGRAM_SLOT, REVOKE_SLOT, SEAL, ADVANCE_ROLLBACK and FUSE_RETIRE from the
owner that pass their checks begin their program; the end of a program brings its item into force and is raised; VFUSE lost cuts a program
of SEC_CMD short with FAULT and is raised. (R549, R553, R555, R557, R558, R559, R560, R570, R573, R637) -/
def Obligations.FusePrograms : Prop :=
  ∀ s : State, (secBusy s 0 = false → firstBad (fuseStatus s) = stOk →
    (∀ v, secState s = 0 → confirmed v = true → s.ldr.signed = true → argHash s 0 = s.ldr.modHash →
      exec (.takeOwnership 0 v) s = .next (startFuse 0 1 (.own 0 (argHash s 0)) s)) ∧
    (∀ v, secState s = 1 → confirmed v = true → (fld v 1 0 = 1 ∨ fld v 1 0 = 2) → s.sec.fuses.slots.find (fld v 1 0) = none →
      exec (.programSlot 0 v) s = .next (startFuse 0 2 (.slot 0 (fld v 1 0) (argHash s 0)) s)) ∧
    (∀ v, secState s ≠ 0 → confirmed v = true → (s.sec.fuses.slots.find (fld v 1 0)).isSome = true →
      (List.range 3).any (fun k => k != fld v 1 0 && slotGood s.sec.fuses k) = true →
      exec (.revokeSlot 0 v) s = .next (startFuse 0 3 (.revoke 0 (fld v 1 0)) s)) ∧
    (∀ v, secState s = 1 → confirmed v = true → exec (.seal 0 v) s = .next (startFuse 0 4 (.seal 0) s)) ∧
    (∀ v, secState s ≠ 0 → s.sec.slotUsed.isSome = true → confirmed v = true → s.sec.fuses.rollback < s.ldr.rollback →
      exec (.advanceRollback 0 v) s = .next (startFuse 0 5 (.rollback 0 s.ldr.rollback) s)) ∧
    (∀ v, beforeRelease s = false → s.dst.retRt.any (fun e => e.tile == fld v 11 0) = true → s.sec.fuses.retired.length < 128 →
      fuseBusy s = false → s.sec.vfuseOk = true →
      exec (.fuseRetire 0 v) s = .next (((s.onSec (fun x => { x with fuseOp := some (.retire 0 (fld v 11 0)) })).setReg .scrubFuseStat 0
        (fuseStatWord true stOk)).stat stOk))) ∧
    (∀ f, s.sec.fuseOp = some f → exec .fuseProgramDone s = .next (fuseNotice f (fuseForce f (fuseTarget f) (fuseEnd f stOk s)))) ∧
    (∀ f op, s.sec.fuseOp = some f → fuseCode f = some op → exec .vfuseLost s = .next (notifyOwner 0x37 0 [w32 op]
      (fuseEnd f stFault (fuseCut f (s.onSec (fun x => { x with vfuseOk := false }))))))

/-- With CONFIRM other than 0xA5C3 each irreversible command, in the security states that accept it and while no command of the port runs,
completes with RANGE and programs nothing; SEAL outside Owned completes with UNSUPPORTED; where its program ends SEALED is set and
SEC_SEALED raised. (R559) -/
def Obligations.IrreversibleCommands : Prop :=
  ∀ (s : State) (v : Word), (secBusy s 0 = false →
    (confirmed v = false → ∀ c : Instr, (secState s = 0 ∧ c = .takeOwnership 0 v) ∨ (secState s = 1 ∧ c ∈ [Instr.programSlot 0 v, .seal 0 v]) ∨
        (secState s ≠ 0 ∧ c = .revokeSlot 0 v) ∨ (secState s ≠ 0 ∧ s.sec.slotUsed.isSome = true ∧ c = .advanceRollback 0 v) →
      ∃ t, exec c s = .next t ∧ t.done.status = stRange ∧ t.sec = s.sec ∧ t.mem = s.mem) ∧
    (secState s ≠ 1 → ∃ t, exec (.seal 0 v) s = .next t ∧ t.done.status = stUnsupported ∧ t.sec = s.sec)) ∧
    (∀ p, s.sec.fuseOp = some (.seal p) → ∃ u t, exec .fuseProgramDone s = .next t ∧ t = notifyOwner 0x31 0 [] u ∧
      t.sec.fuses.sealed_ = true ∧ t.sec.fuseOp = none)

/-- ATTEST, and SIGN_HEAD from the owner once a record exists, while nothing is busy start a report; its completion stores the report and
its signature and is raised; an acknowledgement of a record that exists moves the acknowledged count on; REC_SEL selects a record with its
status; reading LEDGER_SEQ_LO latches SEQ_HI and the chain. The signature is the one R567 defines, under a key and a salt of free values
(notes/assumptions/15.md). (R564, R565, R567, R568, R570, R571, R573, R574) -/
def Obligations.ReportsAndLedger : Prop :=
  ∀ s : State,
    (∀ p : Fin 4, secBusy s p = false → reportBusy s p = false → exec (.attest p) s = .next (startReport p 6 1 s)) ∧
    (secBusy s 0 = false → reportBusy s 0 = false → s.sec.ledNext ≠ 0 → exec (.signHead 0) s = .next (startReport 0 7 2 s)) ∧
    (∀ p ws rest, s.sec.reports = (p, 1, ws) :: rest → exec .reportDone s = .next (reportNotice p 1 stOk (ws.getD 39 0)
      ((putPortRegs p .secRpt 0 (ws ++ reportSig s (sha256 (bytesOfWords ws)))
        ((s.nextFree).onSec (fun x => { x with reports := rest }))).setRegP p .secCmdStat 0 0 (secStatWord false 6 stOk)))) ∧
    (∀ p ws rest h, s.sec.reports = (p, 2, ws) :: rest → h = sha256 (bytesOfWords ws) → exec .reportDone s =
      .next (ledgerRecord 9 0 0 0 0 [ws.getD 39 0, ws.getD 40 0] h (reportNotice p 2 stOk (ws.getD 39 0)
        ((putPortRegs p .secRpt 0 (ws ++ reportSig s h)
          ((s.nextFree).onSec (fun x => { x with reports := rest }))).setRegP p .secCmdStat 0 0 (secStatWord false 7 stOk))))) ∧
    (∀ v q, q = seqOf s 0 .secLedgerAckHi v → s.sec.ledAck ≤ q + 1 → q < s.sec.ledNext →
      exec (.ledgerAckWrite 0 v) s = .next ((waitOver ((s.onSec (fun x => { x with ledAck := q + 1 })).setReg .secLedgerAckLo 0 v)).stat stOk)) ∧
    (∀ (p : Fin 4) v r, r = selectRecord p (seqOf s p .secRecSelHi v) s →
      (r.1 ≠ stDenied → exec (.recSelWrite p v) s = .next (((r.2.setRegP p .secRecSelLo 0 0 v).setRegP p .secRecStat 0 0 (w32 r.1.toNat)).stat r.1)) ∧
      (r.1 = stDenied → exec (.recSelWrite p v) s = .next (r.2.stat stDenied))) ∧
    exec (.ledgerSeqRead 0) s = .next ((putPortRegs 0 .secLedgerChain 0 (wordsOfBytes s.sec.ledChain)
      (s.setRegP 0 .secLedgerSeqHi 0 0 (w32 ((s.sec.ledNext - 1) / 2 ^ 32)))).finish stOk [w32 (s.sec.ledNext - 1)])

/-! ## Power -/

/-- In Run the owner's DOZE and PARK begin the entry, and Doze or Park is entered when nothing holds it; the owner's WAKE, the timer and the
end of a thermal Park wake; a trip in Run, as its value crossing accepts it, begins a thermal Park; PARK from Doze enters Park once nothing
holds it (how it waits is the model's choice, notes/assumptions/92.md); a completed wake returns to Run: reel memory takes accesses again
and the notifications held for it are written, the tiles start after Park and settle after Doze once the held resets are taken, pins, sense
pins, readers and lanes go on, every island's clock runs, the ports train after Park, and the wake is raised; a thermal trip meanwhile
begins its Park. (R579, R580, R581, R583, R584, R585, R590, R598) -/
def Obligations.PowerStates : Prop :=
  ∀ s : State,
    (s.pwr.state = 0 → exec (.doze 0) s = .next ((startEntry false s).stat stOk) ∧
      exec (.park 0) s = .next ((startEntry true s).stat stOk)) ∧
    exec (.wake 0) s = .next ((wakeBy 1 0 s).stat stOk) ∧
    (s.pwr.state = 4 → s.pwr.entering = some false → entryFree s = true → exec .powerEntryProceed s =
      .next (powerDown false (drainMem (pauseRuns (sleepPins (stopSenses (pauseLanes s))))))) ∧
    (s.pwr.state = 4 → s.pwr.entering = some true → entryFree s = true → exec .powerEntryProceed s =
      .next (powerDown true (drainMem (endRuns (sleepPins (stopSenses (pauseLanes s))))))) ∧
    (s.pwr.state = 2 → s.pwr.entering = none →
      (entryFree s = true → exec (.park 0) s = .next ((powerDown true (endRuns s)).stat stOk)) ∧
      (entryFree s = false → exec (.park 0) s = .next ((s.onPwr (fun x => { x with entering := some true })).stat stOk))) ∧
    (s.pwr.state = 2 → s.pwr.entering = some true → entryFree s = true → exec .powerEntryProceed s = .next (powerDown true (endRuns s))) ∧
    (timerSet s = true → s.pwr.state = 2 ∨ s.pwr.state = 3 ∨ s.pwr.state = 4 → exec .wakeTimer s = .next (wakeBy 3 0 (advanceTo (wakeTick s (s.reg .pwrWakeAtHi 0)) s))) ∧
    (s.pwr.thermal = true → s.pwr.state = 3 → exec .thermalRelease s = .next (wakeBy 4 0 s)) ∧
    (∀ (r : Fin 64) (t : Byte) (s1 : State), fld (s.reg .pwrTherm 0) 7 0 ≤ t.toNat → s.pwr.state = 0 →
      s1 = { s with dst := { s.dst with temps := setAt s.dst.temps r t } } → fld (s.reg .pwrTherm 0) 7 0 ≤ (sensors s1).getD r 0 →
      exec (.thermTrip r t) s = .next (startEntry true (notifyOwner 0x45 0 [w32 r, w32 t.toNat] (s1.onPwr (fun x => { x with thermal := true }))))) ∧
    (∀ s1 s2 s3 s4, s.pwr.state = 5 →
      s1 = writeEarly ((s.onMem (fun m => { m with
        vret := false, ret := [], waking := [],
        lastUse := (List.range 16).foldl (fun l g => l.set 0 g s.now) m.lastUse })).onPwr
          (fun x => { x with state := 0, entering := none, heldReset := [], calmRun := 0 })) →
      s2 = (if s.pwr.entering = some true then startTiles (fun t => !tileFrozen s1 t) s1
        else forEach (physTiles s1 (fun _ => true)) settleRunning (forEach s.pwr.heldReset heldAct s1)) →
      s3 = wakeLanes { resumeRuns (flushHeld (wakeSenses (wakePins s2))) with
        xng := { (resumeRuns (flushHeld (wakeSenses (wakePins s2)))).xng with stopped := [] } } →
      s4 = notifyOwner 0x41 0 [w32 (fld (s.reg .pwrWakeSrc 0) 31 28), w32 ((s.now - s.pwr.wakeAt).toNat / 12800)]
        (if s.pwr.entering = some true ∧ s3.fab.released = true then forEach [1, 2, 3] portDetect s3 else s3) →
      exec .wakeComplete s = .next (if s4.pwr.thermal then startEntry true s4 else s4))

/-- In Run with a configuration, each period takes the temperatures, judges load and calm, writes the setting within the limits (those of
PWR_VLIM, or 620 to 900 mV where none legal is set, notes/assumptions/70.md) and reads back where an alert has not taken the period's read
(notes/assumptions/92.md), and a temperature at the trip limit trips; an alert reads STATUS_WORD. A limit that is legal and not locked is
stored with OK, PWR_WAKE_AT answers its status, and SYS_LOCK only gains bits. (R587, R588, R589, R590, R591, R598, R600, R601) -/
def Obligations.GovernorAndLimits : Prop :=
  ∀ s : State,
    (s.ldr.cfgDone = true → s.pwr.state = 0 → ∀ (temps : List Byte) (k : Fin 101) (r : PmbResult) (s1 s2 s3 s4 : State) (up calm : Bool) (t : Nat),
      s1 = ({ s with dst := { s.dst with temps := temps } } : State).onPwr (fun x => { x with bus := [] }) →
      up = decide (0 < s.pwr.missed ∨ fld (s.reg .pwrGov 0) 31 26 ≤ s.pwr.lag ∨ fld (s.reg .pwrGov 0) 19 13 ≤ k.val) →
      calm = decide (s.pwr.missed = 0 ∧ s.pwr.lag ≤ fld (s.reg .pwrGov 0) 25 20 ∧ k.val ≤ fld (s.reg .pwrGov 0) 12 6) →
      t = min (ceilMv s) (max (floorMv s) (govJudge s1 up calm).1) →
      s2 = govWrite t r.writeAck (shortfall (up && decide (t ≤ s.pwr.vcore)) (s1.onPwr (fun x => { x with calmRun := (govJudge s1 up calm).2 }))) →
      s3 = s2.onPwr (fun x => { x with period := (s2.pwr.period + 1) % 16, statusDue := x.statusDue || (s2.pwr.period + 1) % 16 == 0 }) →
      s4 = (if s3.pwr.readUsed then s3 else govRead r s3) →
      exec (.governorPeriod temps k r) s = .next (tripHot (s4.onPwr (fun x => { x with lag := depthNow s4, missed := 0, readUsed := false })))) ∧
    (∀ v, s.reg .pwrVlim 0 = v → vlimOk v = true → ceilMv s = fld v 25 16 ∧ floorMv s = fld v 9 0) ∧
    (vlimOk (s.reg .pwrVlim 0) = false → ceilMv s = 900 ∧ floorMv s = 620) ∧
    (∀ (ack : Bool) (w : BitVec 16), s.ldr.cfgDone = true → s.pwr.state = 0 → s.pwr.readUsed = false → exec (.pmbAlert ack w) s =
      .next (govRead { writeAck := true, readAck := ack, word := w } (s.onPwr (fun x => { x with statusDue := true })))) ∧
    (∀ v, pwrLckStatus s 0 .pwrVlim (vlimOk v) v = stOk → exec (.pwrVlimWrite 0 v) s = .next ((s.putFields 0 .pwrVlim 0 0 v).stat stOk)) ∧
    (∀ v, pwrLckStatus s 0 .pwrTherm (thermOk v) v = stOk → exec (.pwrThermWrite 0 v) s = .next ((s.putFields 0 .pwrTherm 0 0 v).stat stOk)) ∧
    (∀ v, exec (.pwrWakeAtWrite 0 v) s = .next ((putWakeAt v s).stat (wakeAtStatus s v))) ∧
    (∀ v, exec (.sysLockWrite 0 v) s = .next ((s.setReg .sysLock 0 (s.reg .sysLock 0 ||| (v &&& 0xFFFF))).stat stOk))

/-! ## Observation -/

/-- After release a source that is legal and the port's own is set and its counter starts from 0, a probe is set, a snapshot takes every
count of one round of tally reads, a round of tally reads adds the differences; an occurrence becomes a record while the probe has room, the
writer takes the oldest record, and reading OBS_CNT_LO latches OBS_CNT_HI. (R561, R603, R604, R605, R606, R609, R610, R611, R617) -/
def Obligations.Observation : Prop :=
  ∀ s : State,
    (∀ (p : Fin 4) (k : Fin 512) (v : Word), beforeRelease s = false → (p = 0 ∨ p.val = k / 128) → srcOk false v = true → srcMine s p v = true →
      exec (.obsCntSrcWrite p k v) s =
        .next ((((wakeIsl 7 0 s).setReg .obsCntSrc k (srcWord v)).setCnt k { obsCnt s k with count := 0, base := none }).stat stOk)) ∧
    (∀ (p : Fin 4) (j : Fin 16) (v : Word), beforeRelease s = false → (p = 0 ∨ (p.val = j / 4 ∧ obsLevel s = 0)) → srcOk true v = true →
      srcMine s p v = true → (obsLevel s = 2 → srcClass v < 9) →
      exec (.obsProbeSrcWrite p j v) s = .next (((wakeIsl 7 0 s).setReg .obsProbeSrc j (srcWord v)).stat stOk)) ∧
    (∀ p : Fin 4, beforeRelease s = false → exec (.snap p) s = .next (((tallyRound (wakeIsl 7 0 s)).onObs
      (fun o => { o with cnts := o.cnts.map (fun e => (e.1, { e.2 with snap := e.2.count })) })).stat stOk)) ∧
    exec .tallyRead s = .next (tallyRound s) ∧
    (∀ (j : Fin 16) (data : Word) (time : Tick) (x : ProbeSt) (w : List Word), x = probe s j → s.reg .obsProbeSrc j ≠ 0 → coreLive s = true → x.q.length < 16 →
      w = probeWords j (s.reg .obsProbeSrc j) x.lostFlag data (if srcClass (s.reg .obsProbeSrc j) = 11 then time else s.now &&& ~~~(0x1FF : BitVec 64)) →
      exec (.probeRecord j data time) s = .next ((s.setProbe j { x with q := x.q ++ [w], lostFlag := false, last := w }).onObs
        (fun o => { o with order := o.order ++ [j.val] }))) ∧
    (∀ (j : Nat) (t : List Nat) (w : List Word) (r : List (List Word)), s.obs.order = j :: t → (probe s j).q = w :: r → s.memory.vret = false →
      exec .traceWrite s = .next (trcRecord w (bufferRecord j w ((s.setProbe j { probe s j with q := r }).onObs (fun o => { o with order := t }))))) ∧
    (∀ (p : Fin 4) (k : Fin 512), beforeRelease s = false → (p = 0 ∨ p.val = k / 128) →
      exec (.obsCntRead p k) s = .next (((wakeIsl 7 0 s).setRegP p .obsCntHi k 0 (w32 ((cntValue s p k).toNat / 2 ^ 32))).finish stOk
        [w32 (cntValue s p k).toNat]))

/-- Counter k, of domain k >> 7, may be configured by the owner and by the port of its domain, any other port is denied; writing its source
clears it to 0; it grows by the tally's difference up to 2^48 − 1 and stays there, and it raises OBS_COUNTER_SAT on reaching that value and
not again. (R605) -/
def Obligations.CountersSaturate : Prop :=
  ∀ (s : State) (k : Fin 512),
    (∀ (p : Fin 4) (v : Word), beforeRelease s = false → p ≠ 0 → p.val ≠ k / 128 → exec (.obsCntSrcWrite p k v) s = .next (s.stat stDenied)) ∧
    (∀ (p : Fin 4) (v : Word), beforeRelease s = false → (p = 0 ∨ p.val = k / 128) → srcOk false v = true → srcMine s p v = true →
      ∃ t, exec (.obsCntSrcWrite p k v) s = .next t ∧ (obsCnt t k).count = 0 ∧ t.reg .obsCntSrc k = srcWord v ∧ t.done.status = stOk) ∧
    (∀ (b t : BitVec 16), s.reg .obsCntSrc k ≠ 0 → srcUnstable s (s.reg .obsCntSrc k) = false → (obsCnt s k).base = some b →
      t = s.obs.tally.get 0 (s.reg .obsCntSrc k).toNat →
      ∃ u, readCnt k s = (if (obsCnt u k).count = BitVec.allOnes 48 ∧ (obsCnt s k).count ≠ BitVec.allOnes 48
          then notify 0xD3 (k / 128) [w32 k] u else u) ∧
        (obsCnt u k).count.toNat = min ((obsCnt s k).count.toNat + (t - b).toNat) (2 ^ 48 - 1))

/-- An RD to the observation block with N from 1 to 8 and k + N up to 512 answers 2N words, bits [31:0] then [47:32] of each live counter in
ascending order; an N of 0 or above 8, or a k + N above 512, is refused with RANGE. (R614) -/
def Obligations.CounterReads : Prop :=
  ∀ (s s1 : State) (d : Fin 4) (p : Packet) (k n : Nat), nextReq s (portOf s .obs 0) = some p → p.dom = d → p.op = 2 →
    k = (p.words.getD 0 0).toNat → n = (p.words.getD 1 0).toNat → s1 = takeReq (portOf s .obs 0) s →
    (0 < n → n ≤ 8 → k + n ≤ 512 → ∃ ws, exec (.counterRead d) s = .next (answer p stOk ws s1) ∧ ws.length = 2 * n ∧
      ∀ i, i < n → ws.getD (2 * i) 0 = w32 ((obsCnt s (k + i)).count.toNat % 2 ^ 32) ∧
        ws.getD (2 * i + 1) 0 = w32 ((obsCnt s (k + i)).count.toNat / 2 ^ 32)) ∧
    (n = 0 ∨ 8 < n ∨ 512 < k + n → exec (.counterRead d) s = .next (refuseAtExit p stRange s1))

/-- IDCODE answers the identification register, whose fields [27:12], [11:1] and [0] are 0x4096, 0x2B5 and 1; SAMPLE/PRELOAD captures the
ball states; BYPASS and a reset of the test logic select their registers; nothing else of the part changes. (R615) -/
def Obligations.BoundaryScan : Prop :=
  ∀ s : State,
    exec .idcode s = .next { s with obs := { s.obs with tapIr := 1 }, done := { status := stOk, data := [idWord] } } ∧
    idWord.toNat % 2 = 1 ∧ fld idWord 27 12 = 0x4096 ∧ fld idWord 11 1 = 0x2B5 ∧
    (∀ balls, exec (.samplePreload balls) s = .next { s with obs := { s.obs with tapIr := 2, boundary := balls } }) ∧
    (∀ code, exec (.bypass code) s = .next { s with obs := { s.obs with tapIr := code } }) ∧
    exec .testLogicReset s = .next { s with obs := { s.obs with tapIr := 1 } }
end

