-- ==== Sys2Proof/Laws/NMap.lean ====
section
/-! SUPPORT. Maps by key: their order and canonical form under every operation, and what a key reads after one. -/
namespace Sys2Proof.Machine

theorem NMap.sorted_iff {α : Type} (m : NMap α) : m.sorted = true ↔ m.Pairwise (fun a b => a.1 < b.1) := by
  induction m with
  | nil => simp [NMap.sorted]
  | cons e t ih =>
    obtain ⟨a, w⟩ := e
    cases t with
    | nil => simp [NMap.sorted]
    | cons e t =>
      obtain ⟨b, x⟩ := e
      simp only [NMap.sorted, Bool.and_eq_true, decide_eq_true_eq, ih, List.pairwise_cons]
      constructor
      · rintro ⟨h1, h2, h3⟩
        refine ⟨?_, h2, h3⟩
        intro y hy
        rcases List.mem_cons.1 hy with rfl | hy
        · exact h1
        · exact Nat.lt_trans h1 (h2 y hy)
      · rintro ⟨h1, h2, h3⟩
        exact ⟨h1 (b, x) (by simp), h2, h3⟩
theorem NMap.mem_put {α : Type} (m : NMap α) (k : Nat) (v : α) (e : Nat × α) (h : e ∈ m.put k v) : e = (k, v) ∨ e ∈ m := by
  induction m with
  | nil => simp [NMap.put] at h; exact .inl h
  | cons x t ih =>
    obtain ⟨a, w⟩ := x
    unfold NMap.put at h
    split at h
    · rcases List.mem_cons.1 h with h | h
      · exact .inl h
      · exact .inr (List.mem_cons_of_mem _ h)
    · split at h
      · rcases List.mem_cons.1 h with h | h
        · exact .inl h
        · exact .inr h
      · rcases List.mem_cons.1 h with h | h
        · exact .inr (h ▸ List.mem_cons_self)
        · exact (ih h).imp id (List.mem_cons_of_mem _)
theorem NMap.sorted_put {α : Type} (m : NMap α) (k : Nat) (v : α) (h : m.sorted = true) : (m.put k v).sorted = true := by
  rw [NMap.sorted_iff] at *
  induction m with
  | nil => simp [NMap.put]
  | cons e t ih =>
    obtain ⟨a, w⟩ := e
    rw [List.pairwise_cons] at h
    unfold NMap.put
    split
    · subst_vars
      exact List.pairwise_cons.2 ⟨h.1, h.2⟩
    · split
      · refine List.pairwise_cons.2 ⟨?_, List.pairwise_cons.2 h⟩
        intro y hy
        rcases List.mem_cons.1 hy with rfl | hy
        · assumption
        · exact Nat.lt_trans (by assumption) (h.1 y hy)
      · refine List.pairwise_cons.2 ⟨?_, ih h.2⟩
        intro y hy
        rcases NMap.mem_put t k v y hy with rfl | hy
        · simp only; omega
        · exact h.1 y hy
theorem NMap.sorted_filter {α : Type} (m : NMap α) (p : Nat × α → Bool) (h : m.sorted = true) : NMap.sorted (m.filter p) = true := by
  rw [NMap.sorted_iff] at *
  exact h.filter p
theorem NMap.sorted_set {α : Type} [DecidableEq α] (d : α) (m : NMap α) (k : Nat) (v : α) (h : m.sorted = true) :
    (m.set d k v).sorted = true := by
  unfold NMap.set NMap.erase
  split
  · exact NMap.sorted_filter m _ h
  · exact NMap.sorted_put m k v h
theorem NMap.all_put {α : Type} (p : Nat × α → Bool) (m : NMap α) (k : Nat) (v : α) (h : m.all p = true) (hv : p (k, v) = true) :
    (m.put k v).all p = true := by
  induction m with
  | nil => simp [NMap.put, hv]
  | cons e t ih =>
    obtain ⟨a, w⟩ := e
    simp only [List.all_cons, Bool.and_eq_true] at h
    unfold NMap.put
    split
    · simp only [List.all_cons, Bool.and_eq_true]; exact ⟨hv, h.2⟩
    · split
      · simp only [List.all_cons, Bool.and_eq_true]; exact ⟨hv, h.1, h.2⟩
      · simp only [List.all_cons, Bool.and_eq_true]; exact ⟨h.1, ih h.2⟩
theorem NMap.wf_set {α : Type} [DecidableEq α] (d : α) (m : NMap α) (k : Nat) (v : α) (h : m.wf d = true) :
    (m.set d k v).wf d = true := by
  unfold NMap.wf at *
  simp only [Bool.and_eq_true] at *
  refine ⟨NMap.sorted_set d m k v h.1, ?_⟩
  unfold NMap.set NMap.erase
  split
  · rw [List.all_eq_true] at *
    intro x hx; exact h.2 x (List.mem_filter.1 hx).1
  · exact NMap.all_put _ m k v h.2 (by simp [*])
theorem NMap.wf_filter {α : Type} [DecidableEq α] (d : α) (m : NMap α) (p : Nat × α → Bool) (h : m.wf d = true) :
    NMap.wf d (m.filter p) = true := by
  unfold NMap.wf at *
  simp only [Bool.and_eq_true] at *
  refine ⟨NMap.sorted_filter m p h.1, ?_⟩
  rw [List.all_eq_true] at *
  intro x hx; exact h.2 x (List.mem_filter.1 hx).1
theorem NMap.find_put {α : Type} (m : NMap α) (k j : Nat) (v : α) : (m.put k v).find j = if j = k then some v else m.find j := by
  induction m with
  | nil => simp [NMap.put, NMap.find]
  | cons e t ih =>
    obtain ⟨a, w⟩ := e
    unfold NMap.put
    split
    · subst_vars; simp only [NMap.find]; split <;> rfl
    · split
      · simp only [NMap.find]
      · simp only [NMap.find, ih]
        by_cases h1 : j = a
        · subst h1; simp; intro h2; omega
        · simp [h1]
theorem NMap.put_put {α : Type} (m : NMap α) (k : Nat) (v w : α) : (m.put k v).put k w = m.put k w := by
  induction m with
  | nil => simp [NMap.put]
  | cons e t ih =>
    obtain ⟨a, x⟩ := e
    by_cases h : k = a
    · simp [NMap.put, h]
    · by_cases g : k < a
      · simp [NMap.put, h, g]
      · simp [NMap.put, h, g, ih]

theorem NMap.find_erase {α : Type} (m : NMap α) (k j : Nat) : (m.erase k).find j = if j = k then none else m.find j := by
  induction m with
  | nil => simp [NMap.erase, NMap.find]
  | cons e t ih =>
    obtain ⟨a, w⟩ := e
    simp only [NMap.erase, List.filter_cons] at ih ⊢
    by_cases h : a = k
    · subst h
      simp only [bne_self_eq_false, Bool.false_eq_true, ↓reduceIte, ih, NMap.find]
      split
      · rfl
      · rfl
    · have h' : (a != k) = true := by simpa using h
      simp only [h', ↓reduceIte, NMap.find, ih]
      by_cases h2 : j = a
      · subst h2; simp [h]
      · simp [h2]
/-- Reading after a write: the value written at its key, the value before at every other. -/
theorem NMap.get_set {α : Type} [DecidableEq α] (d : α) (m : NMap α) (k j : Nat) (v : α) :
    NMap.get d (m.set d k v) j = if j = k then v else NMap.get d m j := by
  unfold NMap.get NMap.set
  split
  · rw [NMap.find_erase]
    subst_vars
    split <;> rfl
  · rw [NMap.find_put]
    split <;> rfl

end Sys2Proof.Machine
end

