-- ==== Sys2Proof/Laws/State.lean ====
section
/-! SUPPORT. The fields of State under its updates: what each named update leaves as it was and, where it is plain, what it
makes of its own field. -/
namespace Sys2Proof.Machine
/-! ### `done` -/
@[simp] theorem State.setRegP_done (s : State) (p : Nat) (r : Reg) (i j : Nat) (v : Word) : (s.setRegP p r i j v).done = s.done := rfl
@[simp] theorem State.setReg_done (s : State) (r : Reg) (i : Nat) (v : Word) : (s.setReg r i v).done = s.done := rfl
@[simp] theorem State.putFields_done (s : State) (p : Nat) (r : Reg) (i j : Nat) (v : Word) : (s.putFields p r i j v).done = s.done := rfl
@[simp] theorem State.bump_done (s : State) (r : Reg) (i n : Nat) : (s.bump r i n).done = s.done := rfl
@[simp] theorem State.bumpP_done (s : State) (p : Nat) (r : Reg) (n : Nat) : (s.bumpP p r n).done = s.done := rfl
@[simp] theorem State.finish_done (s : State) (st : Status) (l : List Word) : (s.finish st l).done = { status := st, data := l } := rfl
@[simp] theorem State.stat_done (s : State) (st : Status) : (s.stat st).done = { status := st, data := [] } := rfl
@[simp] theorem State.nextFree_done (s : State) : (s.nextFree).done = s.done := rfl
@[simp] theorem State.putByte_done (s : State) (a : Nat) (b : Byte) : (s.putByte a b).done = s.done := rfl
@[simp] theorem State.onPort_done (s : State) (p : Nat) (f : PortSt → PortSt) : (s.onPort p f).done = s.done := rfl
@[simp] theorem State.setPort_done (s : State) (p : Nat) (x : PortSt) : (s.setPort p x).done = s.done := rfl
@[simp] theorem State.setMbox_done (s : State) (d m : Nat) (x : Mbox) : (s.setMbox d m x).done = s.done := rfl
@[simp] theorem State.setBatch_done (s : State) (p : Nat) (x : BatchSt) : (s.setBatch p x).done = s.done := rfl
@[simp] theorem State.onDst_done (s : State) (f : DstSt → DstSt) : (s.onDst f).done = s.done := rfl
@[simp] theorem State.onInst_done (s : State) (b : Nat) (f : Inst → Inst) : (s.onInst b f).done = s.done := rfl
@[simp] theorem State.onScrub_done (s : State) (f : ScrubSt → ScrubSt) : (s.onScrub f).done = s.done := rfl
@[simp] theorem State.setBank_done (s : State) (b : Nat) (x : BankSt) : (s.setBank b x).done = s.done := rfl
@[simp] theorem State.onSec_done (s : State) (f : SecSt → SecSt) : (s.onSec f).done = s.done := rfl
@[simp] theorem State.setCnt_done (s : State) (k : Nat) (x : ObsCnt) : (s.setCnt k x).done = s.done := rfl
@[simp] theorem State.onLdr_done (s : State) (f : LdrSt → LdrSt) : (s.onLdr f).done = s.done := rfl
@[simp] theorem State.setProbe_done (s : State) (k : Nat) (x : ProbeSt) : (s.setProbe k x).done = s.done := rfl
@[simp] theorem State.onMem_done (s : State) (f : MemSt → MemSt) : (s.onMem f).done = s.done := rfl
@[simp] theorem State.setSense_done (s : State) (k : Nat) (x : SenseSt) : (s.setSense k x).done = s.done := rfl
@[simp] theorem State.onObs_done (s : State) (f : ObsSt → ObsSt) : (s.onObs f).done = s.done := rfl
@[simp] theorem State.setQd_done (s : State) (k : Nat) (x : QdSt) : (s.setQd k x).done = s.done := rfl
@[simp] theorem State.onPins_done (s : State) (f : PinsSt → PinsSt) : (s.onPins f).done = s.done := rfl
@[simp] theorem State.setPlane_done (s : State) (k : Nat) (x : PLane) : (s.setPlane k x).done = s.done := rfl
@[simp] theorem State.onPwr_done (s : State) (f : PwrSt → PwrSt) : (s.onPwr f).done = s.done := rfl
@[simp] theorem State.setHold_done (s : State) (p d : Nat) (x : HoldQ) : (s.setHold p d x).done = s.done := rfl
@[simp] theorem State.onTime_done (s : State) (f : TimeSt → TimeSt) : (s.onTime f).done = s.done := rfl
@[simp] theorem State.setInbox_done (s : State) (k : Nat) (x : List Packet) : (s.setInbox k x).done = s.done := rfl
@[simp] theorem State.onLoad_done (s : State) (f : Load → Load) : (s.onLoad f).done = s.done := rfl
@[simp] theorem State.setAsm_done (s : State) (k : Nat) (x : List Flit) : (s.setAsm k x).done = s.done := rfl
@[simp] theorem State.onFuses_done (s : State) (f : FuseSt → FuseSt) : (s.onFuses f).done = s.done := rfl
@[simp] theorem State.setOutArb_done (s : State) (o : Nat) (x : OutArb) : (s.setOutArb o x).done = s.done := rfl
@[simp] theorem State.setSlot_done (s : State) (n i : Nat) (x : SlotSt) : (s.setSlot n i x).done = s.done := rfl
@[simp] theorem State.setSpool_done (s : State) (n : Nat) (x : SpoolSt) : (s.setSpool n x).done = s.done := rfl
@[simp] theorem State.setExp_done (s : State) (n : Nat) (e : Option ExpSt) : (s.setExp n e).done = s.done := rfl
@[simp] theorem State.onMarks_done (s : State) (n : Nat) (f : NMap (Nat × Tick) → NMap (Nat × Tick)) : (s.onMarks n f).done = s.done := rfl
@[simp] theorem State.setChan_done (s : State) (c : Nat) (x : ChanSt) : (s.setChan c x).done = s.done := rfl
@[simp] theorem State.onLane_done (s : State) (n : Nat) (f : LaneSt → LaneSt) : (s.onLane n f).done = s.done := rfl
@[simp] theorem State.setLane_done (s : State) (n : Nat) (x : LaneSt) : (s.setLane n x).done = s.done := rfl
@[simp] theorem State.setTriple_done (s : State) (i : Nat) (l : List Word) : (s.setTriple i l).done = s.done := rfl
@[simp] theorem State.setPin_done (s : State) (p : Nat) (x : PinSt) : (s.setPin p x).done = s.done := rfl
@[simp] theorem State.onTile_done (s : State) (t : Nat) (f : TileSt → TileSt) : (s.onTile t f).done = s.done := rfl
@[simp] theorem State.setPwm_done (s : State) (c : Nat) (x : PwmSt) : (s.setPwm c x).done = s.done := rfl
@[simp] theorem State.onIfc_done (s : State) (t : Nat) (f : TileIf → TileIf) : (s.onIfc t f).done = s.done := rfl
@[simp] theorem State.setXing_done (s : State) (k : Nat) (x : XingSt) : (s.setXing k x).done = s.done := rfl
@[simp] theorem State.setTileQ_done (s : State) (t q : Nat) (x : HQ (BitVec 36)) : (s.setTileQ t q x).done = s.done := by unfold State.setTileQ; split <;> rfl
@[simp] theorem State.setTile_done (s : State) (t : Nat) (x : TileSt) : (s.setTile t x).done = s.done := rfl
@[simp] theorem State.freshFrame_done (s : State) (f : Nat) : (s.freshFrame f).done = s.done := rfl
@[simp] theorem State.setCfg_done (s : State) (k : Nat) (v : Word) : (s.setCfg k v).done = s.done := rfl

/-! ### `fresh` -/
@[simp] theorem State.setRegP_fresh (s : State) (p : Nat) (r : Reg) (i j : Nat) (v : Word) : (s.setRegP p r i j v).fresh = s.fresh := rfl
@[simp] theorem State.setReg_fresh (s : State) (r : Reg) (i : Nat) (v : Word) : (s.setReg r i v).fresh = s.fresh := rfl
@[simp] theorem State.putFields_fresh (s : State) (p : Nat) (r : Reg) (i j : Nat) (v : Word) : (s.putFields p r i j v).fresh = s.fresh := rfl
@[simp] theorem State.bump_fresh (s : State) (r : Reg) (i n : Nat) : (s.bump r i n).fresh = s.fresh := rfl
@[simp] theorem State.bumpP_fresh (s : State) (p : Nat) (r : Reg) (n : Nat) : (s.bumpP p r n).fresh = s.fresh := rfl
@[simp] theorem State.finish_fresh (s : State) (st : Status) (l : List Word) : (s.finish st l).fresh = s.fresh := rfl
@[simp] theorem State.stat_fresh (s : State) (st : Status) : (s.stat st).fresh = s.fresh := rfl
@[simp] theorem State.nextFree_fresh (s : State) : (s.nextFree).fresh = s.fresh + 1 := rfl
@[simp] theorem State.putByte_fresh (s : State) (a : Nat) (b : Byte) : (s.putByte a b).fresh = s.fresh := rfl
@[simp] theorem State.onPort_fresh (s : State) (p : Nat) (f : PortSt → PortSt) : (s.onPort p f).fresh = s.fresh := rfl
@[simp] theorem State.setPort_fresh (s : State) (p : Nat) (x : PortSt) : (s.setPort p x).fresh = s.fresh := rfl
@[simp] theorem State.setMbox_fresh (s : State) (d m : Nat) (x : Mbox) : (s.setMbox d m x).fresh = s.fresh := rfl
@[simp] theorem State.setBatch_fresh (s : State) (p : Nat) (x : BatchSt) : (s.setBatch p x).fresh = s.fresh := rfl
@[simp] theorem State.onDst_fresh (s : State) (f : DstSt → DstSt) : (s.onDst f).fresh = s.fresh := rfl
@[simp] theorem State.onInst_fresh (s : State) (b : Nat) (f : Inst → Inst) : (s.onInst b f).fresh = s.fresh := rfl
@[simp] theorem State.onScrub_fresh (s : State) (f : ScrubSt → ScrubSt) : (s.onScrub f).fresh = s.fresh := rfl
@[simp] theorem State.setBank_fresh (s : State) (b : Nat) (x : BankSt) : (s.setBank b x).fresh = s.fresh := rfl
@[simp] theorem State.onSec_fresh (s : State) (f : SecSt → SecSt) : (s.onSec f).fresh = s.fresh := rfl
@[simp] theorem State.setCnt_fresh (s : State) (k : Nat) (x : ObsCnt) : (s.setCnt k x).fresh = s.fresh := rfl
@[simp] theorem State.onLdr_fresh (s : State) (f : LdrSt → LdrSt) : (s.onLdr f).fresh = s.fresh := rfl
@[simp] theorem State.setProbe_fresh (s : State) (k : Nat) (x : ProbeSt) : (s.setProbe k x).fresh = s.fresh := rfl
@[simp] theorem State.onMem_fresh (s : State) (f : MemSt → MemSt) : (s.onMem f).fresh = s.fresh := rfl
@[simp] theorem State.setSense_fresh (s : State) (k : Nat) (x : SenseSt) : (s.setSense k x).fresh = s.fresh := rfl
@[simp] theorem State.onObs_fresh (s : State) (f : ObsSt → ObsSt) : (s.onObs f).fresh = s.fresh := rfl
@[simp] theorem State.setQd_fresh (s : State) (k : Nat) (x : QdSt) : (s.setQd k x).fresh = s.fresh := rfl
@[simp] theorem State.onPins_fresh (s : State) (f : PinsSt → PinsSt) : (s.onPins f).fresh = s.fresh := rfl
@[simp] theorem State.setPlane_fresh (s : State) (k : Nat) (x : PLane) : (s.setPlane k x).fresh = s.fresh := rfl
@[simp] theorem State.onPwr_fresh (s : State) (f : PwrSt → PwrSt) : (s.onPwr f).fresh = s.fresh := rfl
@[simp] theorem State.setHold_fresh (s : State) (p d : Nat) (x : HoldQ) : (s.setHold p d x).fresh = s.fresh := rfl
@[simp] theorem State.onTime_fresh (s : State) (f : TimeSt → TimeSt) : (s.onTime f).fresh = s.fresh := rfl
@[simp] theorem State.setInbox_fresh (s : State) (k : Nat) (x : List Packet) : (s.setInbox k x).fresh = s.fresh := rfl
@[simp] theorem State.onLoad_fresh (s : State) (f : Load → Load) : (s.onLoad f).fresh = s.fresh := rfl
@[simp] theorem State.setAsm_fresh (s : State) (k : Nat) (x : List Flit) : (s.setAsm k x).fresh = s.fresh := rfl
@[simp] theorem State.onFuses_fresh (s : State) (f : FuseSt → FuseSt) : (s.onFuses f).fresh = s.fresh := rfl
@[simp] theorem State.setOutArb_fresh (s : State) (o : Nat) (x : OutArb) : (s.setOutArb o x).fresh = s.fresh := rfl
@[simp] theorem State.setSlot_fresh (s : State) (n i : Nat) (x : SlotSt) : (s.setSlot n i x).fresh = s.fresh := rfl
@[simp] theorem State.setSpool_fresh (s : State) (n : Nat) (x : SpoolSt) : (s.setSpool n x).fresh = s.fresh := rfl
@[simp] theorem State.setExp_fresh (s : State) (n : Nat) (e : Option ExpSt) : (s.setExp n e).fresh = s.fresh := rfl
@[simp] theorem State.onMarks_fresh (s : State) (n : Nat) (f : NMap (Nat × Tick) → NMap (Nat × Tick)) : (s.onMarks n f).fresh = s.fresh := rfl
@[simp] theorem State.setChan_fresh (s : State) (c : Nat) (x : ChanSt) : (s.setChan c x).fresh = s.fresh := rfl
@[simp] theorem State.onLane_fresh (s : State) (n : Nat) (f : LaneSt → LaneSt) : (s.onLane n f).fresh = s.fresh := rfl
@[simp] theorem State.setLane_fresh (s : State) (n : Nat) (x : LaneSt) : (s.setLane n x).fresh = s.fresh := rfl
@[simp] theorem State.setTriple_fresh (s : State) (i : Nat) (l : List Word) : (s.setTriple i l).fresh = s.fresh := rfl
@[simp] theorem State.setPin_fresh (s : State) (p : Nat) (x : PinSt) : (s.setPin p x).fresh = s.fresh := rfl
@[simp] theorem State.onTile_fresh (s : State) (t : Nat) (f : TileSt → TileSt) : (s.onTile t f).fresh = s.fresh := rfl
@[simp] theorem State.setPwm_fresh (s : State) (c : Nat) (x : PwmSt) : (s.setPwm c x).fresh = s.fresh := rfl
@[simp] theorem State.onIfc_fresh (s : State) (t : Nat) (f : TileIf → TileIf) : (s.onIfc t f).fresh = s.fresh := rfl
@[simp] theorem State.setXing_fresh (s : State) (k : Nat) (x : XingSt) : (s.setXing k x).fresh = s.fresh := rfl
@[simp] theorem State.setTileQ_fresh (s : State) (t q : Nat) (x : HQ (BitVec 36)) : (s.setTileQ t q x).fresh = s.fresh := by unfold State.setTileQ; split <;> rfl
@[simp] theorem State.setTile_fresh (s : State) (t : Nat) (x : TileSt) : (s.setTile t x).fresh = s.fresh := rfl
@[simp] theorem State.freshFrame_fresh (s : State) (f : Nat) : (s.freshFrame f).fresh = s.fresh := rfl
@[simp] theorem State.setCfg_fresh (s : State) (k : Nat) (v : Word) : (s.setCfg k v).fresh = s.fresh := rfl

/-! ### `mem` -/
@[simp] theorem State.setRegP_mem (s : State) (p : Nat) (r : Reg) (i j : Nat) (v : Word) : (s.setRegP p r i j v).mem = s.mem := rfl
@[simp] theorem State.setReg_mem (s : State) (r : Reg) (i : Nat) (v : Word) : (s.setReg r i v).mem = s.mem := rfl
@[simp] theorem State.putFields_mem (s : State) (p : Nat) (r : Reg) (i j : Nat) (v : Word) : (s.putFields p r i j v).mem = s.mem := rfl
@[simp] theorem State.bump_mem (s : State) (r : Reg) (i n : Nat) : (s.bump r i n).mem = s.mem := rfl
@[simp] theorem State.bumpP_mem (s : State) (p : Nat) (r : Reg) (n : Nat) : (s.bumpP p r n).mem = s.mem := rfl
@[simp] theorem State.finish_mem (s : State) (st : Status) (l : List Word) : (s.finish st l).mem = s.mem := rfl
@[simp] theorem State.stat_mem (s : State) (st : Status) : (s.stat st).mem = s.mem := rfl
@[simp] theorem State.nextFree_mem (s : State) : (s.nextFree).mem = s.mem := rfl
@[simp] theorem State.setPort_mem (s : State) (p : Nat) (x : PortSt) : (s.setPort p x).mem = s.mem := rfl
@[simp] theorem State.onPort_mem (s : State) (p : Nat) (f : PortSt → PortSt) : (s.onPort p f).mem = s.mem := rfl
@[simp] theorem State.setMbox_mem (s : State) (d m : Nat) (x : Mbox) : (s.setMbox d m x).mem = s.mem := rfl
@[simp] theorem State.setBatch_mem (s : State) (p : Nat) (x : BatchSt) : (s.setBatch p x).mem = s.mem := rfl
@[simp] theorem State.onDst_mem (s : State) (f : DstSt → DstSt) : (s.onDst f).mem = s.mem := rfl
@[simp] theorem State.onInst_mem (s : State) (b : Nat) (f : Inst → Inst) : (s.onInst b f).mem = s.mem := rfl
@[simp] theorem State.onScrub_mem (s : State) (f : ScrubSt → ScrubSt) : (s.onScrub f).mem = s.mem := rfl
@[simp] theorem State.setBank_mem (s : State) (b : Nat) (x : BankSt) : (s.setBank b x).mem = s.mem := rfl
@[simp] theorem State.onSec_mem (s : State) (f : SecSt → SecSt) : (s.onSec f).mem = s.mem := rfl
@[simp] theorem State.setCnt_mem (s : State) (k : Nat) (x : ObsCnt) : (s.setCnt k x).mem = s.mem := rfl
@[simp] theorem State.onLdr_mem (s : State) (f : LdrSt → LdrSt) : (s.onLdr f).mem = s.mem := rfl
@[simp] theorem State.setProbe_mem (s : State) (k : Nat) (x : ProbeSt) : (s.setProbe k x).mem = s.mem := rfl
@[simp] theorem State.onMem_mem (s : State) (f : MemSt → MemSt) : (s.onMem f).mem = s.mem := rfl
@[simp] theorem State.setSense_mem (s : State) (k : Nat) (x : SenseSt) : (s.setSense k x).mem = s.mem := rfl
@[simp] theorem State.onObs_mem (s : State) (f : ObsSt → ObsSt) : (s.onObs f).mem = s.mem := rfl
@[simp] theorem State.setQd_mem (s : State) (k : Nat) (x : QdSt) : (s.setQd k x).mem = s.mem := rfl
@[simp] theorem State.onPins_mem (s : State) (f : PinsSt → PinsSt) : (s.onPins f).mem = s.mem := rfl
@[simp] theorem State.setPlane_mem (s : State) (k : Nat) (x : PLane) : (s.setPlane k x).mem = s.mem := rfl
@[simp] theorem State.onPwr_mem (s : State) (f : PwrSt → PwrSt) : (s.onPwr f).mem = s.mem := rfl
@[simp] theorem State.setHold_mem (s : State) (p d : Nat) (x : HoldQ) : (s.setHold p d x).mem = s.mem := rfl
@[simp] theorem State.onTime_mem (s : State) (f : TimeSt → TimeSt) : (s.onTime f).mem = s.mem := rfl
@[simp] theorem State.setInbox_mem (s : State) (k : Nat) (x : List Packet) : (s.setInbox k x).mem = s.mem := rfl
@[simp] theorem State.onLoad_mem (s : State) (f : Load → Load) : (s.onLoad f).mem = s.mem := rfl
@[simp] theorem State.setAsm_mem (s : State) (k : Nat) (x : List Flit) : (s.setAsm k x).mem = s.mem := rfl
@[simp] theorem State.onFuses_mem (s : State) (f : FuseSt → FuseSt) : (s.onFuses f).mem = s.mem := rfl
@[simp] theorem State.setOutArb_mem (s : State) (o : Nat) (x : OutArb) : (s.setOutArb o x).mem = s.mem := rfl
@[simp] theorem State.setSlot_mem (s : State) (n i : Nat) (x : SlotSt) : (s.setSlot n i x).mem = s.mem := rfl
@[simp] theorem State.setSpool_mem (s : State) (n : Nat) (x : SpoolSt) : (s.setSpool n x).mem = s.mem := rfl
@[simp] theorem State.setExp_mem (s : State) (n : Nat) (e : Option ExpSt) : (s.setExp n e).mem = s.mem := rfl
@[simp] theorem State.onMarks_mem (s : State) (n : Nat) (f : NMap (Nat × Tick) → NMap (Nat × Tick)) : (s.onMarks n f).mem = s.mem := rfl
@[simp] theorem State.setChan_mem (s : State) (c : Nat) (x : ChanSt) : (s.setChan c x).mem = s.mem := rfl
@[simp] theorem State.onLane_mem (s : State) (n : Nat) (f : LaneSt → LaneSt) : (s.onLane n f).mem = s.mem := rfl
@[simp] theorem State.setLane_mem (s : State) (n : Nat) (x : LaneSt) : (s.setLane n x).mem = s.mem := rfl
@[simp] theorem State.setTriple_mem (s : State) (i : Nat) (l : List Word) : (s.setTriple i l).mem = s.mem := rfl
@[simp] theorem State.setPin_mem (s : State) (p : Nat) (x : PinSt) : (s.setPin p x).mem = s.mem := rfl
@[simp] theorem State.onTile_mem (s : State) (t : Nat) (f : TileSt → TileSt) : (s.onTile t f).mem = s.mem := rfl
@[simp] theorem State.setPwm_mem (s : State) (c : Nat) (x : PwmSt) : (s.setPwm c x).mem = s.mem := rfl
@[simp] theorem State.onIfc_mem (s : State) (t : Nat) (f : TileIf → TileIf) : (s.onIfc t f).mem = s.mem := rfl
@[simp] theorem State.setXing_mem (s : State) (k : Nat) (x : XingSt) : (s.setXing k x).mem = s.mem := rfl
@[simp] theorem State.setTileQ_mem (s : State) (t q : Nat) (x : HQ (BitVec 36)) : (s.setTileQ t q x).mem = s.mem := by unfold State.setTileQ; split <;> rfl
@[simp] theorem State.setTile_mem (s : State) (t : Nat) (x : TileSt) : (s.setTile t x).mem = s.mem := rfl
@[simp] theorem State.freshFrame_mem (s : State) (f : Nat) : (s.freshFrame f).mem = s.mem := rfl
@[simp] theorem State.setCfg_mem (s : State) (k : Nat) (v : Word) : (s.setCfg k v).mem = s.mem := rfl

/-! ### `fab` -/
@[simp] theorem State.setRegP_fab (s : State) (p : Nat) (r : Reg) (i j : Nat) (v : Word) : (s.setRegP p r i j v).fab = s.fab := rfl
@[simp] theorem State.setReg_fab (s : State) (r : Reg) (i : Nat) (v : Word) : (s.setReg r i v).fab = s.fab := rfl
@[simp] theorem State.putFields_fab (s : State) (p : Nat) (r : Reg) (i j : Nat) (v : Word) : (s.putFields p r i j v).fab = s.fab := rfl
@[simp] theorem State.bump_fab (s : State) (r : Reg) (i n : Nat) : (s.bump r i n).fab = s.fab := rfl
@[simp] theorem State.bumpP_fab (s : State) (p : Nat) (r : Reg) (n : Nat) : (s.bumpP p r n).fab = s.fab := rfl
@[simp] theorem State.finish_fab (s : State) (st : Status) (l : List Word) : (s.finish st l).fab = s.fab := rfl
@[simp] theorem State.stat_fab (s : State) (st : Status) : (s.stat st).fab = s.fab := rfl
@[simp] theorem State.nextFree_fab (s : State) : (s.nextFree).fab = s.fab := rfl
@[simp] theorem State.putByte_fab (s : State) (a : Nat) (b : Byte) : (s.putByte a b).fab = s.fab := rfl
@[simp] theorem State.onPort_fab (s : State) (p : Nat) (f : PortSt → PortSt) : (s.onPort p f).fab = s.fab := rfl
@[simp] theorem State.setPort_fab (s : State) (p : Nat) (x : PortSt) : (s.setPort p x).fab = s.fab := rfl
@[simp] theorem State.setMbox_fab (s : State) (d m : Nat) (x : Mbox) : (s.setMbox d m x).fab = s.fab := rfl
@[simp] theorem State.setBatch_fab (s : State) (p : Nat) (x : BatchSt) : (s.setBatch p x).fab = s.fab := rfl
@[simp] theorem State.onDst_fab (s : State) (f : DstSt → DstSt) : (s.onDst f).fab = s.fab := rfl
@[simp] theorem State.onInst_fab (s : State) (b : Nat) (f : Inst → Inst) : (s.onInst b f).fab = s.fab := rfl
@[simp] theorem State.onScrub_fab (s : State) (f : ScrubSt → ScrubSt) : (s.onScrub f).fab = s.fab := rfl
@[simp] theorem State.setBank_fab (s : State) (b : Nat) (x : BankSt) : (s.setBank b x).fab = s.fab := rfl
@[simp] theorem State.onSec_fab (s : State) (f : SecSt → SecSt) : (s.onSec f).fab = s.fab := rfl
@[simp] theorem State.setCnt_fab (s : State) (k : Nat) (x : ObsCnt) : (s.setCnt k x).fab = s.fab := rfl
@[simp] theorem State.onLdr_fab (s : State) (f : LdrSt → LdrSt) : (s.onLdr f).fab = s.fab := rfl
@[simp] theorem State.setProbe_fab (s : State) (k : Nat) (x : ProbeSt) : (s.setProbe k x).fab = s.fab := rfl
@[simp] theorem State.onMem_fab (s : State) (f : MemSt → MemSt) : (s.onMem f).fab = s.fab := rfl
@[simp] theorem State.setSense_fab (s : State) (k : Nat) (x : SenseSt) : (s.setSense k x).fab = s.fab := rfl
@[simp] theorem State.onObs_fab (s : State) (f : ObsSt → ObsSt) : (s.onObs f).fab = s.fab := rfl
@[simp] theorem State.setQd_fab (s : State) (k : Nat) (x : QdSt) : (s.setQd k x).fab = s.fab := rfl
@[simp] theorem State.onPins_fab (s : State) (f : PinsSt → PinsSt) : (s.onPins f).fab = s.fab := rfl
@[simp] theorem State.setPlane_fab (s : State) (k : Nat) (x : PLane) : (s.setPlane k x).fab = s.fab := rfl
@[simp] theorem State.onPwr_fab (s : State) (f : PwrSt → PwrSt) : (s.onPwr f).fab = s.fab := rfl
@[simp] theorem State.setHold_fab (s : State) (p d : Nat) (x : HoldQ) : (s.setHold p d x).fab = s.fab := rfl
@[simp] theorem State.onTime_fab (s : State) (f : TimeSt → TimeSt) : (s.onTime f).fab = s.fab := rfl
@[simp] theorem State.setInbox_fab (s : State) (k : Nat) (x : List Packet) : (s.setInbox k x).fab = s.fab := rfl
@[simp] theorem State.onLoad_fab (s : State) (f : Load → Load) : (s.onLoad f).fab = s.fab := rfl
@[simp] theorem State.setAsm_fab (s : State) (k : Nat) (x : List Flit) : (s.setAsm k x).fab = s.fab := rfl
@[simp] theorem State.onFuses_fab (s : State) (f : FuseSt → FuseSt) : (s.onFuses f).fab = s.fab := rfl
@[simp] theorem State.setOutArb_fab (s : State) (o : Nat) (x : OutArb) : (s.setOutArb o x).fab = s.fab := rfl
@[simp] theorem State.setSlot_fab (s : State) (n i : Nat) (x : SlotSt) : (s.setSlot n i x).fab = s.fab := rfl
@[simp] theorem State.setSpool_fab (s : State) (n : Nat) (x : SpoolSt) : (s.setSpool n x).fab = s.fab := rfl
@[simp] theorem State.setExp_fab (s : State) (n : Nat) (e : Option ExpSt) : (s.setExp n e).fab = s.fab := rfl
@[simp] theorem State.onMarks_fab (s : State) (n : Nat) (f : NMap (Nat × Tick) → NMap (Nat × Tick)) : (s.onMarks n f).fab = s.fab := rfl
@[simp] theorem State.setChan_fab (s : State) (c : Nat) (x : ChanSt) : (s.setChan c x).fab = s.fab := rfl
@[simp] theorem State.onLane_fab (s : State) (n : Nat) (f : LaneSt → LaneSt) : (s.onLane n f).fab = s.fab := rfl
@[simp] theorem State.setLane_fab (s : State) (n : Nat) (x : LaneSt) : (s.setLane n x).fab = s.fab := rfl
@[simp] theorem State.setTriple_fab (s : State) (i : Nat) (l : List Word) : (s.setTriple i l).fab = s.fab := rfl
@[simp] theorem State.setPin_fab (s : State) (p : Nat) (x : PinSt) : (s.setPin p x).fab = s.fab := rfl
@[simp] theorem State.setPwm_fab (s : State) (c : Nat) (x : PwmSt) : (s.setPwm c x).fab = s.fab := rfl
@[simp] theorem State.setXing_fab (s : State) (k : Nat) (x : XingSt) : (s.setXing k x).fab = s.fab := rfl

/-! ### `ply` -/
@[simp] theorem State.setRegP_ply (s : State) (p : Nat) (r : Reg) (i j : Nat) (v : Word) : (s.setRegP p r i j v).ply = s.ply := rfl
@[simp] theorem State.setReg_ply (s : State) (r : Reg) (i : Nat) (v : Word) : (s.setReg r i v).ply = s.ply := rfl
@[simp] theorem State.putFields_ply (s : State) (p : Nat) (r : Reg) (i j : Nat) (v : Word) : (s.putFields p r i j v).ply = s.ply := rfl
@[simp] theorem State.bump_ply (s : State) (r : Reg) (i n : Nat) : (s.bump r i n).ply = s.ply := rfl
@[simp] theorem State.bumpP_ply (s : State) (p : Nat) (r : Reg) (n : Nat) : (s.bumpP p r n).ply = s.ply := rfl
@[simp] theorem State.finish_ply (s : State) (st : Status) (l : List Word) : (s.finish st l).ply = s.ply := rfl
@[simp] theorem State.stat_ply (s : State) (st : Status) : (s.stat st).ply = s.ply := rfl
@[simp] theorem State.nextFree_ply (s : State) : (s.nextFree).ply = s.ply := rfl
@[simp] theorem State.putByte_ply (s : State) (a : Nat) (b : Byte) : (s.putByte a b).ply = s.ply := rfl
@[simp] theorem State.onPort_ply (s : State) (p : Nat) (f : PortSt → PortSt) : (s.onPort p f).ply = s.ply := rfl
@[simp] theorem State.setPort_ply (s : State) (p : Nat) (x : PortSt) : (s.setPort p x).ply = s.ply := rfl
@[simp] theorem State.setMbox_ply (s : State) (d m : Nat) (x : Mbox) : (s.setMbox d m x).ply = s.ply := rfl
@[simp] theorem State.setBatch_ply (s : State) (p : Nat) (x : BatchSt) : (s.setBatch p x).ply = s.ply := rfl
@[simp] theorem State.onDst_ply (s : State) (f : DstSt → DstSt) : (s.onDst f).ply = s.ply := rfl
@[simp] theorem State.onInst_ply (s : State) (b : Nat) (f : Inst → Inst) : (s.onInst b f).ply = s.ply := rfl
@[simp] theorem State.onScrub_ply (s : State) (f : ScrubSt → ScrubSt) : (s.onScrub f).ply = s.ply := rfl
@[simp] theorem State.setBank_ply (s : State) (b : Nat) (x : BankSt) : (s.setBank b x).ply = s.ply := rfl
@[simp] theorem State.onSec_ply (s : State) (f : SecSt → SecSt) : (s.onSec f).ply = s.ply := rfl
@[simp] theorem State.setCnt_ply (s : State) (k : Nat) (x : ObsCnt) : (s.setCnt k x).ply = s.ply := rfl
@[simp] theorem State.onLdr_ply (s : State) (f : LdrSt → LdrSt) : (s.onLdr f).ply = s.ply := rfl
@[simp] theorem State.setProbe_ply (s : State) (k : Nat) (x : ProbeSt) : (s.setProbe k x).ply = s.ply := rfl
@[simp] theorem State.onMem_ply (s : State) (f : MemSt → MemSt) : (s.onMem f).ply = s.ply := rfl
@[simp] theorem State.setSense_ply (s : State) (k : Nat) (x : SenseSt) : (s.setSense k x).ply = s.ply := rfl
@[simp] theorem State.onObs_ply (s : State) (f : ObsSt → ObsSt) : (s.onObs f).ply = s.ply := rfl
@[simp] theorem State.setQd_ply (s : State) (k : Nat) (x : QdSt) : (s.setQd k x).ply = s.ply := rfl
@[simp] theorem State.onPins_ply (s : State) (f : PinsSt → PinsSt) : (s.onPins f).ply = s.ply := rfl
@[simp] theorem State.setSpool_ply (s : State) (n : Nat) (x : SpoolSt) : (s.setSpool n x).ply = s.ply := rfl
@[simp] theorem State.onPwr_ply (s : State) (f : PwrSt → PwrSt) : (s.onPwr f).ply = s.ply := rfl
@[simp] theorem State.setSlot_ply (s : State) (n i : Nat) (x : SlotSt) : (s.setSlot n i x).ply = s.ply := rfl
@[simp] theorem State.onTime_ply (s : State) (f : TimeSt → TimeSt) : (s.onTime f).ply = s.ply := rfl
@[simp] theorem State.setExp_ply (s : State) (n : Nat) (e : Option ExpSt) : (s.setExp n e).ply = s.ply := rfl
@[simp] theorem State.onLoad_ply (s : State) (f : Load → Load) : (s.onLoad f).ply = s.ply := rfl
@[simp] theorem State.onMarks_ply (s : State) (n : Nat) (f : NMap (Nat × Tick) → NMap (Nat × Tick)) : (s.onMarks n f).ply = s.ply := rfl
@[simp] theorem State.onFuses_ply (s : State) (f : FuseSt → FuseSt) : (s.onFuses f).ply = s.ply := rfl
@[simp] theorem State.setChan_ply (s : State) (c : Nat) (x : ChanSt) : (s.setChan c x).ply = s.ply := rfl
@[simp] theorem State.onLane_ply (s : State) (n : Nat) (f : LaneSt → LaneSt) : (s.onLane n f).ply = s.ply := rfl
@[simp] theorem State.setLane_ply (s : State) (n : Nat) (x : LaneSt) : (s.setLane n x).ply = s.ply := rfl
@[simp] theorem State.setTriple_ply (s : State) (i : Nat) (l : List Word) : (s.setTriple i l).ply = s.ply := rfl
@[simp] theorem State.setPin_ply (s : State) (p : Nat) (x : PinSt) : (s.setPin p x).ply = s.ply := rfl
@[simp] theorem State.onTile_ply (s : State) (t : Nat) (f : TileSt → TileSt) : (s.onTile t f).ply = s.ply := rfl
@[simp] theorem State.setPwm_ply (s : State) (c : Nat) (x : PwmSt) : (s.setPwm c x).ply = s.ply := rfl
@[simp] theorem State.onIfc_ply (s : State) (t : Nat) (f : TileIf → TileIf) : (s.onIfc t f).ply = s.ply := rfl
@[simp] theorem State.setXing_ply (s : State) (k : Nat) (x : XingSt) : (s.setXing k x).ply = s.ply := rfl
@[simp] theorem State.setTileQ_ply (s : State) (t q : Nat) (x : HQ (BitVec 36)) : (s.setTileQ t q x).ply = s.ply := by unfold State.setTileQ; split <;> rfl
@[simp] theorem State.setTile_ply (s : State) (t : Nat) (x : TileSt) : (s.setTile t x).ply = s.ply := rfl
@[simp] theorem State.freshFrame_ply (s : State) (f : Nat) : (s.freshFrame f).ply = s.ply := rfl
@[simp] theorem State.setCfg_ply (s : State) (k : Nat) (v : Word) : (s.setCfg k v).ply = s.ply := rfl

/-! ### `dst` -/
@[simp] theorem State.setRegP_dst (s : State) (p : Nat) (r : Reg) (i j : Nat) (v : Word) : (s.setRegP p r i j v).dst = s.dst := rfl
@[simp] theorem State.setReg_dst (s : State) (r : Reg) (i : Nat) (v : Word) : (s.setReg r i v).dst = s.dst := rfl
@[simp] theorem State.putFields_dst (s : State) (p : Nat) (r : Reg) (i j : Nat) (v : Word) : (s.putFields p r i j v).dst = s.dst := rfl
@[simp] theorem State.bump_dst (s : State) (r : Reg) (i n : Nat) : (s.bump r i n).dst = s.dst := rfl
@[simp] theorem State.bumpP_dst (s : State) (p : Nat) (r : Reg) (n : Nat) : (s.bumpP p r n).dst = s.dst := rfl
@[simp] theorem State.finish_dst (s : State) (st : Status) (l : List Word) : (s.finish st l).dst = s.dst := rfl
@[simp] theorem State.stat_dst (s : State) (st : Status) : (s.stat st).dst = s.dst := rfl
@[simp] theorem State.nextFree_dst (s : State) : (s.nextFree).dst = s.dst := rfl
@[simp] theorem State.putByte_dst (s : State) (a : Nat) (b : Byte) : (s.putByte a b).dst = s.dst := rfl
@[simp] theorem State.onPort_dst (s : State) (p : Nat) (f : PortSt → PortSt) : (s.onPort p f).dst = s.dst := rfl
@[simp] theorem State.setPort_dst (s : State) (p : Nat) (x : PortSt) : (s.setPort p x).dst = s.dst := rfl
@[simp] theorem State.setMbox_dst (s : State) (d m : Nat) (x : Mbox) : (s.setMbox d m x).dst = s.dst := rfl
@[simp] theorem State.setBatch_dst (s : State) (p : Nat) (x : BatchSt) : (s.setBatch p x).dst = s.dst := rfl
@[simp] theorem State.onDst_dst (s : State) (f : DstSt → DstSt) : (s.onDst f).dst = f s.dst := rfl
@[simp] theorem State.onScrub_dst (s : State) (f : ScrubSt → ScrubSt) : (s.onScrub f).dst = s.dst := rfl
@[simp] theorem State.setBank_dst (s : State) (b : Nat) (x : BankSt) : (s.setBank b x).dst = s.dst := rfl
@[simp] theorem State.onSec_dst (s : State) (f : SecSt → SecSt) : (s.onSec f).dst = s.dst := rfl
@[simp] theorem State.setCnt_dst (s : State) (k : Nat) (x : ObsCnt) : (s.setCnt k x).dst = s.dst := rfl
@[simp] theorem State.onLdr_dst (s : State) (f : LdrSt → LdrSt) : (s.onLdr f).dst = s.dst := rfl
@[simp] theorem State.setProbe_dst (s : State) (k : Nat) (x : ProbeSt) : (s.setProbe k x).dst = s.dst := rfl
@[simp] theorem State.onMem_dst (s : State) (f : MemSt → MemSt) : (s.onMem f).dst = s.dst := rfl
@[simp] theorem State.setSense_dst (s : State) (k : Nat) (x : SenseSt) : (s.setSense k x).dst = s.dst := rfl
@[simp] theorem State.onObs_dst (s : State) (f : ObsSt → ObsSt) : (s.onObs f).dst = s.dst := rfl
@[simp] theorem State.setQd_dst (s : State) (k : Nat) (x : QdSt) : (s.setQd k x).dst = s.dst := rfl
@[simp] theorem State.onPins_dst (s : State) (f : PinsSt → PinsSt) : (s.onPins f).dst = s.dst := rfl
@[simp] theorem State.setPlane_dst (s : State) (k : Nat) (x : PLane) : (s.setPlane k x).dst = s.dst := rfl
@[simp] theorem State.onPwr_dst (s : State) (f : PwrSt → PwrSt) : (s.onPwr f).dst = s.dst := rfl
@[simp] theorem State.setHold_dst (s : State) (p d : Nat) (x : HoldQ) : (s.setHold p d x).dst = s.dst := rfl
@[simp] theorem State.onTime_dst (s : State) (f : TimeSt → TimeSt) : (s.onTime f).dst = s.dst := rfl
@[simp] theorem State.setInbox_dst (s : State) (k : Nat) (x : List Packet) : (s.setInbox k x).dst = s.dst := rfl
@[simp] theorem State.onLoad_dst (s : State) (f : Load → Load) : (s.onLoad f).dst = s.dst := rfl
@[simp] theorem State.setAsm_dst (s : State) (k : Nat) (x : List Flit) : (s.setAsm k x).dst = s.dst := rfl
@[simp] theorem State.onFuses_dst (s : State) (f : FuseSt → FuseSt) : (s.onFuses f).dst = s.dst := rfl
@[simp] theorem State.setOutArb_dst (s : State) (o : Nat) (x : OutArb) : (s.setOutArb o x).dst = s.dst := rfl
@[simp] theorem State.setSlot_dst (s : State) (n i : Nat) (x : SlotSt) : (s.setSlot n i x).dst = s.dst := rfl
@[simp] theorem State.setSpool_dst (s : State) (n : Nat) (x : SpoolSt) : (s.setSpool n x).dst = s.dst := rfl
@[simp] theorem State.setExp_dst (s : State) (n : Nat) (e : Option ExpSt) : (s.setExp n e).dst = s.dst := rfl
@[simp] theorem State.onMarks_dst (s : State) (n : Nat) (f : NMap (Nat × Tick) → NMap (Nat × Tick)) : (s.onMarks n f).dst = s.dst := rfl
@[simp] theorem State.setChan_dst (s : State) (c : Nat) (x : ChanSt) : (s.setChan c x).dst = s.dst := rfl
@[simp] theorem State.onLane_dst (s : State) (n : Nat) (f : LaneSt → LaneSt) : (s.onLane n f).dst = s.dst := rfl
@[simp] theorem State.setLane_dst (s : State) (n : Nat) (x : LaneSt) : (s.setLane n x).dst = s.dst := rfl
@[simp] theorem State.setTriple_dst (s : State) (i : Nat) (l : List Word) : (s.setTriple i l).dst = s.dst := rfl
@[simp] theorem State.setPin_dst (s : State) (p : Nat) (x : PinSt) : (s.setPin p x).dst = s.dst := rfl
@[simp] theorem State.onTile_dst (s : State) (t : Nat) (f : TileSt → TileSt) : (s.onTile t f).dst = s.dst := rfl
@[simp] theorem State.setPwm_dst (s : State) (c : Nat) (x : PwmSt) : (s.setPwm c x).dst = s.dst := rfl
@[simp] theorem State.onIfc_dst (s : State) (t : Nat) (f : TileIf → TileIf) : (s.onIfc t f).dst = s.dst := rfl
@[simp] theorem State.setXing_dst (s : State) (k : Nat) (x : XingSt) : (s.setXing k x).dst = s.dst := rfl
@[simp] theorem State.setTileQ_dst (s : State) (t q : Nat) (x : HQ (BitVec 36)) : (s.setTileQ t q x).dst = s.dst := by unfold State.setTileQ; split <;> rfl
@[simp] theorem State.setTile_dst (s : State) (t : Nat) (x : TileSt) : (s.setTile t x).dst = s.dst := rfl
@[simp] theorem State.freshFrame_dst (s : State) (f : Nat) : (s.freshFrame f).dst = s.dst := rfl
@[simp] theorem State.setCfg_dst (s : State) (k : Nat) (v : Word) : (s.setCfg k v).dst = s.dst := rfl

/-! ### `lanes` -/
@[simp] theorem State.setRegP_lanes (s : State) (p : Nat) (r : Reg) (i j : Nat) (v : Word) : (s.setRegP p r i j v).lanes = s.lanes := rfl
@[simp] theorem State.setReg_lanes (s : State) (r : Reg) (i : Nat) (v : Word) : (s.setReg r i v).lanes = s.lanes := rfl
@[simp] theorem State.putFields_lanes (s : State) (p : Nat) (r : Reg) (i j : Nat) (v : Word) : (s.putFields p r i j v).lanes = s.lanes := rfl
@[simp] theorem State.bump_lanes (s : State) (r : Reg) (i n : Nat) : (s.bump r i n).lanes = s.lanes := rfl
@[simp] theorem State.bumpP_lanes (s : State) (p : Nat) (r : Reg) (n : Nat) : (s.bumpP p r n).lanes = s.lanes := rfl
@[simp] theorem State.finish_lanes (s : State) (st : Status) (l : List Word) : (s.finish st l).lanes = s.lanes := rfl
@[simp] theorem State.stat_lanes (s : State) (st : Status) : (s.stat st).lanes = s.lanes := rfl
@[simp] theorem State.nextFree_lanes (s : State) : (s.nextFree).lanes = s.lanes := rfl
@[simp] theorem State.putByte_lanes (s : State) (a : Nat) (b : Byte) : (s.putByte a b).lanes = s.lanes := rfl
@[simp] theorem State.onPort_lanes (s : State) (p : Nat) (f : PortSt → PortSt) : (s.onPort p f).lanes = s.lanes := rfl
@[simp] theorem State.setPort_lanes (s : State) (p : Nat) (x : PortSt) : (s.setPort p x).lanes = s.lanes := rfl
@[simp] theorem State.setMbox_lanes (s : State) (d m : Nat) (x : Mbox) : (s.setMbox d m x).lanes = s.lanes := rfl
@[simp] theorem State.setBatch_lanes (s : State) (p : Nat) (x : BatchSt) : (s.setBatch p x).lanes = s.lanes := rfl
@[simp] theorem State.onDst_lanes (s : State) (f : DstSt → DstSt) : (s.onDst f).lanes = s.lanes := rfl
@[simp] theorem State.onInst_lanes (s : State) (b : Nat) (f : Inst → Inst) : (s.onInst b f).lanes = s.lanes := rfl
@[simp] theorem State.onScrub_lanes (s : State) (f : ScrubSt → ScrubSt) : (s.onScrub f).lanes = s.lanes := rfl
@[simp] theorem State.setBank_lanes (s : State) (b : Nat) (x : BankSt) : (s.setBank b x).lanes = s.lanes := rfl
@[simp] theorem State.onSec_lanes (s : State) (f : SecSt → SecSt) : (s.onSec f).lanes = s.lanes := rfl
@[simp] theorem State.setCnt_lanes (s : State) (k : Nat) (x : ObsCnt) : (s.setCnt k x).lanes = s.lanes := rfl
@[simp] theorem State.onLdr_lanes (s : State) (f : LdrSt → LdrSt) : (s.onLdr f).lanes = s.lanes := rfl
@[simp] theorem State.setProbe_lanes (s : State) (k : Nat) (x : ProbeSt) : (s.setProbe k x).lanes = s.lanes := rfl
@[simp] theorem State.onMem_lanes (s : State) (f : MemSt → MemSt) : (s.onMem f).lanes = s.lanes := rfl
@[simp] theorem State.setSense_lanes (s : State) (k : Nat) (x : SenseSt) : (s.setSense k x).lanes = s.lanes := rfl
@[simp] theorem State.onObs_lanes (s : State) (f : ObsSt → ObsSt) : (s.onObs f).lanes = s.lanes := rfl
@[simp] theorem State.setQd_lanes (s : State) (k : Nat) (x : QdSt) : (s.setQd k x).lanes = s.lanes := rfl
@[simp] theorem State.onPins_lanes (s : State) (f : PinsSt → PinsSt) : (s.onPins f).lanes = s.lanes := rfl
@[simp] theorem State.setPlane_lanes (s : State) (k : Nat) (x : PLane) : (s.setPlane k x).lanes = s.lanes := rfl
@[simp] theorem State.onPwr_lanes (s : State) (f : PwrSt → PwrSt) : (s.onPwr f).lanes = s.lanes := rfl
@[simp] theorem State.setHold_lanes (s : State) (p d : Nat) (x : HoldQ) : (s.setHold p d x).lanes = s.lanes := rfl
@[simp] theorem State.onTime_lanes (s : State) (f : TimeSt → TimeSt) : (s.onTime f).lanes = s.lanes := rfl
@[simp] theorem State.setInbox_lanes (s : State) (k : Nat) (x : List Packet) : (s.setInbox k x).lanes = s.lanes := rfl
@[simp] theorem State.onLoad_lanes (s : State) (f : Load → Load) : (s.onLoad f).lanes = s.lanes := rfl
@[simp] theorem State.setAsm_lanes (s : State) (k : Nat) (x : List Flit) : (s.setAsm k x).lanes = s.lanes := rfl
@[simp] theorem State.onFuses_lanes (s : State) (f : FuseSt → FuseSt) : (s.onFuses f).lanes = s.lanes := rfl
@[simp] theorem State.setOutArb_lanes (s : State) (o : Nat) (x : OutArb) : (s.setOutArb o x).lanes = s.lanes := rfl
@[simp] theorem State.setSlot_lanes (s : State) (n i : Nat) (x : SlotSt) : (s.setSlot n i x).lanes = s.lanes := rfl
@[simp] theorem State.setSpool_lanes (s : State) (n : Nat) (x : SpoolSt) : (s.setSpool n x).lanes = s.lanes := rfl
@[simp] theorem State.setExp_lanes (s : State) (n : Nat) (e : Option ExpSt) : (s.setExp n e).lanes = s.lanes := rfl
@[simp] theorem State.onMarks_lanes (s : State) (n : Nat) (f : NMap (Nat × Tick) → NMap (Nat × Tick)) : (s.onMarks n f).lanes = s.lanes := rfl
@[simp] theorem State.setChan_lanes (s : State) (c : Nat) (x : ChanSt) : (s.setChan c x).lanes = s.lanes := rfl
@[simp] theorem State.setTriple_lanes (s : State) (i : Nat) (l : List Word) : (s.setTriple i l).lanes = s.lanes := rfl
@[simp] theorem State.setPin_lanes (s : State) (p : Nat) (x : PinSt) : (s.setPin p x).lanes = s.lanes := rfl
@[simp] theorem State.onTile_lanes (s : State) (t : Nat) (f : TileSt → TileSt) : (s.onTile t f).lanes = s.lanes := rfl
@[simp] theorem State.setPwm_lanes (s : State) (c : Nat) (x : PwmSt) : (s.setPwm c x).lanes = s.lanes := rfl
@[simp] theorem State.onIfc_lanes (s : State) (t : Nat) (f : TileIf → TileIf) : (s.onIfc t f).lanes = s.lanes := rfl
@[simp] theorem State.setXing_lanes (s : State) (k : Nat) (x : XingSt) : (s.setXing k x).lanes = s.lanes := rfl
@[simp] theorem State.setTileQ_lanes (s : State) (t q : Nat) (x : HQ (BitVec 36)) : (s.setTileQ t q x).lanes = s.lanes := by unfold State.setTileQ; split <;> rfl
@[simp] theorem State.setTile_lanes (s : State) (t : Nat) (x : TileSt) : (s.setTile t x).lanes = s.lanes := rfl
@[simp] theorem State.freshFrame_lanes (s : State) (f : Nat) : (s.freshFrame f).lanes = s.lanes := rfl
@[simp] theorem State.setCfg_lanes (s : State) (k : Nat) (v : Word) : (s.setCfg k v).lanes = s.lanes := rfl

/-! ### `chans` -/
@[simp] theorem State.setRegP_chans (s : State) (p : Nat) (r : Reg) (i j : Nat) (v : Word) : (s.setRegP p r i j v).chans = s.chans := rfl
@[simp] theorem State.setReg_chans (s : State) (r : Reg) (i : Nat) (v : Word) : (s.setReg r i v).chans = s.chans := rfl
@[simp] theorem State.putFields_chans (s : State) (p : Nat) (r : Reg) (i j : Nat) (v : Word) : (s.putFields p r i j v).chans = s.chans := rfl
@[simp] theorem State.bump_chans (s : State) (r : Reg) (i n : Nat) : (s.bump r i n).chans = s.chans := rfl
@[simp] theorem State.bumpP_chans (s : State) (p : Nat) (r : Reg) (n : Nat) : (s.bumpP p r n).chans = s.chans := rfl
@[simp] theorem State.finish_chans (s : State) (st : Status) (l : List Word) : (s.finish st l).chans = s.chans := rfl
@[simp] theorem State.stat_chans (s : State) (st : Status) : (s.stat st).chans = s.chans := rfl
@[simp] theorem State.nextFree_chans (s : State) : (s.nextFree).chans = s.chans := rfl
@[simp] theorem State.putByte_chans (s : State) (a : Nat) (b : Byte) : (s.putByte a b).chans = s.chans := rfl
@[simp] theorem State.onPort_chans (s : State) (p : Nat) (f : PortSt → PortSt) : (s.onPort p f).chans = s.chans := rfl
@[simp] theorem State.setPort_chans (s : State) (p : Nat) (x : PortSt) : (s.setPort p x).chans = s.chans := rfl
@[simp] theorem State.setMbox_chans (s : State) (d m : Nat) (x : Mbox) : (s.setMbox d m x).chans = s.chans := rfl
@[simp] theorem State.setBatch_chans (s : State) (p : Nat) (x : BatchSt) : (s.setBatch p x).chans = s.chans := rfl
@[simp] theorem State.onDst_chans (s : State) (f : DstSt → DstSt) : (s.onDst f).chans = s.chans := rfl
@[simp] theorem State.onInst_chans (s : State) (b : Nat) (f : Inst → Inst) : (s.onInst b f).chans = s.chans := rfl
@[simp] theorem State.onScrub_chans (s : State) (f : ScrubSt → ScrubSt) : (s.onScrub f).chans = s.chans := rfl
@[simp] theorem State.setBank_chans (s : State) (b : Nat) (x : BankSt) : (s.setBank b x).chans = s.chans := rfl
@[simp] theorem State.onSec_chans (s : State) (f : SecSt → SecSt) : (s.onSec f).chans = s.chans := rfl
@[simp] theorem State.setCnt_chans (s : State) (k : Nat) (x : ObsCnt) : (s.setCnt k x).chans = s.chans := rfl
@[simp] theorem State.onLdr_chans (s : State) (f : LdrSt → LdrSt) : (s.onLdr f).chans = s.chans := rfl
@[simp] theorem State.setProbe_chans (s : State) (k : Nat) (x : ProbeSt) : (s.setProbe k x).chans = s.chans := rfl
@[simp] theorem State.onMem_chans (s : State) (f : MemSt → MemSt) : (s.onMem f).chans = s.chans := rfl
@[simp] theorem State.setSense_chans (s : State) (k : Nat) (x : SenseSt) : (s.setSense k x).chans = s.chans := rfl
@[simp] theorem State.onObs_chans (s : State) (f : ObsSt → ObsSt) : (s.onObs f).chans = s.chans := rfl
@[simp] theorem State.setQd_chans (s : State) (k : Nat) (x : QdSt) : (s.setQd k x).chans = s.chans := rfl
@[simp] theorem State.onPins_chans (s : State) (f : PinsSt → PinsSt) : (s.onPins f).chans = s.chans := rfl
@[simp] theorem State.setPlane_chans (s : State) (k : Nat) (x : PLane) : (s.setPlane k x).chans = s.chans := rfl
@[simp] theorem State.onPwr_chans (s : State) (f : PwrSt → PwrSt) : (s.onPwr f).chans = s.chans := rfl
@[simp] theorem State.setHold_chans (s : State) (p d : Nat) (x : HoldQ) : (s.setHold p d x).chans = s.chans := rfl
@[simp] theorem State.onTime_chans (s : State) (f : TimeSt → TimeSt) : (s.onTime f).chans = s.chans := rfl
@[simp] theorem State.setInbox_chans (s : State) (k : Nat) (x : List Packet) : (s.setInbox k x).chans = s.chans := rfl
@[simp] theorem State.onLoad_chans (s : State) (f : Load → Load) : (s.onLoad f).chans = s.chans := rfl
@[simp] theorem State.setAsm_chans (s : State) (k : Nat) (x : List Flit) : (s.setAsm k x).chans = s.chans := rfl
@[simp] theorem State.onFuses_chans (s : State) (f : FuseSt → FuseSt) : (s.onFuses f).chans = s.chans := rfl
@[simp] theorem State.setOutArb_chans (s : State) (o : Nat) (x : OutArb) : (s.setOutArb o x).chans = s.chans := rfl
@[simp] theorem State.setSlot_chans (s : State) (n i : Nat) (x : SlotSt) : (s.setSlot n i x).chans = s.chans := rfl
@[simp] theorem State.setSpool_chans (s : State) (n : Nat) (x : SpoolSt) : (s.setSpool n x).chans = s.chans := rfl
@[simp] theorem State.setExp_chans (s : State) (n : Nat) (e : Option ExpSt) : (s.setExp n e).chans = s.chans := rfl
@[simp] theorem State.onMarks_chans (s : State) (n : Nat) (f : NMap (Nat × Tick) → NMap (Nat × Tick)) : (s.onMarks n f).chans = s.chans := rfl
@[simp] theorem State.setLane_chans (s : State) (n : Nat) (x : LaneSt) : (s.setLane n x).chans = s.chans := rfl
@[simp] theorem State.onLane_chans (s : State) (n : Nat) (f : LaneSt → LaneSt) : (s.onLane n f).chans = s.chans := rfl
@[simp] theorem State.setPin_chans (s : State) (p : Nat) (x : PinSt) : (s.setPin p x).chans = s.chans := rfl
@[simp] theorem State.setTriple_chans (s : State) (i : Nat) (l : List Word) : (s.setTriple i l).chans = s.chans := rfl
@[simp] theorem State.setPwm_chans (s : State) (c : Nat) (x : PwmSt) : (s.setPwm c x).chans = s.chans := rfl
@[simp] theorem State.onTile_chans (s : State) (t : Nat) (f : TileSt → TileSt) : (s.onTile t f).chans = s.chans := rfl
@[simp] theorem State.setXing_chans (s : State) (k : Nat) (x : XingSt) : (s.setXing k x).chans = s.chans := rfl
@[simp] theorem State.onIfc_chans (s : State) (t : Nat) (f : TileIf → TileIf) : (s.onIfc t f).chans = s.chans := rfl
@[simp] theorem State.setTile_chans (s : State) (t : Nat) (x : TileSt) : (s.setTile t x).chans = s.chans := rfl
@[simp] theorem State.setTileQ_chans (s : State) (t q : Nat) (x : HQ (BitVec 36)) : (s.setTileQ t q x).chans = s.chans := by unfold State.setTileQ; split <;> rfl
@[simp] theorem State.setCfg_chans (s : State) (k : Nat) (v : Word) : (s.setCfg k v).chans = s.chans := rfl
@[simp] theorem State.freshFrame_chans (s : State) (f : Nat) : (s.freshFrame f).chans = s.chans := rfl

/-! ### `fe` -/
@[simp] theorem State.setRegP_fe (s : State) (p : Nat) (r : Reg) (i j : Nat) (v : Word) : (s.setRegP p r i j v).fe = s.fe := rfl
@[simp] theorem State.setReg_fe (s : State) (r : Reg) (i : Nat) (v : Word) : (s.setReg r i v).fe = s.fe := rfl
@[simp] theorem State.putFields_fe (s : State) (p : Nat) (r : Reg) (i j : Nat) (v : Word) : (s.putFields p r i j v).fe = s.fe := rfl
@[simp] theorem State.bump_fe (s : State) (r : Reg) (i n : Nat) : (s.bump r i n).fe = s.fe := rfl
@[simp] theorem State.bumpP_fe (s : State) (p : Nat) (r : Reg) (n : Nat) : (s.bumpP p r n).fe = s.fe := rfl
@[simp] theorem State.finish_fe (s : State) (st : Status) (l : List Word) : (s.finish st l).fe = s.fe := rfl
@[simp] theorem State.stat_fe (s : State) (st : Status) : (s.stat st).fe = s.fe := rfl
@[simp] theorem State.nextFree_fe (s : State) : (s.nextFree).fe = s.fe := rfl
@[simp] theorem State.putByte_fe (s : State) (a : Nat) (b : Byte) : (s.putByte a b).fe = s.fe := rfl
@[simp] theorem State.onPort_fe (s : State) (p : Nat) (f : PortSt → PortSt) : (s.onPort p f).fe = s.fe := rfl
@[simp] theorem State.setPort_fe (s : State) (p : Nat) (x : PortSt) : (s.setPort p x).fe = s.fe := rfl
@[simp] theorem State.setMbox_fe (s : State) (d m : Nat) (x : Mbox) : (s.setMbox d m x).fe = s.fe := rfl
@[simp] theorem State.setBatch_fe (s : State) (p : Nat) (x : BatchSt) : (s.setBatch p x).fe = s.fe := rfl
@[simp] theorem State.onDst_fe (s : State) (f : DstSt → DstSt) : (s.onDst f).fe = s.fe := rfl
@[simp] theorem State.onInst_fe (s : State) (b : Nat) (f : Inst → Inst) : (s.onInst b f).fe = s.fe := rfl
@[simp] theorem State.onScrub_fe (s : State) (f : ScrubSt → ScrubSt) : (s.onScrub f).fe = s.fe := rfl
@[simp] theorem State.setBank_fe (s : State) (b : Nat) (x : BankSt) : (s.setBank b x).fe = s.fe := rfl
@[simp] theorem State.onSec_fe (s : State) (f : SecSt → SecSt) : (s.onSec f).fe = s.fe := rfl
@[simp] theorem State.setCnt_fe (s : State) (k : Nat) (x : ObsCnt) : (s.setCnt k x).fe = s.fe := rfl
@[simp] theorem State.onLdr_fe (s : State) (f : LdrSt → LdrSt) : (s.onLdr f).fe = s.fe := rfl
@[simp] theorem State.setProbe_fe (s : State) (k : Nat) (x : ProbeSt) : (s.setProbe k x).fe = s.fe := rfl
@[simp] theorem State.onMem_fe (s : State) (f : MemSt → MemSt) : (s.onMem f).fe = s.fe := rfl
@[simp] theorem State.setSense_fe (s : State) (k : Nat) (x : SenseSt) : (s.setSense k x).fe = s.fe := rfl
@[simp] theorem State.onObs_fe (s : State) (f : ObsSt → ObsSt) : (s.onObs f).fe = s.fe := rfl
@[simp] theorem State.setQd_fe (s : State) (k : Nat) (x : QdSt) : (s.setQd k x).fe = s.fe := rfl
@[simp] theorem State.onPins_fe (s : State) (f : PinsSt → PinsSt) : (s.onPins f).fe = s.fe := rfl
@[simp] theorem State.setPlane_fe (s : State) (k : Nat) (x : PLane) : (s.setPlane k x).fe = s.fe := rfl
@[simp] theorem State.onPwr_fe (s : State) (f : PwrSt → PwrSt) : (s.onPwr f).fe = s.fe := rfl
@[simp] theorem State.setHold_fe (s : State) (p d : Nat) (x : HoldQ) : (s.setHold p d x).fe = s.fe := rfl
@[simp] theorem State.onTime_fe (s : State) (f : TimeSt → TimeSt) : (s.onTime f).fe = s.fe := rfl
@[simp] theorem State.setInbox_fe (s : State) (k : Nat) (x : List Packet) : (s.setInbox k x).fe = s.fe := rfl
@[simp] theorem State.onLoad_fe (s : State) (f : Load → Load) : (s.onLoad f).fe = s.fe := rfl
@[simp] theorem State.setAsm_fe (s : State) (k : Nat) (x : List Flit) : (s.setAsm k x).fe = s.fe := rfl
@[simp] theorem State.onFuses_fe (s : State) (f : FuseSt → FuseSt) : (s.onFuses f).fe = s.fe := rfl
@[simp] theorem State.setOutArb_fe (s : State) (o : Nat) (x : OutArb) : (s.setOutArb o x).fe = s.fe := rfl
@[simp] theorem State.setSlot_fe (s : State) (n i : Nat) (x : SlotSt) : (s.setSlot n i x).fe = s.fe := rfl
@[simp] theorem State.setSpool_fe (s : State) (n : Nat) (x : SpoolSt) : (s.setSpool n x).fe = s.fe := rfl
@[simp] theorem State.setExp_fe (s : State) (n : Nat) (e : Option ExpSt) : (s.setExp n e).fe = s.fe := rfl
@[simp] theorem State.onMarks_fe (s : State) (n : Nat) (f : NMap (Nat × Tick) → NMap (Nat × Tick)) : (s.onMarks n f).fe = s.fe := rfl
@[simp] theorem State.setChan_fe (s : State) (c : Nat) (x : ChanSt) : (s.setChan c x).fe = s.fe := rfl
@[simp] theorem State.onLane_fe (s : State) (n : Nat) (f : LaneSt → LaneSt) : (s.onLane n f).fe = s.fe := rfl
@[simp] theorem State.setLane_fe (s : State) (n : Nat) (x : LaneSt) : (s.setLane n x).fe = s.fe := rfl
@[simp] theorem State.setTriple_fe (s : State) (i : Nat) (l : List Word) : (s.setTriple i l).fe = s.fe := rfl
@[simp] theorem State.setPin_fe (s : State) (p : Nat) (x : PinSt) : (s.setPin p x).fe = s.fe := rfl
@[simp] theorem State.onTile_fe (s : State) (t : Nat) (f : TileSt → TileSt) : (s.onTile t f).fe = s.fe := rfl
@[simp] theorem State.setPwm_fe (s : State) (c : Nat) (x : PwmSt) : (s.setPwm c x).fe = s.fe := rfl
@[simp] theorem State.onIfc_fe (s : State) (t : Nat) (f : TileIf → TileIf) : (s.onIfc t f).fe = s.fe := rfl
@[simp] theorem State.setXing_fe (s : State) (k : Nat) (x : XingSt) : (s.setXing k x).fe = s.fe := rfl
@[simp] theorem State.setTileQ_fe (s : State) (t q : Nat) (x : HQ (BitVec 36)) : (s.setTileQ t q x).fe = s.fe := by unfold State.setTileQ; split <;> rfl
@[simp] theorem State.setTile_fe (s : State) (t : Nat) (x : TileSt) : (s.setTile t x).fe = s.fe := rfl
@[simp] theorem State.freshFrame_fe (s : State) (f : Nat) : (s.freshFrame f).fe = s.fe := rfl
@[simp] theorem State.setCfg_fe (s : State) (k : Nat) (v : Word) : (s.setCfg k v).fe = s.fe := rfl

/-! ### `spl` -/
@[simp] theorem State.setRegP_spl (s : State) (p : Nat) (r : Reg) (i j : Nat) (v : Word) : (s.setRegP p r i j v).spl = s.spl := rfl
@[simp] theorem State.setReg_spl (s : State) (r : Reg) (i : Nat) (v : Word) : (s.setReg r i v).spl = s.spl := rfl
@[simp] theorem State.putFields_spl (s : State) (p : Nat) (r : Reg) (i j : Nat) (v : Word) : (s.putFields p r i j v).spl = s.spl := rfl
@[simp] theorem State.bump_spl (s : State) (r : Reg) (i n : Nat) : (s.bump r i n).spl = s.spl := rfl
@[simp] theorem State.bumpP_spl (s : State) (p : Nat) (r : Reg) (n : Nat) : (s.bumpP p r n).spl = s.spl := rfl
@[simp] theorem State.finish_spl (s : State) (st : Status) (l : List Word) : (s.finish st l).spl = s.spl := rfl
@[simp] theorem State.stat_spl (s : State) (st : Status) : (s.stat st).spl = s.spl := rfl
@[simp] theorem State.nextFree_spl (s : State) : (s.nextFree).spl = s.spl := rfl
@[simp] theorem State.putByte_spl (s : State) (a : Nat) (b : Byte) : (s.putByte a b).spl = s.spl := rfl
@[simp] theorem State.onPort_spl (s : State) (p : Nat) (f : PortSt → PortSt) : (s.onPort p f).spl = s.spl := rfl
@[simp] theorem State.setPort_spl (s : State) (p : Nat) (x : PortSt) : (s.setPort p x).spl = s.spl := rfl
@[simp] theorem State.setMbox_spl (s : State) (d m : Nat) (x : Mbox) : (s.setMbox d m x).spl = s.spl := rfl
@[simp] theorem State.setBatch_spl (s : State) (p : Nat) (x : BatchSt) : (s.setBatch p x).spl = s.spl := rfl
@[simp] theorem State.onDst_spl (s : State) (f : DstSt → DstSt) : (s.onDst f).spl = s.spl := rfl
@[simp] theorem State.onInst_spl (s : State) (b : Nat) (f : Inst → Inst) : (s.onInst b f).spl = s.spl := rfl
@[simp] theorem State.onScrub_spl (s : State) (f : ScrubSt → ScrubSt) : (s.onScrub f).spl = s.spl := rfl
@[simp] theorem State.setBank_spl (s : State) (b : Nat) (x : BankSt) : (s.setBank b x).spl = s.spl := rfl
@[simp] theorem State.onSec_spl (s : State) (f : SecSt → SecSt) : (s.onSec f).spl = s.spl := rfl
@[simp] theorem State.setCnt_spl (s : State) (k : Nat) (x : ObsCnt) : (s.setCnt k x).spl = s.spl := rfl
@[simp] theorem State.onLdr_spl (s : State) (f : LdrSt → LdrSt) : (s.onLdr f).spl = s.spl := rfl
@[simp] theorem State.setProbe_spl (s : State) (k : Nat) (x : ProbeSt) : (s.setProbe k x).spl = s.spl := rfl
@[simp] theorem State.onMem_spl (s : State) (f : MemSt → MemSt) : (s.onMem f).spl = s.spl := rfl
@[simp] theorem State.setSense_spl (s : State) (k : Nat) (x : SenseSt) : (s.setSense k x).spl = s.spl := rfl
@[simp] theorem State.onObs_spl (s : State) (f : ObsSt → ObsSt) : (s.onObs f).spl = s.spl := rfl
@[simp] theorem State.setQd_spl (s : State) (k : Nat) (x : QdSt) : (s.setQd k x).spl = s.spl := rfl
@[simp] theorem State.onPins_spl (s : State) (f : PinsSt → PinsSt) : (s.onPins f).spl = s.spl := rfl
@[simp] theorem State.setPlane_spl (s : State) (k : Nat) (x : PLane) : (s.setPlane k x).spl = s.spl := rfl
@[simp] theorem State.onPwr_spl (s : State) (f : PwrSt → PwrSt) : (s.onPwr f).spl = s.spl := rfl
@[simp] theorem State.setHold_spl (s : State) (p d : Nat) (x : HoldQ) : (s.setHold p d x).spl = s.spl := rfl
@[simp] theorem State.onTime_spl (s : State) (f : TimeSt → TimeSt) : (s.onTime f).spl = s.spl := rfl
@[simp] theorem State.setInbox_spl (s : State) (k : Nat) (x : List Packet) : (s.setInbox k x).spl = s.spl := rfl
@[simp] theorem State.onLoad_spl (s : State) (f : Load → Load) : (s.onLoad f).spl = s.spl := rfl
@[simp] theorem State.setAsm_spl (s : State) (k : Nat) (x : List Flit) : (s.setAsm k x).spl = s.spl := rfl
@[simp] theorem State.onFuses_spl (s : State) (f : FuseSt → FuseSt) : (s.onFuses f).spl = s.spl := rfl
@[simp] theorem State.setOutArb_spl (s : State) (o : Nat) (x : OutArb) : (s.setOutArb o x).spl = s.spl := rfl
@[simp] theorem State.onLane_spl (s : State) (n : Nat) (f : LaneSt → LaneSt) : (s.onLane n f).spl = s.spl := rfl
@[simp] theorem State.setChan_spl (s : State) (c : Nat) (x : ChanSt) : (s.setChan c x).spl = s.spl := rfl
@[simp] theorem State.setTriple_spl (s : State) (i : Nat) (l : List Word) : (s.setTriple i l).spl = s.spl := rfl
@[simp] theorem State.setLane_spl (s : State) (n : Nat) (x : LaneSt) : (s.setLane n x).spl = s.spl := rfl
@[simp] theorem State.onTile_spl (s : State) (t : Nat) (f : TileSt → TileSt) : (s.onTile t f).spl = s.spl := rfl
@[simp] theorem State.setPin_spl (s : State) (p : Nat) (x : PinSt) : (s.setPin p x).spl = s.spl := rfl
@[simp] theorem State.onIfc_spl (s : State) (t : Nat) (f : TileIf → TileIf) : (s.onIfc t f).spl = s.spl := rfl
@[simp] theorem State.setPwm_spl (s : State) (c : Nat) (x : PwmSt) : (s.setPwm c x).spl = s.spl := rfl
@[simp] theorem State.setTileQ_spl (s : State) (t q : Nat) (x : HQ (BitVec 36)) : (s.setTileQ t q x).spl = s.spl := by unfold State.setTileQ; split <;> rfl
@[simp] theorem State.setXing_spl (s : State) (k : Nat) (x : XingSt) : (s.setXing k x).spl = s.spl := rfl
@[simp] theorem State.freshFrame_spl (s : State) (f : Nat) : (s.freshFrame f).spl = s.spl := rfl
@[simp] theorem State.setTile_spl (s : State) (t : Nat) (x : TileSt) : (s.setTile t x).spl = s.spl := rfl
@[simp] theorem State.setCfg_spl (s : State) (k : Nat) (v : Word) : (s.setCfg k v).spl = s.spl := rfl

/-! ### `memory` -/
@[simp] theorem State.setRegP_memory (s : State) (p : Nat) (r : Reg) (i j : Nat) (v : Word) : (s.setRegP p r i j v).memory = s.memory := rfl
@[simp] theorem State.setReg_memory (s : State) (r : Reg) (i : Nat) (v : Word) : (s.setReg r i v).memory = s.memory := rfl
@[simp] theorem State.putFields_memory (s : State) (p : Nat) (r : Reg) (i j : Nat) (v : Word) : (s.putFields p r i j v).memory = s.memory := rfl
@[simp] theorem State.bump_memory (s : State) (r : Reg) (i n : Nat) : (s.bump r i n).memory = s.memory := rfl
@[simp] theorem State.bumpP_memory (s : State) (p : Nat) (r : Reg) (n : Nat) : (s.bumpP p r n).memory = s.memory := rfl
@[simp] theorem State.finish_memory (s : State) (st : Status) (l : List Word) : (s.finish st l).memory = s.memory := rfl
@[simp] theorem State.stat_memory (s : State) (st : Status) : (s.stat st).memory = s.memory := rfl
@[simp] theorem State.nextFree_memory (s : State) : (s.nextFree).memory = s.memory := rfl
@[simp] theorem State.putByte_memory (s : State) (a : Nat) (b : Byte) : (s.putByte a b).memory = s.memory := rfl
@[simp] theorem State.onPort_memory (s : State) (p : Nat) (f : PortSt → PortSt) : (s.onPort p f).memory = s.memory := rfl
@[simp] theorem State.setPort_memory (s : State) (p : Nat) (x : PortSt) : (s.setPort p x).memory = s.memory := rfl
@[simp] theorem State.setMbox_memory (s : State) (d m : Nat) (x : Mbox) : (s.setMbox d m x).memory = s.memory := rfl
@[simp] theorem State.setBatch_memory (s : State) (p : Nat) (x : BatchSt) : (s.setBatch p x).memory = s.memory := rfl
@[simp] theorem State.onDst_memory (s : State) (f : DstSt → DstSt) : (s.onDst f).memory = s.memory := rfl
@[simp] theorem State.onMem_memory (s : State) (f : MemSt → MemSt) : (s.onMem f).memory = f s.memory := rfl
@[simp] theorem State.onScrub_memory (s : State) (f : ScrubSt → ScrubSt) : (s.onScrub f).memory = s.memory := rfl
@[simp] theorem State.onInst_memory (s : State) (b : Nat) (f : Inst → Inst) : (s.onInst b f).memory = s.memory := rfl
@[simp] theorem State.onSec_memory (s : State) (f : SecSt → SecSt) : (s.onSec f).memory = s.memory := rfl
@[simp] theorem State.setCnt_memory (s : State) (k : Nat) (x : ObsCnt) : (s.setCnt k x).memory = s.memory := rfl
@[simp] theorem State.onLdr_memory (s : State) (f : LdrSt → LdrSt) : (s.onLdr f).memory = s.memory := rfl
@[simp] theorem State.setProbe_memory (s : State) (k : Nat) (x : ProbeSt) : (s.setProbe k x).memory = s.memory := rfl
@[simp] theorem State.onObs_memory (s : State) (f : ObsSt → ObsSt) : (s.onObs f).memory = s.memory := rfl
@[simp] theorem State.setSense_memory (s : State) (k : Nat) (x : SenseSt) : (s.setSense k x).memory = s.memory := rfl
@[simp] theorem State.onPins_memory (s : State) (f : PinsSt → PinsSt) : (s.onPins f).memory = s.memory := rfl
@[simp] theorem State.setQd_memory (s : State) (k : Nat) (x : QdSt) : (s.setQd k x).memory = s.memory := rfl
@[simp] theorem State.onPwr_memory (s : State) (f : PwrSt → PwrSt) : (s.onPwr f).memory = s.memory := rfl
@[simp] theorem State.setPlane_memory (s : State) (k : Nat) (x : PLane) : (s.setPlane k x).memory = s.memory := rfl
@[simp] theorem State.onTime_memory (s : State) (f : TimeSt → TimeSt) : (s.onTime f).memory = s.memory := rfl
@[simp] theorem State.setHold_memory (s : State) (p d : Nat) (x : HoldQ) : (s.setHold p d x).memory = s.memory := rfl
@[simp] theorem State.onLoad_memory (s : State) (f : Load → Load) : (s.onLoad f).memory = s.memory := rfl
@[simp] theorem State.setInbox_memory (s : State) (k : Nat) (x : List Packet) : (s.setInbox k x).memory = s.memory := rfl
@[simp] theorem State.onFuses_memory (s : State) (f : FuseSt → FuseSt) : (s.onFuses f).memory = s.memory := rfl
@[simp] theorem State.setAsm_memory (s : State) (k : Nat) (x : List Flit) : (s.setAsm k x).memory = s.memory := rfl
@[simp] theorem State.setOutArb_memory (s : State) (o : Nat) (x : OutArb) : (s.setOutArb o x).memory = s.memory := rfl
@[simp] theorem State.setSlot_memory (s : State) (n i : Nat) (x : SlotSt) : (s.setSlot n i x).memory = s.memory := rfl
@[simp] theorem State.setSpool_memory (s : State) (n : Nat) (x : SpoolSt) : (s.setSpool n x).memory = s.memory := rfl
@[simp] theorem State.setExp_memory (s : State) (n : Nat) (e : Option ExpSt) : (s.setExp n e).memory = s.memory := rfl
@[simp] theorem State.onMarks_memory (s : State) (n : Nat) (f : NMap (Nat × Tick) → NMap (Nat × Tick)) : (s.onMarks n f).memory = s.memory := rfl
@[simp] theorem State.setChan_memory (s : State) (c : Nat) (x : ChanSt) : (s.setChan c x).memory = s.memory := rfl
@[simp] theorem State.onLane_memory (s : State) (n : Nat) (f : LaneSt → LaneSt) : (s.onLane n f).memory = s.memory := rfl
@[simp] theorem State.setLane_memory (s : State) (n : Nat) (x : LaneSt) : (s.setLane n x).memory = s.memory := rfl
@[simp] theorem State.setTriple_memory (s : State) (i : Nat) (l : List Word) : (s.setTriple i l).memory = s.memory := rfl
@[simp] theorem State.setPin_memory (s : State) (p : Nat) (x : PinSt) : (s.setPin p x).memory = s.memory := rfl
@[simp] theorem State.onTile_memory (s : State) (t : Nat) (f : TileSt → TileSt) : (s.onTile t f).memory = s.memory := rfl
@[simp] theorem State.setPwm_memory (s : State) (c : Nat) (x : PwmSt) : (s.setPwm c x).memory = s.memory := rfl
@[simp] theorem State.onIfc_memory (s : State) (t : Nat) (f : TileIf → TileIf) : (s.onIfc t f).memory = s.memory := rfl
@[simp] theorem State.setXing_memory (s : State) (k : Nat) (x : XingSt) : (s.setXing k x).memory = s.memory := rfl
@[simp] theorem State.setTileQ_memory (s : State) (t q : Nat) (x : HQ (BitVec 36)) : (s.setTileQ t q x).memory = s.memory := by unfold State.setTileQ; split <;> rfl
@[simp] theorem State.setTile_memory (s : State) (t : Nat) (x : TileSt) : (s.setTile t x).memory = s.memory := rfl
@[simp] theorem State.freshFrame_memory (s : State) (f : Nat) : (s.freshFrame f).memory = s.memory := rfl
@[simp] theorem State.setCfg_memory (s : State) (k : Nat) (v : Word) : (s.setCfg k v).memory = s.memory := rfl

/-! ### `xng` -/
@[simp] theorem State.setRegP_xng (s : State) (p : Nat) (r : Reg) (i j : Nat) (v : Word) : (s.setRegP p r i j v).xng = s.xng := rfl
@[simp] theorem State.setReg_xng (s : State) (r : Reg) (i : Nat) (v : Word) : (s.setReg r i v).xng = s.xng := rfl
@[simp] theorem State.putFields_xng (s : State) (p : Nat) (r : Reg) (i j : Nat) (v : Word) : (s.putFields p r i j v).xng = s.xng := rfl
@[simp] theorem State.bump_xng (s : State) (r : Reg) (i n : Nat) : (s.bump r i n).xng = s.xng := rfl
@[simp] theorem State.bumpP_xng (s : State) (p : Nat) (r : Reg) (n : Nat) : (s.bumpP p r n).xng = s.xng := rfl
@[simp] theorem State.finish_xng (s : State) (st : Status) (l : List Word) : (s.finish st l).xng = s.xng := rfl
@[simp] theorem State.stat_xng (s : State) (st : Status) : (s.stat st).xng = s.xng := rfl
@[simp] theorem State.nextFree_xng (s : State) : (s.nextFree).xng = s.xng := rfl
@[simp] theorem State.putByte_xng (s : State) (a : Nat) (b : Byte) : (s.putByte a b).xng = s.xng := rfl
@[simp] theorem State.onPort_xng (s : State) (p : Nat) (f : PortSt → PortSt) : (s.onPort p f).xng = s.xng := rfl
@[simp] theorem State.setPort_xng (s : State) (p : Nat) (x : PortSt) : (s.setPort p x).xng = s.xng := rfl
@[simp] theorem State.setMbox_xng (s : State) (d m : Nat) (x : Mbox) : (s.setMbox d m x).xng = s.xng := rfl
@[simp] theorem State.setBatch_xng (s : State) (p : Nat) (x : BatchSt) : (s.setBatch p x).xng = s.xng := rfl
@[simp] theorem State.onDst_xng (s : State) (f : DstSt → DstSt) : (s.onDst f).xng = s.xng := rfl
@[simp] theorem State.onInst_xng (s : State) (b : Nat) (f : Inst → Inst) : (s.onInst b f).xng = s.xng := rfl
@[simp] theorem State.onScrub_xng (s : State) (f : ScrubSt → ScrubSt) : (s.onScrub f).xng = s.xng := rfl
@[simp] theorem State.setBank_xng (s : State) (b : Nat) (x : BankSt) : (s.setBank b x).xng = s.xng := rfl
@[simp] theorem State.onSec_xng (s : State) (f : SecSt → SecSt) : (s.onSec f).xng = s.xng := rfl
@[simp] theorem State.setCnt_xng (s : State) (k : Nat) (x : ObsCnt) : (s.setCnt k x).xng = s.xng := rfl
@[simp] theorem State.onLdr_xng (s : State) (f : LdrSt → LdrSt) : (s.onLdr f).xng = s.xng := rfl
@[simp] theorem State.setProbe_xng (s : State) (k : Nat) (x : ProbeSt) : (s.setProbe k x).xng = s.xng := rfl
@[simp] theorem State.onMem_xng (s : State) (f : MemSt → MemSt) : (s.onMem f).xng = s.xng := rfl
@[simp] theorem State.setSense_xng (s : State) (k : Nat) (x : SenseSt) : (s.setSense k x).xng = s.xng := rfl
@[simp] theorem State.onObs_xng (s : State) (f : ObsSt → ObsSt) : (s.onObs f).xng = s.xng := rfl
@[simp] theorem State.setQd_xng (s : State) (k : Nat) (x : QdSt) : (s.setQd k x).xng = s.xng := rfl
@[simp] theorem State.onPins_xng (s : State) (f : PinsSt → PinsSt) : (s.onPins f).xng = s.xng := rfl
@[simp] theorem State.setPlane_xng (s : State) (k : Nat) (x : PLane) : (s.setPlane k x).xng = s.xng := rfl
@[simp] theorem State.onPwr_xng (s : State) (f : PwrSt → PwrSt) : (s.onPwr f).xng = s.xng := rfl
@[simp] theorem State.setHold_xng (s : State) (p d : Nat) (x : HoldQ) : (s.setHold p d x).xng = s.xng := rfl
@[simp] theorem State.onTime_xng (s : State) (f : TimeSt → TimeSt) : (s.onTime f).xng = s.xng := rfl
@[simp] theorem State.setInbox_xng (s : State) (k : Nat) (x : List Packet) : (s.setInbox k x).xng = s.xng := rfl
@[simp] theorem State.onLoad_xng (s : State) (f : Load → Load) : (s.onLoad f).xng = s.xng := rfl
@[simp] theorem State.setAsm_xng (s : State) (k : Nat) (x : List Flit) : (s.setAsm k x).xng = s.xng := rfl
@[simp] theorem State.onFuses_xng (s : State) (f : FuseSt → FuseSt) : (s.onFuses f).xng = s.xng := rfl
@[simp] theorem State.setOutArb_xng (s : State) (o : Nat) (x : OutArb) : (s.setOutArb o x).xng = s.xng := rfl
@[simp] theorem State.setSlot_xng (s : State) (n i : Nat) (x : SlotSt) : (s.setSlot n i x).xng = s.xng := rfl
@[simp] theorem State.setSpool_xng (s : State) (n : Nat) (x : SpoolSt) : (s.setSpool n x).xng = s.xng := rfl
@[simp] theorem State.setExp_xng (s : State) (n : Nat) (e : Option ExpSt) : (s.setExp n e).xng = s.xng := rfl
@[simp] theorem State.onMarks_xng (s : State) (n : Nat) (f : NMap (Nat × Tick) → NMap (Nat × Tick)) : (s.onMarks n f).xng = s.xng := rfl
@[simp] theorem State.setChan_xng (s : State) (c : Nat) (x : ChanSt) : (s.setChan c x).xng = s.xng := rfl
@[simp] theorem State.onLane_xng (s : State) (n : Nat) (f : LaneSt → LaneSt) : (s.onLane n f).xng = s.xng := rfl
@[simp] theorem State.setLane_xng (s : State) (n : Nat) (x : LaneSt) : (s.setLane n x).xng = s.xng := rfl
@[simp] theorem State.setTriple_xng (s : State) (i : Nat) (l : List Word) : (s.setTriple i l).xng = s.xng := rfl
@[simp] theorem State.setPin_xng (s : State) (p : Nat) (x : PinSt) : (s.setPin p x).xng = s.xng := rfl
@[simp] theorem State.onTile_xng (s : State) (t : Nat) (f : TileSt → TileSt) : (s.onTile t f).xng = s.xng := rfl
@[simp] theorem State.setPwm_xng (s : State) (c : Nat) (x : PwmSt) : (s.setPwm c x).xng = s.xng := rfl
@[simp] theorem State.onIfc_xng (s : State) (t : Nat) (f : TileIf → TileIf) : (s.onIfc t f).xng = s.xng := rfl
@[simp] theorem State.setTile_xng (s : State) (t : Nat) (x : TileSt) : (s.setTile t x).xng = s.xng := rfl
@[simp] theorem State.setTileQ_xng (s : State) (t q : Nat) (x : HQ (BitVec 36)) : (s.setTileQ t q x).xng = s.xng := by unfold State.setTileQ; split <;> rfl
@[simp] theorem State.setCfg_xng (s : State) (k : Nat) (v : Word) : (s.setCfg k v).xng = s.xng := rfl
@[simp] theorem State.freshFrame_xng (s : State) (f : Nat) : (s.freshFrame f).xng = s.xng := rfl

/-! ### `pins` -/
@[simp] theorem State.setRegP_pins (s : State) (p : Nat) (r : Reg) (i j : Nat) (v : Word) : (s.setRegP p r i j v).pins = s.pins := rfl
@[simp] theorem State.setReg_pins (s : State) (r : Reg) (i : Nat) (v : Word) : (s.setReg r i v).pins = s.pins := rfl
@[simp] theorem State.putFields_pins (s : State) (p : Nat) (r : Reg) (i j : Nat) (v : Word) : (s.putFields p r i j v).pins = s.pins := rfl
@[simp] theorem State.bump_pins (s : State) (r : Reg) (i n : Nat) : (s.bump r i n).pins = s.pins := rfl
@[simp] theorem State.bumpP_pins (s : State) (p : Nat) (r : Reg) (n : Nat) : (s.bumpP p r n).pins = s.pins := rfl
@[simp] theorem State.finish_pins (s : State) (st : Status) (l : List Word) : (s.finish st l).pins = s.pins := rfl
@[simp] theorem State.stat_pins (s : State) (st : Status) : (s.stat st).pins = s.pins := rfl
@[simp] theorem State.nextFree_pins (s : State) : (s.nextFree).pins = s.pins := rfl
@[simp] theorem State.putByte_pins (s : State) (a : Nat) (b : Byte) : (s.putByte a b).pins = s.pins := rfl
@[simp] theorem State.onPort_pins (s : State) (p : Nat) (f : PortSt → PortSt) : (s.onPort p f).pins = s.pins := rfl
@[simp] theorem State.setPort_pins (s : State) (p : Nat) (x : PortSt) : (s.setPort p x).pins = s.pins := rfl
@[simp] theorem State.setMbox_pins (s : State) (d m : Nat) (x : Mbox) : (s.setMbox d m x).pins = s.pins := rfl
@[simp] theorem State.setBatch_pins (s : State) (p : Nat) (x : BatchSt) : (s.setBatch p x).pins = s.pins := rfl
@[simp] theorem State.onDst_pins (s : State) (f : DstSt → DstSt) : (s.onDst f).pins = s.pins := rfl
@[simp] theorem State.onPins_pins (s : State) (f : PinsSt → PinsSt) : (s.onPins f).pins = f s.pins := rfl
@[simp] theorem State.onScrub_pins (s : State) (f : ScrubSt → ScrubSt) : (s.onScrub f).pins = s.pins := rfl
@[simp] theorem State.onInst_pins (s : State) (b : Nat) (f : Inst → Inst) : (s.onInst b f).pins = s.pins := rfl
@[simp] theorem State.onSec_pins (s : State) (f : SecSt → SecSt) : (s.onSec f).pins = s.pins := rfl
@[simp] theorem State.setBank_pins (s : State) (b : Nat) (x : BankSt) : (s.setBank b x).pins = s.pins := rfl
@[simp] theorem State.onLdr_pins (s : State) (f : LdrSt → LdrSt) : (s.onLdr f).pins = s.pins := rfl
@[simp] theorem State.setCnt_pins (s : State) (k : Nat) (x : ObsCnt) : (s.setCnt k x).pins = s.pins := rfl
@[simp] theorem State.onMem_pins (s : State) (f : MemSt → MemSt) : (s.onMem f).pins = s.pins := rfl
@[simp] theorem State.setProbe_pins (s : State) (k : Nat) (x : ProbeSt) : (s.setProbe k x).pins = s.pins := rfl
@[simp] theorem State.onObs_pins (s : State) (f : ObsSt → ObsSt) : (s.onObs f).pins = s.pins := rfl
@[simp] theorem State.setPlane_pins (s : State) (k : Nat) (x : PLane) : (s.setPlane k x).pins = s.pins := rfl
@[simp] theorem State.onPwr_pins (s : State) (f : PwrSt → PwrSt) : (s.onPwr f).pins = s.pins := rfl
@[simp] theorem State.setHold_pins (s : State) (p d : Nat) (x : HoldQ) : (s.setHold p d x).pins = s.pins := rfl
@[simp] theorem State.onTime_pins (s : State) (f : TimeSt → TimeSt) : (s.onTime f).pins = s.pins := rfl
@[simp] theorem State.setInbox_pins (s : State) (k : Nat) (x : List Packet) : (s.setInbox k x).pins = s.pins := rfl
@[simp] theorem State.onLoad_pins (s : State) (f : Load → Load) : (s.onLoad f).pins = s.pins := rfl
@[simp] theorem State.setAsm_pins (s : State) (k : Nat) (x : List Flit) : (s.setAsm k x).pins = s.pins := rfl
@[simp] theorem State.onFuses_pins (s : State) (f : FuseSt → FuseSt) : (s.onFuses f).pins = s.pins := rfl
@[simp] theorem State.setOutArb_pins (s : State) (o : Nat) (x : OutArb) : (s.setOutArb o x).pins = s.pins := rfl
@[simp] theorem State.setSlot_pins (s : State) (n i : Nat) (x : SlotSt) : (s.setSlot n i x).pins = s.pins := rfl
@[simp] theorem State.setSpool_pins (s : State) (n : Nat) (x : SpoolSt) : (s.setSpool n x).pins = s.pins := rfl
@[simp] theorem State.setExp_pins (s : State) (n : Nat) (e : Option ExpSt) : (s.setExp n e).pins = s.pins := rfl
@[simp] theorem State.onMarks_pins (s : State) (n : Nat) (f : NMap (Nat × Tick) → NMap (Nat × Tick)) : (s.onMarks n f).pins = s.pins := rfl
@[simp] theorem State.setChan_pins (s : State) (c : Nat) (x : ChanSt) : (s.setChan c x).pins = s.pins := rfl
@[simp] theorem State.onLane_pins (s : State) (n : Nat) (f : LaneSt → LaneSt) : (s.onLane n f).pins = s.pins := rfl
@[simp] theorem State.setLane_pins (s : State) (n : Nat) (x : LaneSt) : (s.setLane n x).pins = s.pins := rfl
@[simp] theorem State.setTriple_pins (s : State) (i : Nat) (l : List Word) : (s.setTriple i l).pins = s.pins := rfl
@[simp] theorem State.setXing_pins (s : State) (k : Nat) (x : XingSt) : (s.setXing k x).pins = s.pins := rfl
@[simp] theorem State.onTile_pins (s : State) (t : Nat) (f : TileSt → TileSt) : (s.onTile t f).pins = s.pins := rfl
@[simp] theorem State.setTile_pins (s : State) (t : Nat) (x : TileSt) : (s.setTile t x).pins = s.pins := rfl
@[simp] theorem State.onIfc_pins (s : State) (t : Nat) (f : TileIf → TileIf) : (s.onIfc t f).pins = s.pins := rfl
@[simp] theorem State.setTileQ_pins (s : State) (t q : Nat) (x : HQ (BitVec 36)) : (s.setTileQ t q x).pins = s.pins := by unfold State.setTileQ; split <;> rfl
@[simp] theorem State.setCfg_pins (s : State) (k : Nat) (v : Word) : (s.setCfg k v).pins = s.pins := rfl
@[simp] theorem State.freshFrame_pins (s : State) (f : Nat) : (s.freshFrame f).pins = s.pins := rfl

/-! ### `time` -/
@[simp] theorem State.setRegP_time (s : State) (p : Nat) (r : Reg) (i j : Nat) (v : Word) : (s.setRegP p r i j v).time = s.time := rfl
@[simp] theorem State.setReg_time (s : State) (r : Reg) (i : Nat) (v : Word) : (s.setReg r i v).time = s.time := rfl
@[simp] theorem State.putFields_time (s : State) (p : Nat) (r : Reg) (i j : Nat) (v : Word) : (s.putFields p r i j v).time = s.time := rfl
@[simp] theorem State.bump_time (s : State) (r : Reg) (i n : Nat) : (s.bump r i n).time = s.time := rfl
@[simp] theorem State.bumpP_time (s : State) (p : Nat) (r : Reg) (n : Nat) : (s.bumpP p r n).time = s.time := rfl
@[simp] theorem State.finish_time (s : State) (st : Status) (l : List Word) : (s.finish st l).time = s.time := rfl
@[simp] theorem State.stat_time (s : State) (st : Status) : (s.stat st).time = s.time := rfl
@[simp] theorem State.nextFree_time (s : State) : (s.nextFree).time = s.time := rfl
@[simp] theorem State.putByte_time (s : State) (a : Nat) (b : Byte) : (s.putByte a b).time = s.time := rfl
@[simp] theorem State.onPort_time (s : State) (p : Nat) (f : PortSt → PortSt) : (s.onPort p f).time = s.time := rfl
@[simp] theorem State.setPort_time (s : State) (p : Nat) (x : PortSt) : (s.setPort p x).time = s.time := rfl
@[simp] theorem State.setMbox_time (s : State) (d m : Nat) (x : Mbox) : (s.setMbox d m x).time = s.time := rfl
@[simp] theorem State.setBatch_time (s : State) (p : Nat) (x : BatchSt) : (s.setBatch p x).time = s.time := rfl
@[simp] theorem State.onDst_time (s : State) (f : DstSt → DstSt) : (s.onDst f).time = s.time := rfl
@[simp] theorem State.onTime_time (s : State) (f : TimeSt → TimeSt) : (s.onTime f).time = f s.time := rfl
@[simp] theorem State.onScrub_time (s : State) (f : ScrubSt → ScrubSt) : (s.onScrub f).time = s.time := rfl
@[simp] theorem State.onInst_time (s : State) (b : Nat) (f : Inst → Inst) : (s.onInst b f).time = s.time := rfl
@[simp] theorem State.onSec_time (s : State) (f : SecSt → SecSt) : (s.onSec f).time = s.time := rfl
@[simp] theorem State.setBank_time (s : State) (b : Nat) (x : BankSt) : (s.setBank b x).time = s.time := rfl
@[simp] theorem State.onLdr_time (s : State) (f : LdrSt → LdrSt) : (s.onLdr f).time = s.time := rfl
@[simp] theorem State.setCnt_time (s : State) (k : Nat) (x : ObsCnt) : (s.setCnt k x).time = s.time := rfl
@[simp] theorem State.onMem_time (s : State) (f : MemSt → MemSt) : (s.onMem f).time = s.time := rfl
@[simp] theorem State.setProbe_time (s : State) (k : Nat) (x : ProbeSt) : (s.setProbe k x).time = s.time := rfl
@[simp] theorem State.onObs_time (s : State) (f : ObsSt → ObsSt) : (s.onObs f).time = s.time := rfl
@[simp] theorem State.setSense_time (s : State) (k : Nat) (x : SenseSt) : (s.setSense k x).time = s.time := rfl
@[simp] theorem State.onPins_time (s : State) (f : PinsSt → PinsSt) : (s.onPins f).time = s.time := rfl
@[simp] theorem State.setQd_time (s : State) (k : Nat) (x : QdSt) : (s.setQd k x).time = s.time := rfl
@[simp] theorem State.onPwr_time (s : State) (f : PwrSt → PwrSt) : (s.onPwr f).time = s.time := rfl
@[simp] theorem State.setPlane_time (s : State) (k : Nat) (x : PLane) : (s.setPlane k x).time = s.time := rfl
@[simp] theorem State.onLoad_time (s : State) (f : Load → Load) : (s.onLoad f).time = s.time := rfl
@[simp] theorem State.setHold_time (s : State) (p d : Nat) (x : HoldQ) : (s.setHold p d x).time = s.time := rfl
@[simp] theorem State.onFuses_time (s : State) (f : FuseSt → FuseSt) : (s.onFuses f).time = s.time := rfl
@[simp] theorem State.setInbox_time (s : State) (k : Nat) (x : List Packet) : (s.setInbox k x).time = s.time := rfl
@[simp] theorem State.setOutArb_time (s : State) (o : Nat) (x : OutArb) : (s.setOutArb o x).time = s.time := rfl
@[simp] theorem State.setAsm_time (s : State) (k : Nat) (x : List Flit) : (s.setAsm k x).time = s.time := rfl
@[simp] theorem State.setSpool_time (s : State) (n : Nat) (x : SpoolSt) : (s.setSpool n x).time = s.time := rfl
@[simp] theorem State.setSlot_time (s : State) (n i : Nat) (x : SlotSt) : (s.setSlot n i x).time = s.time := rfl
@[simp] theorem State.setExp_time (s : State) (n : Nat) (e : Option ExpSt) : (s.setExp n e).time = s.time := rfl
@[simp] theorem State.onMarks_time (s : State) (n : Nat) (f : NMap (Nat × Tick) → NMap (Nat × Tick)) : (s.onMarks n f).time = s.time := rfl
@[simp] theorem State.setChan_time (s : State) (c : Nat) (x : ChanSt) : (s.setChan c x).time = s.time := rfl
@[simp] theorem State.onLane_time (s : State) (n : Nat) (f : LaneSt → LaneSt) : (s.onLane n f).time = s.time := rfl
@[simp] theorem State.setLane_time (s : State) (n : Nat) (x : LaneSt) : (s.setLane n x).time = s.time := rfl
@[simp] theorem State.setTriple_time (s : State) (i : Nat) (l : List Word) : (s.setTriple i l).time = s.time := rfl
@[simp] theorem State.setPin_time (s : State) (p : Nat) (x : PinSt) : (s.setPin p x).time = s.time := rfl
@[simp] theorem State.onTile_time (s : State) (t : Nat) (f : TileSt → TileSt) : (s.onTile t f).time = s.time := rfl
@[simp] theorem State.setPwm_time (s : State) (c : Nat) (x : PwmSt) : (s.setPwm c x).time = s.time := rfl
@[simp] theorem State.onIfc_time (s : State) (t : Nat) (f : TileIf → TileIf) : (s.onIfc t f).time = s.time := rfl
@[simp] theorem State.setXing_time (s : State) (k : Nat) (x : XingSt) : (s.setXing k x).time = s.time := rfl
@[simp] theorem State.setTileQ_time (s : State) (t q : Nat) (x : HQ (BitVec 36)) : (s.setTileQ t q x).time = s.time := by unfold State.setTileQ; split <;> rfl
@[simp] theorem State.setTile_time (s : State) (t : Nat) (x : TileSt) : (s.setTile t x).time = s.time := rfl
@[simp] theorem State.freshFrame_time (s : State) (f : Nat) : (s.freshFrame f).time = s.time := rfl
@[simp] theorem State.setCfg_time (s : State) (k : Nat) (v : Word) : (s.setCfg k v).time = s.time := rfl

/-! ### `host` -/
@[simp] theorem State.setRegP_host (s : State) (p : Nat) (r : Reg) (i j : Nat) (v : Word) : (s.setRegP p r i j v).host = s.host := rfl
@[simp] theorem State.setReg_host (s : State) (r : Reg) (i : Nat) (v : Word) : (s.setReg r i v).host = s.host := rfl
@[simp] theorem State.putFields_host (s : State) (p : Nat) (r : Reg) (i j : Nat) (v : Word) : (s.putFields p r i j v).host = s.host := rfl
@[simp] theorem State.bump_host (s : State) (r : Reg) (i n : Nat) : (s.bump r i n).host = s.host := rfl
@[simp] theorem State.bumpP_host (s : State) (p : Nat) (r : Reg) (n : Nat) : (s.bumpP p r n).host = s.host := rfl
@[simp] theorem State.finish_host (s : State) (st : Status) (l : List Word) : (s.finish st l).host = s.host := rfl
@[simp] theorem State.stat_host (s : State) (st : Status) : (s.stat st).host = s.host := rfl
@[simp] theorem State.nextFree_host (s : State) : (s.nextFree).host = s.host := rfl
@[simp] theorem State.putByte_host (s : State) (a : Nat) (b : Byte) : (s.putByte a b).host = s.host := rfl
@[simp] theorem State.onDst_host (s : State) (f : DstSt → DstSt) : (s.onDst f).host = s.host := rfl
@[simp] theorem State.onInst_host (s : State) (b : Nat) (f : Inst → Inst) : (s.onInst b f).host = s.host := rfl
@[simp] theorem State.onScrub_host (s : State) (f : ScrubSt → ScrubSt) : (s.onScrub f).host = s.host := rfl
@[simp] theorem State.setBank_host (s : State) (b : Nat) (x : BankSt) : (s.setBank b x).host = s.host := rfl
@[simp] theorem State.onSec_host (s : State) (f : SecSt → SecSt) : (s.onSec f).host = s.host := rfl
@[simp] theorem State.setCnt_host (s : State) (k : Nat) (x : ObsCnt) : (s.setCnt k x).host = s.host := rfl
@[simp] theorem State.onLdr_host (s : State) (f : LdrSt → LdrSt) : (s.onLdr f).host = s.host := rfl
@[simp] theorem State.setProbe_host (s : State) (k : Nat) (x : ProbeSt) : (s.setProbe k x).host = s.host := rfl
@[simp] theorem State.onMem_host (s : State) (f : MemSt → MemSt) : (s.onMem f).host = s.host := rfl
@[simp] theorem State.setSense_host (s : State) (k : Nat) (x : SenseSt) : (s.setSense k x).host = s.host := rfl
@[simp] theorem State.onObs_host (s : State) (f : ObsSt → ObsSt) : (s.onObs f).host = s.host := rfl
@[simp] theorem State.setQd_host (s : State) (k : Nat) (x : QdSt) : (s.setQd k x).host = s.host := rfl
@[simp] theorem State.onPins_host (s : State) (f : PinsSt → PinsSt) : (s.onPins f).host = s.host := rfl
@[simp] theorem State.setPlane_host (s : State) (k : Nat) (x : PLane) : (s.setPlane k x).host = s.host := rfl
@[simp] theorem State.onPwr_host (s : State) (f : PwrSt → PwrSt) : (s.onPwr f).host = s.host := rfl
@[simp] theorem State.setHold_host (s : State) (p d : Nat) (x : HoldQ) : (s.setHold p d x).host = s.host := rfl
@[simp] theorem State.onTime_host (s : State) (f : TimeSt → TimeSt) : (s.onTime f).host = s.host := rfl
@[simp] theorem State.setInbox_host (s : State) (k : Nat) (x : List Packet) : (s.setInbox k x).host = s.host := rfl
@[simp] theorem State.onLoad_host (s : State) (f : Load → Load) : (s.onLoad f).host = s.host := rfl
@[simp] theorem State.setAsm_host (s : State) (k : Nat) (x : List Flit) : (s.setAsm k x).host = s.host := rfl
@[simp] theorem State.onFuses_host (s : State) (f : FuseSt → FuseSt) : (s.onFuses f).host = s.host := rfl
@[simp] theorem State.setOutArb_host (s : State) (o : Nat) (x : OutArb) : (s.setOutArb o x).host = s.host := rfl
@[simp] theorem State.setSlot_host (s : State) (n i : Nat) (x : SlotSt) : (s.setSlot n i x).host = s.host := rfl
@[simp] theorem State.setSpool_host (s : State) (n : Nat) (x : SpoolSt) : (s.setSpool n x).host = s.host := rfl
@[simp] theorem State.setExp_host (s : State) (n : Nat) (e : Option ExpSt) : (s.setExp n e).host = s.host := rfl
@[simp] theorem State.onMarks_host (s : State) (n : Nat) (f : NMap (Nat × Tick) → NMap (Nat × Tick)) : (s.onMarks n f).host = s.host := rfl
@[simp] theorem State.setChan_host (s : State) (c : Nat) (x : ChanSt) : (s.setChan c x).host = s.host := rfl
@[simp] theorem State.onLane_host (s : State) (n : Nat) (f : LaneSt → LaneSt) : (s.onLane n f).host = s.host := rfl
@[simp] theorem State.setLane_host (s : State) (n : Nat) (x : LaneSt) : (s.setLane n x).host = s.host := rfl
@[simp] theorem State.setTriple_host (s : State) (i : Nat) (l : List Word) : (s.setTriple i l).host = s.host := rfl
@[simp] theorem State.setPin_host (s : State) (p : Nat) (x : PinSt) : (s.setPin p x).host = s.host := rfl
@[simp] theorem State.onTile_host (s : State) (t : Nat) (f : TileSt → TileSt) : (s.onTile t f).host = s.host := rfl
@[simp] theorem State.setPwm_host (s : State) (c : Nat) (x : PwmSt) : (s.setPwm c x).host = s.host := rfl
@[simp] theorem State.onIfc_host (s : State) (t : Nat) (f : TileIf → TileIf) : (s.onIfc t f).host = s.host := rfl
@[simp] theorem State.setXing_host (s : State) (k : Nat) (x : XingSt) : (s.setXing k x).host = s.host := rfl
@[simp] theorem State.setTileQ_host (s : State) (t q : Nat) (x : HQ (BitVec 36)) : (s.setTileQ t q x).host = s.host := by unfold State.setTileQ; split <;> rfl
@[simp] theorem State.setTile_host (s : State) (t : Nat) (x : TileSt) : (s.setTile t x).host = s.host := rfl
@[simp] theorem State.freshFrame_host (s : State) (f : Nat) : (s.freshFrame f).host = s.host := rfl
@[simp] theorem State.setCfg_host (s : State) (k : Nat) (v : Word) : (s.setCfg k v).host = s.host := rfl

/-! ### `ldr` -/
@[simp] theorem State.setRegP_ldr (s : State) (p : Nat) (r : Reg) (i j : Nat) (v : Word) : (s.setRegP p r i j v).ldr = s.ldr := rfl
@[simp] theorem State.setReg_ldr (s : State) (r : Reg) (i : Nat) (v : Word) : (s.setReg r i v).ldr = s.ldr := rfl
@[simp] theorem State.putFields_ldr (s : State) (p : Nat) (r : Reg) (i j : Nat) (v : Word) : (s.putFields p r i j v).ldr = s.ldr := rfl
@[simp] theorem State.bump_ldr (s : State) (r : Reg) (i n : Nat) : (s.bump r i n).ldr = s.ldr := rfl
@[simp] theorem State.bumpP_ldr (s : State) (p : Nat) (r : Reg) (n : Nat) : (s.bumpP p r n).ldr = s.ldr := rfl
@[simp] theorem State.finish_ldr (s : State) (st : Status) (l : List Word) : (s.finish st l).ldr = s.ldr := rfl
@[simp] theorem State.stat_ldr (s : State) (st : Status) : (s.stat st).ldr = s.ldr := rfl
@[simp] theorem State.nextFree_ldr (s : State) : (s.nextFree).ldr = s.ldr := rfl
@[simp] theorem State.putByte_ldr (s : State) (a : Nat) (b : Byte) : (s.putByte a b).ldr = s.ldr := rfl
@[simp] theorem State.onPort_ldr (s : State) (p : Nat) (f : PortSt → PortSt) : (s.onPort p f).ldr = s.ldr := rfl
@[simp] theorem State.setPort_ldr (s : State) (p : Nat) (x : PortSt) : (s.setPort p x).ldr = s.ldr := rfl
@[simp] theorem State.setMbox_ldr (s : State) (d m : Nat) (x : Mbox) : (s.setMbox d m x).ldr = s.ldr := rfl
@[simp] theorem State.setBatch_ldr (s : State) (p : Nat) (x : BatchSt) : (s.setBatch p x).ldr = s.ldr := rfl
@[simp] theorem State.onDst_ldr (s : State) (f : DstSt → DstSt) : (s.onDst f).ldr = s.ldr := rfl
@[simp] theorem State.onLdr_ldr (s : State) (f : LdrSt → LdrSt) : (s.onLdr f).ldr = f s.ldr := rfl
@[simp] theorem State.onScrub_ldr (s : State) (f : ScrubSt → ScrubSt) : (s.onScrub f).ldr = s.ldr := rfl
@[simp] theorem State.onInst_ldr (s : State) (b : Nat) (f : Inst → Inst) : (s.onInst b f).ldr = s.ldr := rfl
@[simp] theorem State.onSec_ldr (s : State) (f : SecSt → SecSt) : (s.onSec f).ldr = s.ldr := rfl
@[simp] theorem State.setBank_ldr (s : State) (b : Nat) (x : BankSt) : (s.setBank b x).ldr = s.ldr := rfl
@[simp] theorem State.onMem_ldr (s : State) (f : MemSt → MemSt) : (s.onMem f).ldr = s.ldr := rfl
@[simp] theorem State.setCnt_ldr (s : State) (k : Nat) (x : ObsCnt) : (s.setCnt k x).ldr = s.ldr := rfl
@[simp] theorem State.onObs_ldr (s : State) (f : ObsSt → ObsSt) : (s.onObs f).ldr = s.ldr := rfl
@[simp] theorem State.setProbe_ldr (s : State) (k : Nat) (x : ProbeSt) : (s.setProbe k x).ldr = s.ldr := rfl
@[simp] theorem State.onPins_ldr (s : State) (f : PinsSt → PinsSt) : (s.onPins f).ldr = s.ldr := rfl
@[simp] theorem State.setSense_ldr (s : State) (k : Nat) (x : SenseSt) : (s.setSense k x).ldr = s.ldr := rfl
@[simp] theorem State.onPwr_ldr (s : State) (f : PwrSt → PwrSt) : (s.onPwr f).ldr = s.ldr := rfl
@[simp] theorem State.setQd_ldr (s : State) (k : Nat) (x : QdSt) : (s.setQd k x).ldr = s.ldr := rfl
@[simp] theorem State.onTime_ldr (s : State) (f : TimeSt → TimeSt) : (s.onTime f).ldr = s.ldr := rfl
@[simp] theorem State.setPlane_ldr (s : State) (k : Nat) (x : PLane) : (s.setPlane k x).ldr = s.ldr := rfl
@[simp] theorem State.onFuses_ldr (s : State) (f : FuseSt → FuseSt) : (s.onFuses f).ldr = s.ldr := rfl
@[simp] theorem State.setHold_ldr (s : State) (p d : Nat) (x : HoldQ) : (s.setHold p d x).ldr = s.ldr := rfl
@[simp] theorem State.setInbox_ldr (s : State) (k : Nat) (x : List Packet) : (s.setInbox k x).ldr = s.ldr := rfl
@[simp] theorem State.setOutArb_ldr (s : State) (o : Nat) (x : OutArb) : (s.setOutArb o x).ldr = s.ldr := rfl
@[simp] theorem State.setAsm_ldr (s : State) (k : Nat) (x : List Flit) : (s.setAsm k x).ldr = s.ldr := rfl
@[simp] theorem State.setSpool_ldr (s : State) (n : Nat) (x : SpoolSt) : (s.setSpool n x).ldr = s.ldr := rfl
@[simp] theorem State.setSlot_ldr (s : State) (n i : Nat) (x : SlotSt) : (s.setSlot n i x).ldr = s.ldr := rfl
@[simp] theorem State.setExp_ldr (s : State) (n : Nat) (e : Option ExpSt) : (s.setExp n e).ldr = s.ldr := rfl
@[simp] theorem State.onMarks_ldr (s : State) (n : Nat) (f : NMap (Nat × Tick) → NMap (Nat × Tick)) : (s.onMarks n f).ldr = s.ldr := rfl
@[simp] theorem State.setChan_ldr (s : State) (c : Nat) (x : ChanSt) : (s.setChan c x).ldr = s.ldr := rfl
@[simp] theorem State.onLane_ldr (s : State) (n : Nat) (f : LaneSt → LaneSt) : (s.onLane n f).ldr = s.ldr := rfl
@[simp] theorem State.setLane_ldr (s : State) (n : Nat) (x : LaneSt) : (s.setLane n x).ldr = s.ldr := rfl
@[simp] theorem State.setTriple_ldr (s : State) (i : Nat) (l : List Word) : (s.setTriple i l).ldr = s.ldr := rfl
@[simp] theorem State.setPin_ldr (s : State) (p : Nat) (x : PinSt) : (s.setPin p x).ldr = s.ldr := rfl
@[simp] theorem State.onTile_ldr (s : State) (t : Nat) (f : TileSt → TileSt) : (s.onTile t f).ldr = s.ldr := rfl
@[simp] theorem State.setPwm_ldr (s : State) (c : Nat) (x : PwmSt) : (s.setPwm c x).ldr = s.ldr := rfl
@[simp] theorem State.onIfc_ldr (s : State) (t : Nat) (f : TileIf → TileIf) : (s.onIfc t f).ldr = s.ldr := rfl
@[simp] theorem State.setXing_ldr (s : State) (k : Nat) (x : XingSt) : (s.setXing k x).ldr = s.ldr := rfl
@[simp] theorem State.setTileQ_ldr (s : State) (t q : Nat) (x : HQ (BitVec 36)) : (s.setTileQ t q x).ldr = s.ldr := by unfold State.setTileQ; split <;> rfl
@[simp] theorem State.setTile_ldr (s : State) (t : Nat) (x : TileSt) : (s.setTile t x).ldr = s.ldr := rfl
@[simp] theorem State.freshFrame_ldr (s : State) (f : Nat) : (s.freshFrame f).ldr = s.ldr := rfl
@[simp] theorem State.setCfg_ldr (s : State) (k : Nat) (v : Word) : (s.setCfg k v).ldr = s.ldr := rfl

/-! ### `scrub` -/
@[simp] theorem State.setRegP_scrub (s : State) (p : Nat) (r : Reg) (i j : Nat) (v : Word) : (s.setRegP p r i j v).scrub = s.scrub := rfl
@[simp] theorem State.setReg_scrub (s : State) (r : Reg) (i : Nat) (v : Word) : (s.setReg r i v).scrub = s.scrub := rfl
@[simp] theorem State.putFields_scrub (s : State) (p : Nat) (r : Reg) (i j : Nat) (v : Word) : (s.putFields p r i j v).scrub = s.scrub := rfl
@[simp] theorem State.bump_scrub (s : State) (r : Reg) (i n : Nat) : (s.bump r i n).scrub = s.scrub := rfl
@[simp] theorem State.bumpP_scrub (s : State) (p : Nat) (r : Reg) (n : Nat) : (s.bumpP p r n).scrub = s.scrub := rfl
@[simp] theorem State.finish_scrub (s : State) (st : Status) (l : List Word) : (s.finish st l).scrub = s.scrub := rfl
@[simp] theorem State.stat_scrub (s : State) (st : Status) : (s.stat st).scrub = s.scrub := rfl
@[simp] theorem State.nextFree_scrub (s : State) : (s.nextFree).scrub = s.scrub := rfl
@[simp] theorem State.putByte_scrub (s : State) (a : Nat) (b : Byte) : (s.putByte a b).scrub = s.scrub := rfl
@[simp] theorem State.onPort_scrub (s : State) (p : Nat) (f : PortSt → PortSt) : (s.onPort p f).scrub = s.scrub := rfl
@[simp] theorem State.setPort_scrub (s : State) (p : Nat) (x : PortSt) : (s.setPort p x).scrub = s.scrub := rfl
@[simp] theorem State.setMbox_scrub (s : State) (d m : Nat) (x : Mbox) : (s.setMbox d m x).scrub = s.scrub := rfl
@[simp] theorem State.setBatch_scrub (s : State) (p : Nat) (x : BatchSt) : (s.setBatch p x).scrub = s.scrub := rfl
@[simp] theorem State.onDst_scrub (s : State) (f : DstSt → DstSt) : (s.onDst f).scrub = s.scrub := rfl
@[simp] theorem State.onScrub_scrub (s : State) (f : ScrubSt → ScrubSt) : (s.onScrub f).scrub = f s.scrub := rfl
@[simp] theorem State.onSec_scrub (s : State) (f : SecSt → SecSt) : (s.onSec f).scrub = s.scrub := rfl
@[simp] theorem State.onInst_scrub (s : State) (b : Nat) (f : Inst → Inst) : (s.onInst b f).scrub = s.scrub := rfl
@[simp] theorem State.onLdr_scrub (s : State) (f : LdrSt → LdrSt) : (s.onLdr f).scrub = s.scrub := rfl
@[simp] theorem State.setBank_scrub (s : State) (b : Nat) (x : BankSt) : (s.setBank b x).scrub = s.scrub := rfl
@[simp] theorem State.onMem_scrub (s : State) (f : MemSt → MemSt) : (s.onMem f).scrub = s.scrub := rfl
@[simp] theorem State.setCnt_scrub (s : State) (k : Nat) (x : ObsCnt) : (s.setCnt k x).scrub = s.scrub := rfl
@[simp] theorem State.onObs_scrub (s : State) (f : ObsSt → ObsSt) : (s.onObs f).scrub = s.scrub := rfl
@[simp] theorem State.setProbe_scrub (s : State) (k : Nat) (x : ProbeSt) : (s.setProbe k x).scrub = s.scrub := rfl
@[simp] theorem State.onPins_scrub (s : State) (f : PinsSt → PinsSt) : (s.onPins f).scrub = s.scrub := rfl
@[simp] theorem State.setSense_scrub (s : State) (k : Nat) (x : SenseSt) : (s.setSense k x).scrub = s.scrub := rfl
@[simp] theorem State.onPwr_scrub (s : State) (f : PwrSt → PwrSt) : (s.onPwr f).scrub = s.scrub := rfl
@[simp] theorem State.setQd_scrub (s : State) (k : Nat) (x : QdSt) : (s.setQd k x).scrub = s.scrub := rfl
@[simp] theorem State.onTime_scrub (s : State) (f : TimeSt → TimeSt) : (s.onTime f).scrub = s.scrub := rfl
@[simp] theorem State.setPlane_scrub (s : State) (k : Nat) (x : PLane) : (s.setPlane k x).scrub = s.scrub := rfl
@[simp] theorem State.onLoad_scrub (s : State) (f : Load → Load) : (s.onLoad f).scrub = s.scrub := rfl
@[simp] theorem State.setHold_scrub (s : State) (p d : Nat) (x : HoldQ) : (s.setHold p d x).scrub = s.scrub := rfl
@[simp] theorem State.onFuses_scrub (s : State) (f : FuseSt → FuseSt) : (s.onFuses f).scrub = s.scrub := rfl
@[simp] theorem State.setInbox_scrub (s : State) (k : Nat) (x : List Packet) : (s.setInbox k x).scrub = s.scrub := rfl
@[simp] theorem State.setOutArb_scrub (s : State) (o : Nat) (x : OutArb) : (s.setOutArb o x).scrub = s.scrub := rfl
@[simp] theorem State.setAsm_scrub (s : State) (k : Nat) (x : List Flit) : (s.setAsm k x).scrub = s.scrub := rfl
@[simp] theorem State.setSpool_scrub (s : State) (n : Nat) (x : SpoolSt) : (s.setSpool n x).scrub = s.scrub := rfl
@[simp] theorem State.setSlot_scrub (s : State) (n i : Nat) (x : SlotSt) : (s.setSlot n i x).scrub = s.scrub := rfl
@[simp] theorem State.setExp_scrub (s : State) (n : Nat) (e : Option ExpSt) : (s.setExp n e).scrub = s.scrub := rfl
@[simp] theorem State.onMarks_scrub (s : State) (n : Nat) (f : NMap (Nat × Tick) → NMap (Nat × Tick)) : (s.onMarks n f).scrub = s.scrub := rfl
@[simp] theorem State.setChan_scrub (s : State) (c : Nat) (x : ChanSt) : (s.setChan c x).scrub = s.scrub := rfl
@[simp] theorem State.onLane_scrub (s : State) (n : Nat) (f : LaneSt → LaneSt) : (s.onLane n f).scrub = s.scrub := rfl
@[simp] theorem State.setLane_scrub (s : State) (n : Nat) (x : LaneSt) : (s.setLane n x).scrub = s.scrub := rfl
@[simp] theorem State.onTile_scrub (s : State) (t : Nat) (f : TileSt → TileSt) : (s.onTile t f).scrub = s.scrub := rfl
@[simp] theorem State.setPin_scrub (s : State) (p : Nat) (x : PinSt) : (s.setPin p x).scrub = s.scrub := rfl
@[simp] theorem State.onIfc_scrub (s : State) (t : Nat) (f : TileIf → TileIf) : (s.onIfc t f).scrub = s.scrub := rfl
@[simp] theorem State.setPwm_scrub (s : State) (c : Nat) (x : PwmSt) : (s.setPwm c x).scrub = s.scrub := rfl
@[simp] theorem State.setTileQ_scrub (s : State) (t q : Nat) (x : HQ (BitVec 36)) : (s.setTileQ t q x).scrub = s.scrub := by unfold State.setTileQ; split <;> rfl
@[simp] theorem State.setXing_scrub (s : State) (k : Nat) (x : XingSt) : (s.setXing k x).scrub = s.scrub := rfl
@[simp] theorem State.freshFrame_scrub (s : State) (f : Nat) : (s.freshFrame f).scrub = s.scrub := rfl
@[simp] theorem State.setTile_scrub (s : State) (t : Nat) (x : TileSt) : (s.setTile t x).scrub = s.scrub := rfl
@[simp] theorem State.setCfg_scrub (s : State) (k : Nat) (v : Word) : (s.setCfg k v).scrub = s.scrub := rfl

/-! ### `sec` -/
@[simp] theorem State.setRegP_sec (s : State) (p : Nat) (r : Reg) (i j : Nat) (v : Word) : (s.setRegP p r i j v).sec = s.sec := rfl
@[simp] theorem State.setReg_sec (s : State) (r : Reg) (i : Nat) (v : Word) : (s.setReg r i v).sec = s.sec := rfl
@[simp] theorem State.putFields_sec (s : State) (p : Nat) (r : Reg) (i j : Nat) (v : Word) : (s.putFields p r i j v).sec = s.sec := rfl
@[simp] theorem State.bump_sec (s : State) (r : Reg) (i n : Nat) : (s.bump r i n).sec = s.sec := rfl
@[simp] theorem State.bumpP_sec (s : State) (p : Nat) (r : Reg) (n : Nat) : (s.bumpP p r n).sec = s.sec := rfl
@[simp] theorem State.finish_sec (s : State) (st : Status) (l : List Word) : (s.finish st l).sec = s.sec := rfl
@[simp] theorem State.stat_sec (s : State) (st : Status) : (s.stat st).sec = s.sec := rfl
@[simp] theorem State.nextFree_sec (s : State) : (s.nextFree).sec = s.sec := rfl
@[simp] theorem State.putByte_sec (s : State) (a : Nat) (b : Byte) : (s.putByte a b).sec = s.sec := rfl
@[simp] theorem State.onPort_sec (s : State) (p : Nat) (f : PortSt → PortSt) : (s.onPort p f).sec = s.sec := rfl
@[simp] theorem State.setPort_sec (s : State) (p : Nat) (x : PortSt) : (s.setPort p x).sec = s.sec := rfl
@[simp] theorem State.setMbox_sec (s : State) (d m : Nat) (x : Mbox) : (s.setMbox d m x).sec = s.sec := rfl
@[simp] theorem State.setBatch_sec (s : State) (p : Nat) (x : BatchSt) : (s.setBatch p x).sec = s.sec := rfl
@[simp] theorem State.onDst_sec (s : State) (f : DstSt → DstSt) : (s.onDst f).sec = s.sec := rfl
@[simp] theorem State.onSec_sec (s : State) (f : SecSt → SecSt) : (s.onSec f).sec = f s.sec := rfl
@[simp] theorem State.onScrub_sec (s : State) (f : ScrubSt → ScrubSt) : (s.onScrub f).sec = s.sec := rfl
@[simp] theorem State.onInst_sec (s : State) (b : Nat) (f : Inst → Inst) : (s.onInst b f).sec = s.sec := rfl
@[simp] theorem State.onLdr_sec (s : State) (f : LdrSt → LdrSt) : (s.onLdr f).sec = s.sec := rfl
@[simp] theorem State.setBank_sec (s : State) (b : Nat) (x : BankSt) : (s.setBank b x).sec = s.sec := rfl
@[simp] theorem State.onMem_sec (s : State) (f : MemSt → MemSt) : (s.onMem f).sec = s.sec := rfl
@[simp] theorem State.setCnt_sec (s : State) (k : Nat) (x : ObsCnt) : (s.setCnt k x).sec = s.sec := rfl
@[simp] theorem State.onObs_sec (s : State) (f : ObsSt → ObsSt) : (s.onObs f).sec = s.sec := rfl
@[simp] theorem State.setProbe_sec (s : State) (k : Nat) (x : ProbeSt) : (s.setProbe k x).sec = s.sec := rfl
@[simp] theorem State.onPins_sec (s : State) (f : PinsSt → PinsSt) : (s.onPins f).sec = s.sec := rfl
@[simp] theorem State.setSense_sec (s : State) (k : Nat) (x : SenseSt) : (s.setSense k x).sec = s.sec := rfl
@[simp] theorem State.onPwr_sec (s : State) (f : PwrSt → PwrSt) : (s.onPwr f).sec = s.sec := rfl
@[simp] theorem State.setQd_sec (s : State) (k : Nat) (x : QdSt) : (s.setQd k x).sec = s.sec := rfl
@[simp] theorem State.onTime_sec (s : State) (f : TimeSt → TimeSt) : (s.onTime f).sec = s.sec := rfl
@[simp] theorem State.setPlane_sec (s : State) (k : Nat) (x : PLane) : (s.setPlane k x).sec = s.sec := rfl
@[simp] theorem State.onLoad_sec (s : State) (f : Load → Load) : (s.onLoad f).sec = s.sec := rfl
@[simp] theorem State.setHold_sec (s : State) (p d : Nat) (x : HoldQ) : (s.setHold p d x).sec = s.sec := rfl
@[simp] theorem State.setInbox_sec (s : State) (k : Nat) (x : List Packet) : (s.setInbox k x).sec = s.sec := rfl
@[simp] theorem State.setOutArb_sec (s : State) (o : Nat) (x : OutArb) : (s.setOutArb o x).sec = s.sec := rfl
@[simp] theorem State.setAsm_sec (s : State) (k : Nat) (x : List Flit) : (s.setAsm k x).sec = s.sec := rfl
@[simp] theorem State.setSpool_sec (s : State) (n : Nat) (x : SpoolSt) : (s.setSpool n x).sec = s.sec := rfl
@[simp] theorem State.setSlot_sec (s : State) (n i : Nat) (x : SlotSt) : (s.setSlot n i x).sec = s.sec := rfl
@[simp] theorem State.setExp_sec (s : State) (n : Nat) (e : Option ExpSt) : (s.setExp n e).sec = s.sec := rfl
@[simp] theorem State.onMarks_sec (s : State) (n : Nat) (f : NMap (Nat × Tick) → NMap (Nat × Tick)) : (s.onMarks n f).sec = s.sec := rfl
@[simp] theorem State.setChan_sec (s : State) (c : Nat) (x : ChanSt) : (s.setChan c x).sec = s.sec := rfl
@[simp] theorem State.onLane_sec (s : State) (n : Nat) (f : LaneSt → LaneSt) : (s.onLane n f).sec = s.sec := rfl
@[simp] theorem State.setLane_sec (s : State) (n : Nat) (x : LaneSt) : (s.setLane n x).sec = s.sec := rfl
@[simp] theorem State.setTriple_sec (s : State) (i : Nat) (l : List Word) : (s.setTriple i l).sec = s.sec := rfl
@[simp] theorem State.setPin_sec (s : State) (p : Nat) (x : PinSt) : (s.setPin p x).sec = s.sec := rfl
@[simp] theorem State.onTile_sec (s : State) (t : Nat) (f : TileSt → TileSt) : (s.onTile t f).sec = s.sec := rfl
@[simp] theorem State.setPwm_sec (s : State) (c : Nat) (x : PwmSt) : (s.setPwm c x).sec = s.sec := rfl
@[simp] theorem State.onIfc_sec (s : State) (t : Nat) (f : TileIf → TileIf) : (s.onIfc t f).sec = s.sec := rfl
@[simp] theorem State.setXing_sec (s : State) (k : Nat) (x : XingSt) : (s.setXing k x).sec = s.sec := rfl
@[simp] theorem State.setTileQ_sec (s : State) (t q : Nat) (x : HQ (BitVec 36)) : (s.setTileQ t q x).sec = s.sec := by unfold State.setTileQ; split <;> rfl
@[simp] theorem State.setTile_sec (s : State) (t : Nat) (x : TileSt) : (s.setTile t x).sec = s.sec := rfl
@[simp] theorem State.freshFrame_sec (s : State) (f : Nat) : (s.freshFrame f).sec = s.sec := rfl
@[simp] theorem State.setCfg_sec (s : State) (k : Nat) (v : Word) : (s.setCfg k v).sec = s.sec := rfl

/-! ### `pwr` -/
@[simp] theorem State.setRegP_pwr (s : State) (p : Nat) (r : Reg) (i j : Nat) (v : Word) : (s.setRegP p r i j v).pwr = s.pwr := rfl
@[simp] theorem State.setReg_pwr (s : State) (r : Reg) (i : Nat) (v : Word) : (s.setReg r i v).pwr = s.pwr := rfl
@[simp] theorem State.putFields_pwr (s : State) (p : Nat) (r : Reg) (i j : Nat) (v : Word) : (s.putFields p r i j v).pwr = s.pwr := rfl
@[simp] theorem State.bump_pwr (s : State) (r : Reg) (i n : Nat) : (s.bump r i n).pwr = s.pwr := rfl
@[simp] theorem State.bumpP_pwr (s : State) (p : Nat) (r : Reg) (n : Nat) : (s.bumpP p r n).pwr = s.pwr := rfl
@[simp] theorem State.finish_pwr (s : State) (st : Status) (l : List Word) : (s.finish st l).pwr = s.pwr := rfl
@[simp] theorem State.stat_pwr (s : State) (st : Status) : (s.stat st).pwr = s.pwr := rfl
@[simp] theorem State.nextFree_pwr (s : State) : (s.nextFree).pwr = s.pwr := rfl
@[simp] theorem State.putByte_pwr (s : State) (a : Nat) (b : Byte) : (s.putByte a b).pwr = s.pwr := rfl
@[simp] theorem State.onPort_pwr (s : State) (p : Nat) (f : PortSt → PortSt) : (s.onPort p f).pwr = s.pwr := rfl
@[simp] theorem State.setPort_pwr (s : State) (p : Nat) (x : PortSt) : (s.setPort p x).pwr = s.pwr := rfl
@[simp] theorem State.setMbox_pwr (s : State) (d m : Nat) (x : Mbox) : (s.setMbox d m x).pwr = s.pwr := rfl
@[simp] theorem State.setBatch_pwr (s : State) (p : Nat) (x : BatchSt) : (s.setBatch p x).pwr = s.pwr := rfl
@[simp] theorem State.onDst_pwr (s : State) (f : DstSt → DstSt) : (s.onDst f).pwr = s.pwr := rfl
@[simp] theorem State.onPwr_pwr (s : State) (f : PwrSt → PwrSt) : (s.onPwr f).pwr = f s.pwr := rfl
@[simp] theorem State.onScrub_pwr (s : State) (f : ScrubSt → ScrubSt) : (s.onScrub f).pwr = s.pwr := rfl
@[simp] theorem State.onInst_pwr (s : State) (b : Nat) (f : Inst → Inst) : (s.onInst b f).pwr = s.pwr := rfl
@[simp] theorem State.onSec_pwr (s : State) (f : SecSt → SecSt) : (s.onSec f).pwr = s.pwr := rfl
@[simp] theorem State.setBank_pwr (s : State) (b : Nat) (x : BankSt) : (s.setBank b x).pwr = s.pwr := rfl
@[simp] theorem State.onLdr_pwr (s : State) (f : LdrSt → LdrSt) : (s.onLdr f).pwr = s.pwr := rfl
@[simp] theorem State.setCnt_pwr (s : State) (k : Nat) (x : ObsCnt) : (s.setCnt k x).pwr = s.pwr := rfl
@[simp] theorem State.onMem_pwr (s : State) (f : MemSt → MemSt) : (s.onMem f).pwr = s.pwr := rfl
@[simp] theorem State.setProbe_pwr (s : State) (k : Nat) (x : ProbeSt) : (s.setProbe k x).pwr = s.pwr := rfl
@[simp] theorem State.onObs_pwr (s : State) (f : ObsSt → ObsSt) : (s.onObs f).pwr = s.pwr := rfl
@[simp] theorem State.setSense_pwr (s : State) (k : Nat) (x : SenseSt) : (s.setSense k x).pwr = s.pwr := rfl
@[simp] theorem State.onPins_pwr (s : State) (f : PinsSt → PinsSt) : (s.onPins f).pwr = s.pwr := rfl
@[simp] theorem State.setQd_pwr (s : State) (k : Nat) (x : QdSt) : (s.setQd k x).pwr = s.pwr := rfl
@[simp] theorem State.onTime_pwr (s : State) (f : TimeSt → TimeSt) : (s.onTime f).pwr = s.pwr := rfl
@[simp] theorem State.setPlane_pwr (s : State) (k : Nat) (x : PLane) : (s.setPlane k x).pwr = s.pwr := rfl
@[simp] theorem State.onLoad_pwr (s : State) (f : Load → Load) : (s.onLoad f).pwr = s.pwr := rfl
@[simp] theorem State.setHold_pwr (s : State) (p d : Nat) (x : HoldQ) : (s.setHold p d x).pwr = s.pwr := rfl
@[simp] theorem State.onFuses_pwr (s : State) (f : FuseSt → FuseSt) : (s.onFuses f).pwr = s.pwr := rfl
@[simp] theorem State.setInbox_pwr (s : State) (k : Nat) (x : List Packet) : (s.setInbox k x).pwr = s.pwr := rfl
@[simp] theorem State.setOutArb_pwr (s : State) (o : Nat) (x : OutArb) : (s.setOutArb o x).pwr = s.pwr := rfl
@[simp] theorem State.setAsm_pwr (s : State) (k : Nat) (x : List Flit) : (s.setAsm k x).pwr = s.pwr := rfl
@[simp] theorem State.setSpool_pwr (s : State) (n : Nat) (x : SpoolSt) : (s.setSpool n x).pwr = s.pwr := rfl
@[simp] theorem State.setSlot_pwr (s : State) (n i : Nat) (x : SlotSt) : (s.setSlot n i x).pwr = s.pwr := rfl
@[simp] theorem State.setExp_pwr (s : State) (n : Nat) (e : Option ExpSt) : (s.setExp n e).pwr = s.pwr := rfl
@[simp] theorem State.onMarks_pwr (s : State) (n : Nat) (f : NMap (Nat × Tick) → NMap (Nat × Tick)) : (s.onMarks n f).pwr = s.pwr := rfl
@[simp] theorem State.setChan_pwr (s : State) (c : Nat) (x : ChanSt) : (s.setChan c x).pwr = s.pwr := rfl
@[simp] theorem State.onLane_pwr (s : State) (n : Nat) (f : LaneSt → LaneSt) : (s.onLane n f).pwr = s.pwr := rfl
@[simp] theorem State.setLane_pwr (s : State) (n : Nat) (x : LaneSt) : (s.setLane n x).pwr = s.pwr := rfl
@[simp] theorem State.setTriple_pwr (s : State) (i : Nat) (l : List Word) : (s.setTriple i l).pwr = s.pwr := rfl
@[simp] theorem State.setPin_pwr (s : State) (p : Nat) (x : PinSt) : (s.setPin p x).pwr = s.pwr := rfl
@[simp] theorem State.onTile_pwr (s : State) (t : Nat) (f : TileSt → TileSt) : (s.onTile t f).pwr = s.pwr := rfl
@[simp] theorem State.setPwm_pwr (s : State) (c : Nat) (x : PwmSt) : (s.setPwm c x).pwr = s.pwr := rfl
@[simp] theorem State.onIfc_pwr (s : State) (t : Nat) (f : TileIf → TileIf) : (s.onIfc t f).pwr = s.pwr := rfl
@[simp] theorem State.setXing_pwr (s : State) (k : Nat) (x : XingSt) : (s.setXing k x).pwr = s.pwr := rfl
@[simp] theorem State.setTileQ_pwr (s : State) (t q : Nat) (x : HQ (BitVec 36)) : (s.setTileQ t q x).pwr = s.pwr := by unfold State.setTileQ; split <;> rfl
@[simp] theorem State.setTile_pwr (s : State) (t : Nat) (x : TileSt) : (s.setTile t x).pwr = s.pwr := rfl
@[simp] theorem State.freshFrame_pwr (s : State) (f : Nat) : (s.freshFrame f).pwr = s.pwr := rfl
@[simp] theorem State.setCfg_pwr (s : State) (k : Nat) (v : Word) : (s.setCfg k v).pwr = s.pwr := rfl

/-! ### `obs` -/
@[simp] theorem State.setRegP_obs (s : State) (p : Nat) (r : Reg) (i j : Nat) (v : Word) : (s.setRegP p r i j v).obs = s.obs := rfl
@[simp] theorem State.setReg_obs (s : State) (r : Reg) (i : Nat) (v : Word) : (s.setReg r i v).obs = s.obs := rfl
@[simp] theorem State.putFields_obs (s : State) (p : Nat) (r : Reg) (i j : Nat) (v : Word) : (s.putFields p r i j v).obs = s.obs := rfl
@[simp] theorem State.bump_obs (s : State) (r : Reg) (i n : Nat) : (s.bump r i n).obs = s.obs := rfl
@[simp] theorem State.bumpP_obs (s : State) (p : Nat) (r : Reg) (n : Nat) : (s.bumpP p r n).obs = s.obs := rfl
@[simp] theorem State.finish_obs (s : State) (st : Status) (l : List Word) : (s.finish st l).obs = s.obs := rfl
@[simp] theorem State.stat_obs (s : State) (st : Status) : (s.stat st).obs = s.obs := rfl
@[simp] theorem State.nextFree_obs (s : State) : (s.nextFree).obs = s.obs := rfl
@[simp] theorem State.putByte_obs (s : State) (a : Nat) (b : Byte) : (s.putByte a b).obs = s.obs := rfl
@[simp] theorem State.onPort_obs (s : State) (p : Nat) (f : PortSt → PortSt) : (s.onPort p f).obs = s.obs := rfl
@[simp] theorem State.setPort_obs (s : State) (p : Nat) (x : PortSt) : (s.setPort p x).obs = s.obs := rfl
@[simp] theorem State.setMbox_obs (s : State) (d m : Nat) (x : Mbox) : (s.setMbox d m x).obs = s.obs := rfl
@[simp] theorem State.setBatch_obs (s : State) (p : Nat) (x : BatchSt) : (s.setBatch p x).obs = s.obs := rfl
@[simp] theorem State.onDst_obs (s : State) (f : DstSt → DstSt) : (s.onDst f).obs = s.obs := rfl
@[simp] theorem State.onObs_obs (s : State) (f : ObsSt → ObsSt) : (s.onObs f).obs = f s.obs := rfl
@[simp] theorem State.onScrub_obs (s : State) (f : ScrubSt → ScrubSt) : (s.onScrub f).obs = s.obs := rfl
@[simp] theorem State.onInst_obs (s : State) (b : Nat) (f : Inst → Inst) : (s.onInst b f).obs = s.obs := rfl
@[simp] theorem State.onSec_obs (s : State) (f : SecSt → SecSt) : (s.onSec f).obs = s.obs := rfl
@[simp] theorem State.setBank_obs (s : State) (b : Nat) (x : BankSt) : (s.setBank b x).obs = s.obs := rfl
@[simp] theorem State.onLdr_obs (s : State) (f : LdrSt → LdrSt) : (s.onLdr f).obs = s.obs := rfl
@[simp] theorem State.setSense_obs (s : State) (k : Nat) (x : SenseSt) : (s.setSense k x).obs = s.obs := rfl
@[simp] theorem State.onMem_obs (s : State) (f : MemSt → MemSt) : (s.onMem f).obs = s.obs := rfl
@[simp] theorem State.setQd_obs (s : State) (k : Nat) (x : QdSt) : (s.setQd k x).obs = s.obs := rfl
@[simp] theorem State.onPins_obs (s : State) (f : PinsSt → PinsSt) : (s.onPins f).obs = s.obs := rfl
@[simp] theorem State.setPlane_obs (s : State) (k : Nat) (x : PLane) : (s.setPlane k x).obs = s.obs := rfl
@[simp] theorem State.onPwr_obs (s : State) (f : PwrSt → PwrSt) : (s.onPwr f).obs = s.obs := rfl
@[simp] theorem State.setHold_obs (s : State) (p d : Nat) (x : HoldQ) : (s.setHold p d x).obs = s.obs := rfl
@[simp] theorem State.onTime_obs (s : State) (f : TimeSt → TimeSt) : (s.onTime f).obs = s.obs := rfl
@[simp] theorem State.setInbox_obs (s : State) (k : Nat) (x : List Packet) : (s.setInbox k x).obs = s.obs := rfl
@[simp] theorem State.onLoad_obs (s : State) (f : Load → Load) : (s.onLoad f).obs = s.obs := rfl
@[simp] theorem State.setAsm_obs (s : State) (k : Nat) (x : List Flit) : (s.setAsm k x).obs = s.obs := rfl
@[simp] theorem State.onFuses_obs (s : State) (f : FuseSt → FuseSt) : (s.onFuses f).obs = s.obs := rfl
@[simp] theorem State.setOutArb_obs (s : State) (o : Nat) (x : OutArb) : (s.setOutArb o x).obs = s.obs := rfl
@[simp] theorem State.setSlot_obs (s : State) (n i : Nat) (x : SlotSt) : (s.setSlot n i x).obs = s.obs := rfl
@[simp] theorem State.setSpool_obs (s : State) (n : Nat) (x : SpoolSt) : (s.setSpool n x).obs = s.obs := rfl
@[simp] theorem State.setExp_obs (s : State) (n : Nat) (e : Option ExpSt) : (s.setExp n e).obs = s.obs := rfl
@[simp] theorem State.onMarks_obs (s : State) (n : Nat) (f : NMap (Nat × Tick) → NMap (Nat × Tick)) : (s.onMarks n f).obs = s.obs := rfl
@[simp] theorem State.setChan_obs (s : State) (c : Nat) (x : ChanSt) : (s.setChan c x).obs = s.obs := rfl
@[simp] theorem State.onLane_obs (s : State) (n : Nat) (f : LaneSt → LaneSt) : (s.onLane n f).obs = s.obs := rfl
@[simp] theorem State.setLane_obs (s : State) (n : Nat) (x : LaneSt) : (s.setLane n x).obs = s.obs := rfl
@[simp] theorem State.setTriple_obs (s : State) (i : Nat) (l : List Word) : (s.setTriple i l).obs = s.obs := rfl
@[simp] theorem State.setPin_obs (s : State) (p : Nat) (x : PinSt) : (s.setPin p x).obs = s.obs := rfl
@[simp] theorem State.onTile_obs (s : State) (t : Nat) (f : TileSt → TileSt) : (s.onTile t f).obs = s.obs := rfl
@[simp] theorem State.setPwm_obs (s : State) (c : Nat) (x : PwmSt) : (s.setPwm c x).obs = s.obs := rfl
@[simp] theorem State.onIfc_obs (s : State) (t : Nat) (f : TileIf → TileIf) : (s.onIfc t f).obs = s.obs := rfl
@[simp] theorem State.setXing_obs (s : State) (k : Nat) (x : XingSt) : (s.setXing k x).obs = s.obs := rfl
@[simp] theorem State.setTileQ_obs (s : State) (t q : Nat) (x : HQ (BitVec 36)) : (s.setTileQ t q x).obs = s.obs := by unfold State.setTileQ; split <;> rfl
@[simp] theorem State.setTile_obs (s : State) (t : Nat) (x : TileSt) : (s.setTile t x).obs = s.obs := rfl
@[simp] theorem State.freshFrame_obs (s : State) (f : Nat) : (s.freshFrame f).obs = s.obs := rfl
@[simp] theorem State.setCfg_obs (s : State) (k : Nat) (v : Word) : (s.setCfg k v).obs = s.obs := rfl

/-! ### `ntf` -/
@[simp] theorem State.setRegP_ntf (s : State) (p : Nat) (r : Reg) (i j : Nat) (v : Word) : (s.setRegP p r i j v).ntf = s.ntf := rfl
@[simp] theorem State.setReg_ntf (s : State) (r : Reg) (i : Nat) (v : Word) : (s.setReg r i v).ntf = s.ntf := rfl
@[simp] theorem State.putFields_ntf (s : State) (p : Nat) (r : Reg) (i j : Nat) (v : Word) : (s.putFields p r i j v).ntf = s.ntf := rfl
@[simp] theorem State.bump_ntf (s : State) (r : Reg) (i n : Nat) : (s.bump r i n).ntf = s.ntf := rfl
@[simp] theorem State.bumpP_ntf (s : State) (p : Nat) (r : Reg) (n : Nat) : (s.bumpP p r n).ntf = s.ntf := rfl
@[simp] theorem State.finish_ntf (s : State) (st : Status) (l : List Word) : (s.finish st l).ntf = s.ntf := rfl
@[simp] theorem State.stat_ntf (s : State) (st : Status) : (s.stat st).ntf = s.ntf := rfl
@[simp] theorem State.nextFree_ntf (s : State) : (s.nextFree).ntf = s.ntf := rfl
@[simp] theorem State.putByte_ntf (s : State) (a : Nat) (b : Byte) : (s.putByte a b).ntf = s.ntf := rfl
@[simp] theorem State.onPort_ntf (s : State) (p : Nat) (f : PortSt → PortSt) : (s.onPort p f).ntf = s.ntf := rfl
@[simp] theorem State.setPort_ntf (s : State) (p : Nat) (x : PortSt) : (s.setPort p x).ntf = s.ntf := rfl
@[simp] theorem State.setMbox_ntf (s : State) (d m : Nat) (x : Mbox) : (s.setMbox d m x).ntf = s.ntf := rfl
@[simp] theorem State.setBatch_ntf (s : State) (p : Nat) (x : BatchSt) : (s.setBatch p x).ntf = s.ntf := rfl
@[simp] theorem State.onDst_ntf (s : State) (f : DstSt → DstSt) : (s.onDst f).ntf = s.ntf := rfl
@[simp] theorem State.onInst_ntf (s : State) (b : Nat) (f : Inst → Inst) : (s.onInst b f).ntf = s.ntf := rfl
@[simp] theorem State.onScrub_ntf (s : State) (f : ScrubSt → ScrubSt) : (s.onScrub f).ntf = s.ntf := rfl
@[simp] theorem State.setBank_ntf (s : State) (b : Nat) (x : BankSt) : (s.setBank b x).ntf = s.ntf := rfl
@[simp] theorem State.onSec_ntf (s : State) (f : SecSt → SecSt) : (s.onSec f).ntf = s.ntf := rfl
@[simp] theorem State.setCnt_ntf (s : State) (k : Nat) (x : ObsCnt) : (s.setCnt k x).ntf = s.ntf := rfl
@[simp] theorem State.onLdr_ntf (s : State) (f : LdrSt → LdrSt) : (s.onLdr f).ntf = s.ntf := rfl
@[simp] theorem State.setProbe_ntf (s : State) (k : Nat) (x : ProbeSt) : (s.setProbe k x).ntf = s.ntf := rfl
@[simp] theorem State.onMem_ntf (s : State) (f : MemSt → MemSt) : (s.onMem f).ntf = s.ntf := rfl
@[simp] theorem State.setSense_ntf (s : State) (k : Nat) (x : SenseSt) : (s.setSense k x).ntf = s.ntf := rfl
@[simp] theorem State.onObs_ntf (s : State) (f : ObsSt → ObsSt) : (s.onObs f).ntf = s.ntf := rfl
@[simp] theorem State.setQd_ntf (s : State) (k : Nat) (x : QdSt) : (s.setQd k x).ntf = s.ntf := rfl
@[simp] theorem State.onPins_ntf (s : State) (f : PinsSt → PinsSt) : (s.onPins f).ntf = s.ntf := rfl
@[simp] theorem State.setPlane_ntf (s : State) (k : Nat) (x : PLane) : (s.setPlane k x).ntf = s.ntf := rfl
@[simp] theorem State.onPwr_ntf (s : State) (f : PwrSt → PwrSt) : (s.onPwr f).ntf = s.ntf := rfl
@[simp] theorem State.setHold_ntf (s : State) (p d : Nat) (x : HoldQ) : (s.setHold p d x).ntf = s.ntf := rfl
@[simp] theorem State.onTime_ntf (s : State) (f : TimeSt → TimeSt) : (s.onTime f).ntf = s.ntf := rfl
@[simp] theorem State.setInbox_ntf (s : State) (k : Nat) (x : List Packet) : (s.setInbox k x).ntf = s.ntf := rfl
@[simp] theorem State.onLoad_ntf (s : State) (f : Load → Load) : (s.onLoad f).ntf = s.ntf := rfl
@[simp] theorem State.setAsm_ntf (s : State) (k : Nat) (x : List Flit) : (s.setAsm k x).ntf = s.ntf := rfl
@[simp] theorem State.onFuses_ntf (s : State) (f : FuseSt → FuseSt) : (s.onFuses f).ntf = s.ntf := rfl
@[simp] theorem State.setOutArb_ntf (s : State) (o : Nat) (x : OutArb) : (s.setOutArb o x).ntf = s.ntf := rfl
@[simp] theorem State.setSlot_ntf (s : State) (n i : Nat) (x : SlotSt) : (s.setSlot n i x).ntf = s.ntf := rfl
@[simp] theorem State.setSpool_ntf (s : State) (n : Nat) (x : SpoolSt) : (s.setSpool n x).ntf = s.ntf := rfl
@[simp] theorem State.setExp_ntf (s : State) (n : Nat) (e : Option ExpSt) : (s.setExp n e).ntf = s.ntf := rfl
@[simp] theorem State.onMarks_ntf (s : State) (n : Nat) (f : NMap (Nat × Tick) → NMap (Nat × Tick)) : (s.onMarks n f).ntf = s.ntf := rfl
@[simp] theorem State.setChan_ntf (s : State) (c : Nat) (x : ChanSt) : (s.setChan c x).ntf = s.ntf := rfl
@[simp] theorem State.onLane_ntf (s : State) (n : Nat) (f : LaneSt → LaneSt) : (s.onLane n f).ntf = s.ntf := rfl
@[simp] theorem State.setLane_ntf (s : State) (n : Nat) (x : LaneSt) : (s.setLane n x).ntf = s.ntf := rfl
@[simp] theorem State.setTriple_ntf (s : State) (i : Nat) (l : List Word) : (s.setTriple i l).ntf = s.ntf := rfl
@[simp] theorem State.setPin_ntf (s : State) (p : Nat) (x : PinSt) : (s.setPin p x).ntf = s.ntf := rfl
@[simp] theorem State.onTile_ntf (s : State) (t : Nat) (f : TileSt → TileSt) : (s.onTile t f).ntf = s.ntf := rfl
@[simp] theorem State.setPwm_ntf (s : State) (c : Nat) (x : PwmSt) : (s.setPwm c x).ntf = s.ntf := rfl
@[simp] theorem State.onIfc_ntf (s : State) (t : Nat) (f : TileIf → TileIf) : (s.onIfc t f).ntf = s.ntf := rfl
@[simp] theorem State.setXing_ntf (s : State) (k : Nat) (x : XingSt) : (s.setXing k x).ntf = s.ntf := rfl
@[simp] theorem State.setTileQ_ntf (s : State) (t q : Nat) (x : HQ (BitVec 36)) : (s.setTileQ t q x).ntf = s.ntf := by unfold State.setTileQ; split <;> rfl
@[simp] theorem State.setTile_ntf (s : State) (t : Nat) (x : TileSt) : (s.setTile t x).ntf = s.ntf := rfl
@[simp] theorem State.freshFrame_ntf (s : State) (f : Nat) : (s.freshFrame f).ntf = s.ntf := rfl
@[simp] theorem State.setCfg_ntf (s : State) (k : Nat) (v : Word) : (s.setCfg k v).ntf = s.ntf := rfl

/-! ### `pending` -/
@[simp] theorem State.setRegP_pending (s : State) (p : Nat) (r : Reg) (i j : Nat) (v : Word) : (s.setRegP p r i j v).pending = s.pending := rfl
@[simp] theorem State.setReg_pending (s : State) (r : Reg) (i : Nat) (v : Word) : (s.setReg r i v).pending = s.pending := rfl
@[simp] theorem State.putFields_pending (s : State) (p : Nat) (r : Reg) (i j : Nat) (v : Word) : (s.putFields p r i j v).pending = s.pending := rfl
@[simp] theorem State.bump_pending (s : State) (r : Reg) (i n : Nat) : (s.bump r i n).pending = s.pending := rfl
@[simp] theorem State.bumpP_pending (s : State) (p : Nat) (r : Reg) (n : Nat) : (s.bumpP p r n).pending = s.pending := rfl
@[simp] theorem State.finish_pending (s : State) (st : Status) (l : List Word) : (s.finish st l).pending = s.pending := rfl
@[simp] theorem State.stat_pending (s : State) (st : Status) : (s.stat st).pending = s.pending := rfl
@[simp] theorem State.nextFree_pending (s : State) : (s.nextFree).pending = s.pending := rfl
@[simp] theorem State.putByte_pending (s : State) (a : Nat) (b : Byte) : (s.putByte a b).pending = s.pending := rfl
@[simp] theorem State.onPort_pending (s : State) (p : Nat) (f : PortSt → PortSt) : (s.onPort p f).pending = s.pending := rfl
@[simp] theorem State.setPort_pending (s : State) (p : Nat) (x : PortSt) : (s.setPort p x).pending = s.pending := rfl
@[simp] theorem State.setMbox_pending (s : State) (d m : Nat) (x : Mbox) : (s.setMbox d m x).pending = s.pending := rfl
@[simp] theorem State.setBatch_pending (s : State) (p : Nat) (x : BatchSt) : (s.setBatch p x).pending = s.pending := rfl
@[simp] theorem State.onDst_pending (s : State) (f : DstSt → DstSt) : (s.onDst f).pending = s.pending := rfl
@[simp] theorem State.onInst_pending (s : State) (b : Nat) (f : Inst → Inst) : (s.onInst b f).pending = s.pending := rfl
@[simp] theorem State.onScrub_pending (s : State) (f : ScrubSt → ScrubSt) : (s.onScrub f).pending = s.pending := rfl
@[simp] theorem State.setBank_pending (s : State) (b : Nat) (x : BankSt) : (s.setBank b x).pending = s.pending := rfl
@[simp] theorem State.onSec_pending (s : State) (f : SecSt → SecSt) : (s.onSec f).pending = s.pending := rfl
@[simp] theorem State.setCnt_pending (s : State) (k : Nat) (x : ObsCnt) : (s.setCnt k x).pending = s.pending := rfl
@[simp] theorem State.onLdr_pending (s : State) (f : LdrSt → LdrSt) : (s.onLdr f).pending = s.pending := rfl
@[simp] theorem State.setProbe_pending (s : State) (k : Nat) (x : ProbeSt) : (s.setProbe k x).pending = s.pending := rfl
@[simp] theorem State.onMem_pending (s : State) (f : MemSt → MemSt) : (s.onMem f).pending = s.pending := rfl
@[simp] theorem State.setSense_pending (s : State) (k : Nat) (x : SenseSt) : (s.setSense k x).pending = s.pending := rfl
@[simp] theorem State.onObs_pending (s : State) (f : ObsSt → ObsSt) : (s.onObs f).pending = s.pending := rfl
@[simp] theorem State.setQd_pending (s : State) (k : Nat) (x : QdSt) : (s.setQd k x).pending = s.pending := rfl
@[simp] theorem State.onPins_pending (s : State) (f : PinsSt → PinsSt) : (s.onPins f).pending = s.pending := rfl
@[simp] theorem State.setPlane_pending (s : State) (k : Nat) (x : PLane) : (s.setPlane k x).pending = s.pending := rfl
@[simp] theorem State.onPwr_pending (s : State) (f : PwrSt → PwrSt) : (s.onPwr f).pending = s.pending := rfl
@[simp] theorem State.setHold_pending (s : State) (p d : Nat) (x : HoldQ) : (s.setHold p d x).pending = s.pending := rfl
@[simp] theorem State.onTime_pending (s : State) (f : TimeSt → TimeSt) : (s.onTime f).pending = s.pending := rfl
@[simp] theorem State.setInbox_pending (s : State) (k : Nat) (x : List Packet) : (s.setInbox k x).pending = s.pending := rfl
@[simp] theorem State.onLoad_pending (s : State) (f : Load → Load) : (s.onLoad f).pending = s.pending := rfl
@[simp] theorem State.setAsm_pending (s : State) (k : Nat) (x : List Flit) : (s.setAsm k x).pending = s.pending := rfl
@[simp] theorem State.onFuses_pending (s : State) (f : FuseSt → FuseSt) : (s.onFuses f).pending = s.pending := rfl
@[simp] theorem State.setOutArb_pending (s : State) (o : Nat) (x : OutArb) : (s.setOutArb o x).pending = s.pending := rfl
@[simp] theorem State.setSlot_pending (s : State) (n i : Nat) (x : SlotSt) : (s.setSlot n i x).pending = s.pending := rfl
@[simp] theorem State.setSpool_pending (s : State) (n : Nat) (x : SpoolSt) : (s.setSpool n x).pending = s.pending := rfl
@[simp] theorem State.setExp_pending (s : State) (n : Nat) (e : Option ExpSt) : (s.setExp n e).pending = s.pending := rfl
@[simp] theorem State.onMarks_pending (s : State) (n : Nat) (f : NMap (Nat × Tick) → NMap (Nat × Tick)) : (s.onMarks n f).pending = s.pending := rfl
@[simp] theorem State.setChan_pending (s : State) (c : Nat) (x : ChanSt) : (s.setChan c x).pending = s.pending := rfl
@[simp] theorem State.onLane_pending (s : State) (n : Nat) (f : LaneSt → LaneSt) : (s.onLane n f).pending = s.pending := rfl
@[simp] theorem State.setLane_pending (s : State) (n : Nat) (x : LaneSt) : (s.setLane n x).pending = s.pending := rfl
@[simp] theorem State.setTriple_pending (s : State) (i : Nat) (l : List Word) : (s.setTriple i l).pending = s.pending := rfl
@[simp] theorem State.setPin_pending (s : State) (p : Nat) (x : PinSt) : (s.setPin p x).pending = s.pending := rfl
@[simp] theorem State.onTile_pending (s : State) (t : Nat) (f : TileSt → TileSt) : (s.onTile t f).pending = s.pending := rfl
@[simp] theorem State.setPwm_pending (s : State) (c : Nat) (x : PwmSt) : (s.setPwm c x).pending = s.pending := rfl
@[simp] theorem State.onIfc_pending (s : State) (t : Nat) (f : TileIf → TileIf) : (s.onIfc t f).pending = s.pending := rfl
@[simp] theorem State.setXing_pending (s : State) (k : Nat) (x : XingSt) : (s.setXing k x).pending = s.pending := rfl
@[simp] theorem State.setTileQ_pending (s : State) (t q : Nat) (x : HQ (BitVec 36)) : (s.setTileQ t q x).pending = s.pending := by unfold State.setTileQ; split <;> rfl
@[simp] theorem State.setTile_pending (s : State) (t : Nat) (x : TileSt) : (s.setTile t x).pending = s.pending := rfl
@[simp] theorem State.freshFrame_pending (s : State) (f : Nat) : (s.freshFrame f).pending = s.pending := rfl
@[simp] theorem State.setCfg_pending (s : State) (k : Nat) (v : Word) : (s.setCfg k v).pending = s.pending := rfl

/-! ### `regs` -/
@[simp] theorem State.finish_regs (s : State) (st : Status) (l : List Word) : (s.finish st l).regs = s.regs := rfl
@[simp] theorem State.stat_regs (s : State) (st : Status) : (s.stat st).regs = s.regs := rfl
@[simp] theorem State.nextFree_regs (s : State) : (s.nextFree).regs = s.regs := rfl
@[simp] theorem State.putByte_regs (s : State) (a : Nat) (b : Byte) : (s.putByte a b).regs = s.regs := rfl
@[simp] theorem State.onPort_regs (s : State) (p : Nat) (f : PortSt → PortSt) : (s.onPort p f).regs = s.regs := rfl
@[simp] theorem State.setPort_regs (s : State) (p : Nat) (x : PortSt) : (s.setPort p x).regs = s.regs := rfl
@[simp] theorem State.setMbox_regs (s : State) (d m : Nat) (x : Mbox) : (s.setMbox d m x).regs = s.regs := rfl
@[simp] theorem State.setBatch_regs (s : State) (p : Nat) (x : BatchSt) : (s.setBatch p x).regs = s.regs := rfl
@[simp] theorem State.onDst_regs (s : State) (f : DstSt → DstSt) : (s.onDst f).regs = s.regs := rfl
@[simp] theorem State.onInst_regs (s : State) (b : Nat) (f : Inst → Inst) : (s.onInst b f).regs = s.regs := rfl
@[simp] theorem State.onScrub_regs (s : State) (f : ScrubSt → ScrubSt) : (s.onScrub f).regs = s.regs := rfl
@[simp] theorem State.setBank_regs (s : State) (b : Nat) (x : BankSt) : (s.setBank b x).regs = s.regs := rfl
@[simp] theorem State.onSec_regs (s : State) (f : SecSt → SecSt) : (s.onSec f).regs = s.regs := rfl
@[simp] theorem State.setCnt_regs (s : State) (k : Nat) (x : ObsCnt) : (s.setCnt k x).regs = s.regs := rfl
@[simp] theorem State.onLdr_regs (s : State) (f : LdrSt → LdrSt) : (s.onLdr f).regs = s.regs := rfl
@[simp] theorem State.setProbe_regs (s : State) (k : Nat) (x : ProbeSt) : (s.setProbe k x).regs = s.regs := rfl
@[simp] theorem State.onMem_regs (s : State) (f : MemSt → MemSt) : (s.onMem f).regs = s.regs := rfl
@[simp] theorem State.setSense_regs (s : State) (k : Nat) (x : SenseSt) : (s.setSense k x).regs = s.regs := rfl
@[simp] theorem State.onObs_regs (s : State) (f : ObsSt → ObsSt) : (s.onObs f).regs = s.regs := rfl
@[simp] theorem State.setQd_regs (s : State) (k : Nat) (x : QdSt) : (s.setQd k x).regs = s.regs := rfl
@[simp] theorem State.onPins_regs (s : State) (f : PinsSt → PinsSt) : (s.onPins f).regs = s.regs := rfl
@[simp] theorem State.setPlane_regs (s : State) (k : Nat) (x : PLane) : (s.setPlane k x).regs = s.regs := rfl
@[simp] theorem State.onPwr_regs (s : State) (f : PwrSt → PwrSt) : (s.onPwr f).regs = s.regs := rfl
@[simp] theorem State.setHold_regs (s : State) (p d : Nat) (x : HoldQ) : (s.setHold p d x).regs = s.regs := rfl
@[simp] theorem State.onTime_regs (s : State) (f : TimeSt → TimeSt) : (s.onTime f).regs = s.regs := rfl
@[simp] theorem State.setInbox_regs (s : State) (k : Nat) (x : List Packet) : (s.setInbox k x).regs = s.regs := rfl
@[simp] theorem State.onLoad_regs (s : State) (f : Load → Load) : (s.onLoad f).regs = s.regs := rfl
@[simp] theorem State.setAsm_regs (s : State) (k : Nat) (x : List Flit) : (s.setAsm k x).regs = s.regs := rfl
@[simp] theorem State.onFuses_regs (s : State) (f : FuseSt → FuseSt) : (s.onFuses f).regs = s.regs := rfl
@[simp] theorem State.setOutArb_regs (s : State) (o : Nat) (x : OutArb) : (s.setOutArb o x).regs = s.regs := rfl
@[simp] theorem State.setSlot_regs (s : State) (n i : Nat) (x : SlotSt) : (s.setSlot n i x).regs = s.regs := rfl
@[simp] theorem State.setSpool_regs (s : State) (n : Nat) (x : SpoolSt) : (s.setSpool n x).regs = s.regs := rfl
@[simp] theorem State.setExp_regs (s : State) (n : Nat) (e : Option ExpSt) : (s.setExp n e).regs = s.regs := rfl
@[simp] theorem State.onMarks_regs (s : State) (n : Nat) (f : NMap (Nat × Tick) → NMap (Nat × Tick)) : (s.onMarks n f).regs = s.regs := rfl
@[simp] theorem State.setChan_regs (s : State) (c : Nat) (x : ChanSt) : (s.setChan c x).regs = s.regs := rfl
@[simp] theorem State.onLane_regs (s : State) (n : Nat) (f : LaneSt → LaneSt) : (s.onLane n f).regs = s.regs := rfl
@[simp] theorem State.setLane_regs (s : State) (n : Nat) (x : LaneSt) : (s.setLane n x).regs = s.regs := rfl
@[simp] theorem State.setTriple_regs (s : State) (i : Nat) (l : List Word) : (s.setTriple i l).regs = s.regs := rfl
@[simp] theorem State.setPin_regs (s : State) (p : Nat) (x : PinSt) : (s.setPin p x).regs = s.regs := rfl
@[simp] theorem State.onTile_regs (s : State) (t : Nat) (f : TileSt → TileSt) : (s.onTile t f).regs = s.regs := rfl
@[simp] theorem State.setPwm_regs (s : State) (c : Nat) (x : PwmSt) : (s.setPwm c x).regs = s.regs := rfl
@[simp] theorem State.onIfc_regs (s : State) (t : Nat) (f : TileIf → TileIf) : (s.onIfc t f).regs = s.regs := rfl
@[simp] theorem State.setXing_regs (s : State) (k : Nat) (x : XingSt) : (s.setXing k x).regs = s.regs := rfl
@[simp] theorem State.setTileQ_regs (s : State) (t q : Nat) (x : HQ (BitVec 36)) : (s.setTileQ t q x).regs = s.regs := by unfold State.setTileQ; split <;> rfl
@[simp] theorem State.setTile_regs (s : State) (t : Nat) (x : TileSt) : (s.setTile t x).regs = s.regs := rfl
@[simp] theorem State.freshFrame_regs (s : State) (f : Nat) : (s.freshFrame f).regs = s.regs := rfl
@[simp] theorem State.setCfg_regs (s : State) (k : Nat) (v : Word) : (s.setCfg k v).regs = s.regs := rfl

/-! ## Reading after a write -/

theorem regP_setRegP (s : State) (p q : Nat) (r : Reg) (i j k l : Nat) (v : Word) :
    (s.setRegP p r i j v).regP q r k l = if regKey r k l q = regKey r i j p then v else s.regP q r k l := by
  exact NMap.get_set ..
theorem reg_setReg (s : State) (r : Reg) (i : Nat) (v : Word) : (s.setReg r i v).reg r i = v := by
  simp [State.reg, State.setReg, regP_setRegP]
theorem memByte_putByte (s : State) (a b : Nat) (v : Byte) : memByte (s.putByte a v) b = if b = a then v else memByte s b := by
  exact NMap.get_set ..
theorem port_setPort (s : State) (k j : Nat) (x : PortSt) : port (s.setPort k x) j = if j = k then x else port s j := by
  exact NMap.get_set ..
theorem chan_setChan (s : State) (k j : Nat) (x : ChanSt) : chan (s.setChan k x) j = if j = k then x else chan s j := by
  exact NMap.get_set ..
theorem lane_setLane (s : State) (k j : Nat) (x : LaneSt) : lane (s.setLane k x) j = if j = k then x else lane s j := by
  exact NMap.get_set ..
theorem tileSt_setTile (s : State) (k j : Nat) (x : TileSt) : tileSt (s.setTile k x) j = if j = k then x else tileSt s j := by
  exact NMap.get_set ..
theorem bank_setBank (s : State) (k j : Nat) (x : BankSt) : bank (s.setBank k x) j = if j = k then x else bank s j := by
  exact NMap.get_set ..
theorem spoolOf_setSpool (s : State) (k j : Nat) (x : SpoolSt) : spoolOf (s.setSpool k x) j = if j = k then x else spoolOf s j := by
  exact NMap.get_set ..
theorem sense_setSense (s : State) (k j : Nat) (x : SenseSt) : sense (s.setSense k x) j = if j = k then x else sense s j := by
  exact NMap.get_set ..
theorem qd_setQd (s : State) (k j : Nat) (x : QdSt) : qd (s.setQd k x) j = if j = k then x else qd s j := by
  exact NMap.get_set ..
theorem pinSt_setPin (s : State) (k j : Nat) (x : PinSt) : pinSt (s.setPin k x) j = if j = k then x else pinSt s j := by
  exact NMap.get_set ..
theorem pwm_setPwm (s : State) (k j : Nat) (x : PwmSt) : pwm (s.setPwm k x) j = if j = k then x else pwm s j := by
  exact NMap.get_set ..
theorem xing_setXing (s : State) (k j : Nat) (x : XingSt) : xing (s.setXing k x) j = if j = k then x else xing s j := by
  exact NMap.get_set ..
theorem plane_setPlane (s : State) (k j : Nat) (x : PLane) : plane (s.setPlane k x) j = if j = k then x else plane s j := by
  exact NMap.get_set ..
theorem obsCnt_setCnt (s : State) (k j : Nat) (x : ObsCnt) : obsCnt (s.setCnt k x) j = if j = k then x else obsCnt s j := by
  exact NMap.get_set ..
theorem probe_setProbe (s : State) (k j : Nat) (x : ProbeSt) : probe (s.setProbe k x) j = if j = k then x else probe s j := by
  exact NMap.get_set ..
theorem batchOf_setBatch (s : State) (k j : Nat) (x : BatchSt) : batchOf (s.setBatch k x) j = if j = k then x else batchOf s j := by
  exact NMap.get_set ..
theorem slotOf_setSlot (s : State) (n i k : Nat) (x : SlotSt) : slotOf (s.setSlot n i x) n k = if k = i then x else slotOf s n k := by
  simp only [slotOf, State.setSlot, spoolOf_setSpool, ↓reduceIte]
  exact NMap.get_set ..

/-! ## Bytes of reel memory -/

/-- Writing bytes changes reel memory alone. -/
theorem State.putBytes_eq (s : State) (a : Nat) (l : List Byte) : s.putBytes a l = { s with mem := (s.putBytes a l).mem } := by
  induction l generalizing s a with
  | nil => rfl
  | cons b t ih => rw [State.putBytes, ih]; rfl
/-- Fresh check bits change the record of flipped bits alone. -/
theorem State.freshCheck_eq (s : State) (n k : Nat) :
    s.freshCheck n k = { s with memory := { s.memory with err := (s.freshCheck n k).memory.err } } := by
  induction k generalizing s n with
  | zero => rfl
  | succ k ih => rw [State.freshCheck, ih]
/-- Writing words changes reel memory and the record of flipped bits alone. -/
theorem State.putWords_eq (s : State) (a : Nat) (l : List Word) : s.putWords a l =
    { s with mem := (s.putWords a l).mem, memory := { s.memory with err := (s.putWords a l).memory.err } } := by
  unfold State.putWords
  generalize h : s.putBytes a (bytesOfWords l) = u
  have e : u = { s with mem := u.mem } := by rw [← h]; exact State.putBytes_eq ..
  have f := State.freshCheck_eq u (a / 8) ((l.length + 1) / 2)
  generalize u.freshCheck (a / 8) ((l.length + 1) / 2) = v at f ⊢
  have fm : v.mem = u.mem := by rw [f]
  rw [fm]
  conv => lhs; rw [f, e]
/-- A byte after bytes have been written: the one written there, or the one before. -/
theorem memByte_putBytes (s : State) (a b : Nat) (l : List Byte) :
    memByte (s.putBytes a l) b = if a ≤ b ∧ b < a + l.length then l.getD (b - a) 0 else memByte s b := by
  induction l generalizing s a with
  | nil => rw [if_neg (by simp)]; rfl
  | cons x t ih =>
    rw [State.putBytes, ih, memByte_putByte]
    by_cases h : b = a
    · subst h; simp
    · by_cases h1 : a + 1 ≤ b ∧ b < a + 1 + t.length
      · have h2 : a ≤ b ∧ b < a + (x :: t).length := by simp only [List.length_cons]; omega
        rw [if_pos h1, if_pos h2]
        obtain ⟨k, rfl⟩ : ∃ k, b = a + 1 + k := ⟨b - (a + 1), by omega⟩
        have e : a + 1 + k - a = k + 1 := by omega
        have e' : a + 1 + k - (a + 1) = k := by omega
        rw [e, e', List.getD_cons_succ]
      · have h2 : ¬(a ≤ b ∧ b < a + (x :: t).length) := by simp only [List.length_cons]; omega
        rw [if_neg h1, if_neg h2, if_neg h]
/-- Bytes outside the words written keep their values. -/
theorem memByte_putWords (s : State) (a b : Nat) (l : List Word) (h : b < a ∨ a + (bytesOfWords l).length ≤ b) :
    memByte (s.putWords a l) b = memByte s b := by
  have e : memByte (s.putWords a l) b = memByte (s.putBytes a (bytesOfWords l)) b := by
    unfold State.putWords
    have f := State.freshCheck_eq (s.putBytes a (bytesOfWords l)) (a / 8) ((l.length + 1) / 2)
    have g := congrArg (fun t : State => memByte t b) f
    exact g
  rw [e, memByte_putBytes, if_neg (by omega)]

/-! ## Notifications -/

/-- A state apart from what a slot of reel memory changes: the islands that it wakes, the counts of the group and of the masters
that stall, the bank's rounds, the region test that it delays, the tallies. -/
def State.butSlots (s : State) : State :=
  { s with xng := { s.xng with stopped := [] }, obs := { s.obs with tally := [] },
           memory := { s.memory with banks := [], lastUse := [], conf := [], test := none },
           dst := { s.dst with grpAcc := [], grpStall := [] } }
/-- A state apart from what a notification changes: that, registers, reel memory with its flipped bits, write-backs and operations,
the ports and what waits for a queue. -/
def State.butNotes (s : State) : State :=
  { s.butSlots with regs := [], mem := [], memory := { s.butSlots.memory with err := [], fixq := [], ops := [], nextOp := 0 },
                    host := { s.host with ports := [] },
                    ntf := { s.ntf with owed := [], early := [] } }
theorem stalls_butSlots (l : List Nat) (n : Nat) (s : State) : (forEach l (fun m => stall m n) s).butSlots = s.butSlots := by
  induction l generalizing s with
  | nil => rfl
  | cons m t ih => exact (ih (stall m n s)).trans rfl
theorem stallSlot_butSlots (g : Nat) (l : List Nat) (s : State) : (stallSlot g l s).butSlots = s.butSlots :=
  Eq.trans rfl (stalls_butSlots l 2 s)
theorem testerSlots_butSlots (b : Nat) (also : List Nat) (n : Nat) (s : State) : (testerSlots b also n s).butSlots = s.butSlots := by
  induction n generalizing s with
  | zero => rfl
  | succ n ih =>
    unfold testerSlots
    split
    · exact (ih _).trans (Eq.trans rfl (stallSlot_butSlots ..))
    · rfl
theorem takeSlots_butSlots (b m : Nat) (also : List Nat) (n : Nat) (s : State) : (takeSlots b m also n s).butSlots = s.butSlots := by
  induction n generalizing s with
  | zero => rfl
  | succ n ih =>
    unfold takeSlots
    exact (ih _).trans (Eq.trans rfl ((stallSlot_butSlots ..).trans (testerSlots_butSlots ..)))
/-- A slot of reel memory changes nothing else. -/
theorem takeSlot_butSlots (w m : Nat) (also : List Nat) (n : Nat) (s : State) : (takeSlot w m also n s).butSlots = s.butSlots := by
  unfold takeSlot
  have hw : (wakeIsl 3 0 s).butSlots = s.butSlots := rfl
  have ht : ∀ u : State, (tally 4 (bankOf w / 16) 0 u).butSlots = u.butSlots := fun _ => rfl
  have hu : ∀ (u : State) (l : List (Nat × Tick)), (u.onMem fun x => { x with lastUse := l }).butSlots = u.butSlots := fun _ _ => rfl
  have hb : ∀ (u : State) (x : BankSt), (u.setBank (bankOf w) x).butSlots = u.butSlots := fun _ _ => rfl
  by_cases h : inTest (wakeIsl 3 0 s) w
  · simp only [if_pos h]
    exact (ht _).trans hw
  · simp only [if_neg h]
    exact (ht _).trans ((hu ((takeSlots (bankOf w) m also n (wakeIsl 3 0 s)).setBank (bankOf w) _) _).trans ((hb (takeSlots (bankOf w) m also n (wakeIsl 3 0 s)) _).trans ((takeSlots_butSlots ..).trans hw)))
theorem forEach_butNotes {α : Type} (l : List α) (f : α → State → State) (hf : ∀ x s, (f x s).butNotes = s.butNotes) (s : State) :
    (forEach l f s).butNotes = s.butNotes := by
  induction l generalizing s with
  | nil => rfl
  | cons a t ih => exact (ih (f a s)).trans (hf a s)
/-- What leaves all but the slots as it is leaves all but the notes. -/
theorem butNotes_of_butSlots {s t : State} (h : t.butSlots = s.butSlots) : t.butNotes = s.butNotes :=
  congrArg (fun x : State =>
    ({ x with
       regs := [], mem := [], memory := { x.memory with err := [], fixq := [], ops := [], nextOp := 0 }, host := { x.host with ports := [] },
       ntf := { x.ntf with owed := [], early := [] } } : State)) h
theorem putReel_butNotes (w : Nat) (d : DWord) (s : State) : (putReel w d s).butNotes = s.butNotes := by
  unfold putReel
  have e := State.putBytes_eq s (8 * w) (bytesOf64 d)
  generalize s.putBytes (8 * w) (bytesOf64 d) = u at e
  have h : ∀ m : List Host.Cell, ({ s with mem := m } : State).butNotes = s.butNotes := fun _ => rfl
  exact Eq.trans (b := u.butNotes) rfl ((congrArg State.butNotes e).trans (h u.mem))
theorem soleSlot_butNotes (p w : Nat) (s : State) : (soleSlot p w s).butNotes = s.butNotes := by
  unfold soleSlot
  dsimp only
  refine (butNotes_of_butSlots (takeSlot_butSlots ..)).trans ?_
  split
  · split <;> rfl
  · rfl
theorem noticeWritten_butNotes (p : Nat) (s : State) : (noticeWritten p s).butNotes = s.butNotes := by
  unfold noticeWritten
  dsimp only
  split <;> rfl
theorem writeNotice_butNotes (p code dom : Nat) (t : Tick) (items : List Word) (s : State) :
    (writeNotice p code dom t items s).butNotes = s.butNotes := by
  unfold writeNotice
  extract_lets id w a rs o
  split
  · exact (noticeWritten_butNotes ..).trans
      (forEach_butNotes _ _ (fun _ _ => (putReel_butNotes ..).trans (soleSlot_butNotes ..)) s)
  · refine Eq.trans (forEach_butNotes _ _ ?_ _) rfl
    intro r u
    rfl
/-- A record in a port's queue changes no more than a notification may. -/
theorem queueRecord_butNotes (p code dom : Nat) (items : List Word) (s : State) : (queueRecord p code dom items s).butNotes = s.butNotes := by
  unfold queueRecord
  split
  · rfl
  · split
    · exact writeNotice_butNotes ..
    · rfl
/-- Nor does a notification. -/
theorem notifyPorts_butNotes (code dom : Nat) (items : List Word) (l : List Nat) (s : State) :
    (notifyPorts code dom items l s).butNotes = s.butNotes := by
  induction l generalizing s with
  | nil => rfl
  | cons p t ih =>
    unfold notifyPorts
    split
    · exact ih s
    · exact (ih _).trans (queueRecord_butNotes ..)
@[simp] theorem notify_done (code dom : Nat) (items : List Word) (s : State) : (notify code dom items s).done = s.done :=
  (congrArg (fun t : State => t.done) (notifyPorts_butNotes code dom items (toDom dom) s) :)
@[simp] theorem notifyOwner_done (code dom : Nat) (items : List Word) (s : State) : (notifyOwner code dom items s).done = s.done :=
  (congrArg (fun t : State => t.done) (notifyPorts_butNotes code dom items [0] s) :)
@[simp] theorem notifyPorts_done (code dom : Nat) (items : List Word) (l : List Nat) (s : State) : (notifyPorts code dom items l s).done = s.done :=
  (congrArg (fun t : State => t.done) (notifyPorts_butNotes code dom items l s) :)
@[simp] theorem notify_fresh (code dom : Nat) (items : List Word) (s : State) : (notify code dom items s).fresh = s.fresh :=
  (congrArg (fun t : State => t.fresh) (notifyPorts_butNotes code dom items (toDom dom) s) :)
@[simp] theorem notifyOwner_fresh (code dom : Nat) (items : List Word) (s : State) : (notifyOwner code dom items s).fresh = s.fresh :=
  (congrArg (fun t : State => t.fresh) (notifyPorts_butNotes code dom items [0] s) :)
@[simp] theorem notifyPorts_fresh (code dom : Nat) (items : List Word) (l : List Nat) (s : State) : (notifyPorts code dom items l s).fresh = s.fresh :=
  (congrArg (fun t : State => t.fresh) (notifyPorts_butNotes code dom items l s) :)
@[simp] theorem notify_fab (code dom : Nat) (items : List Word) (s : State) : (notify code dom items s).fab = s.fab :=
  (congrArg (fun t : State => t.fab) (notifyPorts_butNotes code dom items (toDom dom) s) :)
@[simp] theorem notifyOwner_fab (code dom : Nat) (items : List Word) (s : State) : (notifyOwner code dom items s).fab = s.fab :=
  (congrArg (fun t : State => t.fab) (notifyPorts_butNotes code dom items [0] s) :)
@[simp] theorem notifyPorts_fab (code dom : Nat) (items : List Word) (l : List Nat) (s : State) : (notifyPorts code dom items l s).fab = s.fab :=
  (congrArg (fun t : State => t.fab) (notifyPorts_butNotes code dom items l s) :)
@[simp] theorem notify_ply (code dom : Nat) (items : List Word) (s : State) : (notify code dom items s).ply = s.ply :=
  (congrArg (fun t : State => t.ply) (notifyPorts_butNotes code dom items (toDom dom) s) :)
@[simp] theorem notifyOwner_ply (code dom : Nat) (items : List Word) (s : State) : (notifyOwner code dom items s).ply = s.ply :=
  (congrArg (fun t : State => t.ply) (notifyPorts_butNotes code dom items [0] s) :)
@[simp] theorem notifyPorts_ply (code dom : Nat) (items : List Word) (l : List Nat) (s : State) : (notifyPorts code dom items l s).ply = s.ply :=
  (congrArg (fun t : State => t.ply) (notifyPorts_butNotes code dom items l s) :)
@[simp] theorem notify_lanes (code dom : Nat) (items : List Word) (s : State) : (notify code dom items s).lanes = s.lanes :=
  (congrArg (fun t : State => t.lanes) (notifyPorts_butNotes code dom items (toDom dom) s) :)
@[simp] theorem notifyOwner_lanes (code dom : Nat) (items : List Word) (s : State) : (notifyOwner code dom items s).lanes = s.lanes :=
  (congrArg (fun t : State => t.lanes) (notifyPorts_butNotes code dom items [0] s) :)
@[simp] theorem notifyPorts_lanes (code dom : Nat) (items : List Word) (l : List Nat) (s : State) : (notifyPorts code dom items l s).lanes = s.lanes :=
  (congrArg (fun t : State => t.lanes) (notifyPorts_butNotes code dom items l s) :)
@[simp] theorem notify_chans (code dom : Nat) (items : List Word) (s : State) : (notify code dom items s).chans = s.chans :=
  (congrArg (fun t : State => t.chans) (notifyPorts_butNotes code dom items (toDom dom) s) :)
@[simp] theorem notifyOwner_chans (code dom : Nat) (items : List Word) (s : State) : (notifyOwner code dom items s).chans = s.chans :=
  (congrArg (fun t : State => t.chans) (notifyPorts_butNotes code dom items [0] s) :)
@[simp] theorem notifyPorts_chans (code dom : Nat) (items : List Word) (l : List Nat) (s : State) : (notifyPorts code dom items l s).chans = s.chans :=
  (congrArg (fun t : State => t.chans) (notifyPorts_butNotes code dom items l s) :)
@[simp] theorem notify_fe (code dom : Nat) (items : List Word) (s : State) : (notify code dom items s).fe = s.fe :=
  (congrArg (fun t : State => t.fe) (notifyPorts_butNotes code dom items (toDom dom) s) :)
@[simp] theorem notifyOwner_fe (code dom : Nat) (items : List Word) (s : State) : (notifyOwner code dom items s).fe = s.fe :=
  (congrArg (fun t : State => t.fe) (notifyPorts_butNotes code dom items [0] s) :)
@[simp] theorem notifyPorts_fe (code dom : Nat) (items : List Word) (l : List Nat) (s : State) : (notifyPorts code dom items l s).fe = s.fe :=
  (congrArg (fun t : State => t.fe) (notifyPorts_butNotes code dom items l s) :)
@[simp] theorem notify_spl (code dom : Nat) (items : List Word) (s : State) : (notify code dom items s).spl = s.spl :=
  (congrArg (fun t : State => t.spl) (notifyPorts_butNotes code dom items (toDom dom) s) :)
@[simp] theorem notifyOwner_spl (code dom : Nat) (items : List Word) (s : State) : (notifyOwner code dom items s).spl = s.spl :=
  (congrArg (fun t : State => t.spl) (notifyPorts_butNotes code dom items [0] s) :)
@[simp] theorem notifyPorts_spl (code dom : Nat) (items : List Word) (l : List Nat) (s : State) : (notifyPorts code dom items l s).spl = s.spl :=
  (congrArg (fun t : State => t.spl) (notifyPorts_butNotes code dom items l s) :)
@[simp] theorem notify_pins (code dom : Nat) (items : List Word) (s : State) : (notify code dom items s).pins = s.pins :=
  (congrArg (fun t : State => t.pins) (notifyPorts_butNotes code dom items (toDom dom) s) :)
@[simp] theorem notifyOwner_pins (code dom : Nat) (items : List Word) (s : State) : (notifyOwner code dom items s).pins = s.pins :=
  (congrArg (fun t : State => t.pins) (notifyPorts_butNotes code dom items [0] s) :)
@[simp] theorem notifyPorts_pins (code dom : Nat) (items : List Word) (l : List Nat) (s : State) : (notifyPorts code dom items l s).pins = s.pins :=
  (congrArg (fun t : State => t.pins) (notifyPorts_butNotes code dom items l s) :)
@[simp] theorem notify_time (code dom : Nat) (items : List Word) (s : State) : (notify code dom items s).time = s.time :=
  (congrArg (fun t : State => t.time) (notifyPorts_butNotes code dom items (toDom dom) s) :)
@[simp] theorem notifyOwner_time (code dom : Nat) (items : List Word) (s : State) : (notifyOwner code dom items s).time = s.time :=
  (congrArg (fun t : State => t.time) (notifyPorts_butNotes code dom items [0] s) :)
@[simp] theorem notifyPorts_time (code dom : Nat) (items : List Word) (l : List Nat) (s : State) : (notifyPorts code dom items l s).time = s.time :=
  (congrArg (fun t : State => t.time) (notifyPorts_butNotes code dom items l s) :)
@[simp] theorem notify_ldr (code dom : Nat) (items : List Word) (s : State) : (notify code dom items s).ldr = s.ldr :=
  (congrArg (fun t : State => t.ldr) (notifyPorts_butNotes code dom items (toDom dom) s) :)
@[simp] theorem notifyOwner_ldr (code dom : Nat) (items : List Word) (s : State) : (notifyOwner code dom items s).ldr = s.ldr :=
  (congrArg (fun t : State => t.ldr) (notifyPorts_butNotes code dom items [0] s) :)
@[simp] theorem notifyPorts_ldr (code dom : Nat) (items : List Word) (l : List Nat) (s : State) : (notifyPorts code dom items l s).ldr = s.ldr :=
  (congrArg (fun t : State => t.ldr) (notifyPorts_butNotes code dom items l s) :)
@[simp] theorem notify_scrub (code dom : Nat) (items : List Word) (s : State) : (notify code dom items s).scrub = s.scrub :=
  (congrArg (fun t : State => t.scrub) (notifyPorts_butNotes code dom items (toDom dom) s) :)
@[simp] theorem notifyOwner_scrub (code dom : Nat) (items : List Word) (s : State) : (notifyOwner code dom items s).scrub = s.scrub :=
  (congrArg (fun t : State => t.scrub) (notifyPorts_butNotes code dom items [0] s) :)
@[simp] theorem notifyPorts_scrub (code dom : Nat) (items : List Word) (l : List Nat) (s : State) : (notifyPorts code dom items l s).scrub = s.scrub :=
  (congrArg (fun t : State => t.scrub) (notifyPorts_butNotes code dom items l s) :)
@[simp] theorem notify_sec (code dom : Nat) (items : List Word) (s : State) : (notify code dom items s).sec = s.sec :=
  (congrArg (fun t : State => t.sec) (notifyPorts_butNotes code dom items (toDom dom) s) :)
@[simp] theorem notifyOwner_sec (code dom : Nat) (items : List Word) (s : State) : (notifyOwner code dom items s).sec = s.sec :=
  (congrArg (fun t : State => t.sec) (notifyPorts_butNotes code dom items [0] s) :)
@[simp] theorem notifyPorts_sec (code dom : Nat) (items : List Word) (l : List Nat) (s : State) : (notifyPorts code dom items l s).sec = s.sec :=
  (congrArg (fun t : State => t.sec) (notifyPorts_butNotes code dom items l s) :)
@[simp] theorem notify_pwr (code dom : Nat) (items : List Word) (s : State) : (notify code dom items s).pwr = s.pwr :=
  (congrArg (fun t : State => t.pwr) (notifyPorts_butNotes code dom items (toDom dom) s) :)
@[simp] theorem notifyOwner_pwr (code dom : Nat) (items : List Word) (s : State) : (notifyOwner code dom items s).pwr = s.pwr :=
  (congrArg (fun t : State => t.pwr) (notifyPorts_butNotes code dom items [0] s) :)
@[simp] theorem notifyPorts_pwr (code dom : Nat) (items : List Word) (l : List Nat) (s : State) : (notifyPorts code dom items l s).pwr = s.pwr :=
  (congrArg (fun t : State => t.pwr) (notifyPorts_butNotes code dom items l s) :)
@[simp] theorem notify_pending (code dom : Nat) (items : List Word) (s : State) : (notify code dom items s).pending = s.pending :=
  (congrArg (fun t : State => t.pending) (notifyPorts_butNotes code dom items (toDom dom) s) :)
@[simp] theorem notifyOwner_pending (code dom : Nat) (items : List Word) (s : State) : (notifyOwner code dom items s).pending = s.pending :=
  (congrArg (fun t : State => t.pending) (notifyPorts_butNotes code dom items [0] s) :)
@[simp] theorem notifyPorts_pending (code dom : Nat) (items : List Word) (l : List Nat) (s : State) : (notifyPorts code dom items l s).pending = s.pending :=
  (congrArg (fun t : State => t.pending) (notifyPorts_butNotes code dom items l s) :)
@[simp] theorem notify_dst_insts (code dom : Nat) (items : List Word) (s : State) : (notify code dom items s).dst.insts = s.dst.insts :=
  (congrArg (fun t : State => t.dst.insts) (notifyPorts_butNotes code dom items (toDom dom) s) :)
@[simp] theorem notifyOwner_dst_insts (code dom : Nat) (items : List Word) (s : State) : (notifyOwner code dom items s).dst.insts = s.dst.insts :=
  (congrArg (fun t : State => t.dst.insts) (notifyPorts_butNotes code dom items [0] s) :)
@[simp] theorem notifyPorts_dst_insts (code dom : Nat) (items : List Word) (l : List Nat) (s : State) : (notifyPorts code dom items l s).dst.insts = s.dst.insts :=
  (congrArg (fun t : State => t.dst.insts) (notifyPorts_butNotes code dom items l s) :)
@[simp] theorem notify_dst_map (code dom : Nat) (items : List Word) (s : State) : (notify code dom items s).dst.map = s.dst.map :=
  (congrArg (fun t : State => t.dst.map) (notifyPorts_butNotes code dom items (toDom dom) s) :)
@[simp] theorem notifyOwner_dst_map (code dom : Nat) (items : List Word) (s : State) : (notifyOwner code dom items s).dst.map = s.dst.map :=
  (congrArg (fun t : State => t.dst.map) (notifyPorts_butNotes code dom items [0] s) :)
@[simp] theorem notifyPorts_dst_map (code dom : Nat) (items : List Word) (l : List Nat) (s : State) : (notifyPorts code dom items l s).dst.map = s.dst.map :=
  (congrArg (fun t : State => t.dst.map) (notifyPorts_butNotes code dom items l s) :)
@[simp] theorem notify_dst_retRt (code dom : Nat) (items : List Word) (s : State) : (notify code dom items s).dst.retRt = s.dst.retRt :=
  (congrArg (fun t : State => t.dst.retRt) (notifyPorts_butNotes code dom items (toDom dom) s) :)
@[simp] theorem notifyOwner_dst_retRt (code dom : Nat) (items : List Word) (s : State) : (notifyOwner code dom items s).dst.retRt = s.dst.retRt :=
  (congrArg (fun t : State => t.dst.retRt) (notifyPorts_butNotes code dom items [0] s) :)
@[simp] theorem notifyPorts_dst_retRt (code dom : Nat) (items : List Word) (l : List Nat) (s : State) : (notifyPorts code dom items l s).dst.retRt = s.dst.retRt :=
  (congrArg (fun t : State => t.dst.retRt) (notifyPorts_butNotes code dom items l s) :)
@[simp] theorem notify_dst_mig (code dom : Nat) (items : List Word) (s : State) : (notify code dom items s).dst.mig = s.dst.mig :=
  (congrArg (fun t : State => t.dst.mig) (notifyPorts_butNotes code dom items (toDom dom) s) :)
@[simp] theorem notifyOwner_dst_mig (code dom : Nat) (items : List Word) (s : State) : (notifyOwner code dom items s).dst.mig = s.dst.mig :=
  (congrArg (fun t : State => t.dst.mig) (notifyPorts_butNotes code dom items [0] s) :)
@[simp] theorem notifyPorts_dst_mig (code dom : Nat) (items : List Word) (l : List Nat) (s : State) : (notifyPorts code dom items l s).dst.mig = s.dst.mig :=
  (congrArg (fun t : State => t.dst.mig) (notifyPorts_butNotes code dom items l s) :)
@[simp] theorem notify_dst_failing (code dom : Nat) (items : List Word) (s : State) : (notify code dom items s).dst.failing = s.dst.failing :=
  (congrArg (fun t : State => t.dst.failing) (notifyPorts_butNotes code dom items (toDom dom) s) :)
@[simp] theorem notifyOwner_dst_failing (code dom : Nat) (items : List Word) (s : State) : (notifyOwner code dom items s).dst.failing = s.dst.failing :=
  (congrArg (fun t : State => t.dst.failing) (notifyPorts_butNotes code dom items [0] s) :)
@[simp] theorem notifyPorts_dst_failing (code dom : Nat) (items : List Word) (l : List Nat) (s : State) : (notifyPorts code dom items l s).dst.failing = s.dst.failing :=
  (congrArg (fun t : State => t.dst.failing) (notifyPorts_butNotes code dom items l s) :)
@[simp] theorem notify_dst_temps (code dom : Nat) (items : List Word) (s : State) : (notify code dom items s).dst.temps = s.dst.temps :=
  (congrArg (fun t : State => t.dst.temps) (notifyPorts_butNotes code dom items (toDom dom) s) :)
@[simp] theorem notifyOwner_dst_temps (code dom : Nat) (items : List Word) (s : State) : (notifyOwner code dom items s).dst.temps = s.dst.temps :=
  (congrArg (fun t : State => t.dst.temps) (notifyPorts_butNotes code dom items [0] s) :)
@[simp] theorem notifyPorts_dst_temps (code dom : Nat) (items : List Word) (l : List Nat) (s : State) : (notifyPorts code dom items l s).dst.temps = s.dst.temps :=
  (congrArg (fun t : State => t.dst.temps) (notifyPorts_butNotes code dom items l s) :)
@[simp] theorem notify_dst_test (code dom : Nat) (items : List Word) (s : State) : (notify code dom items s).dst.test = s.dst.test :=
  (congrArg (fun t : State => t.dst.test) (notifyPorts_butNotes code dom items (toDom dom) s) :)
@[simp] theorem notifyOwner_dst_test (code dom : Nat) (items : List Word) (s : State) : (notifyOwner code dom items s).dst.test = s.dst.test :=
  (congrArg (fun t : State => t.dst.test) (notifyPorts_butNotes code dom items [0] s) :)
@[simp] theorem notifyPorts_dst_test (code dom : Nat) (items : List Word) (l : List Nat) (s : State) : (notifyPorts code dom items l s).dst.test = s.dst.test :=
  (congrArg (fun t : State => t.dst.test) (notifyPorts_butNotes code dom items l s) :)
@[simp] theorem notify_obs_cnts (code dom : Nat) (items : List Word) (s : State) : (notify code dom items s).obs.cnts = s.obs.cnts :=
  (congrArg (fun t : State => t.obs.cnts) (notifyPorts_butNotes code dom items (toDom dom) s) :)
@[simp] theorem notifyOwner_obs_cnts (code dom : Nat) (items : List Word) (s : State) : (notifyOwner code dom items s).obs.cnts = s.obs.cnts :=
  (congrArg (fun t : State => t.obs.cnts) (notifyPorts_butNotes code dom items [0] s) :)
@[simp] theorem notifyPorts_obs_cnts (code dom : Nat) (items : List Word) (l : List Nat) (s : State) : (notifyPorts code dom items l s).obs.cnts = s.obs.cnts :=
  (congrArg (fun t : State => t.obs.cnts) (notifyPorts_butNotes code dom items l s) :)
@[simp] theorem notify_obs_probes (code dom : Nat) (items : List Word) (s : State) : (notify code dom items s).obs.probes = s.obs.probes :=
  (congrArg (fun t : State => t.obs.probes) (notifyPorts_butNotes code dom items (toDom dom) s) :)
@[simp] theorem notifyOwner_obs_probes (code dom : Nat) (items : List Word) (s : State) : (notifyOwner code dom items s).obs.probes = s.obs.probes :=
  (congrArg (fun t : State => t.obs.probes) (notifyPorts_butNotes code dom items [0] s) :)
@[simp] theorem notifyPorts_obs_probes (code dom : Nat) (items : List Word) (l : List Nat) (s : State) : (notifyPorts code dom items l s).obs.probes = s.obs.probes :=
  (congrArg (fun t : State => t.obs.probes) (notifyPorts_butNotes code dom items l s) :)
@[simp] theorem notify_obs_order (code dom : Nat) (items : List Word) (s : State) : (notify code dom items s).obs.order = s.obs.order :=
  (congrArg (fun t : State => t.obs.order) (notifyPorts_butNotes code dom items (toDom dom) s) :)
@[simp] theorem notifyOwner_obs_order (code dom : Nat) (items : List Word) (s : State) : (notifyOwner code dom items s).obs.order = s.obs.order :=
  (congrArg (fun t : State => t.obs.order) (notifyPorts_butNotes code dom items [0] s) :)
@[simp] theorem notifyPorts_obs_order (code dom : Nat) (items : List Word) (l : List Nat) (s : State) : (notifyPorts code dom items l s).obs.order = s.obs.order :=
  (congrArg (fun t : State => t.obs.order) (notifyPorts_butNotes code dom items l s) :)
@[simp] theorem notify_obs_wptr (code dom : Nat) (items : List Word) (s : State) : (notify code dom items s).obs.wptr = s.obs.wptr :=
  (congrArg (fun t : State => t.obs.wptr) (notifyPorts_butNotes code dom items (toDom dom) s) :)
@[simp] theorem notifyOwner_obs_wptr (code dom : Nat) (items : List Word) (s : State) : (notifyOwner code dom items s).obs.wptr = s.obs.wptr :=
  (congrArg (fun t : State => t.obs.wptr) (notifyPorts_butNotes code dom items [0] s) :)
@[simp] theorem notifyPorts_obs_wptr (code dom : Nat) (items : List Word) (l : List Nat) (s : State) : (notifyPorts code dom items l s).obs.wptr = s.obs.wptr :=
  (congrArg (fun t : State => t.obs.wptr) (notifyPorts_butNotes code dom items l s) :)
@[simp] theorem notify_xng_xings (code dom : Nat) (items : List Word) (s : State) : (notify code dom items s).xng.xings = s.xng.xings :=
  (congrArg (fun t : State => t.xng.xings) (notifyPorts_butNotes code dom items (toDom dom) s) :)
@[simp] theorem notifyOwner_xng_xings (code dom : Nat) (items : List Word) (s : State) : (notifyOwner code dom items s).xng.xings = s.xng.xings :=
  (congrArg (fun t : State => t.xng.xings) (notifyPorts_butNotes code dom items [0] s) :)
@[simp] theorem notifyPorts_xng_xings (code dom : Nat) (items : List Word) (l : List Nat) (s : State) : (notifyPorts code dom items l s).xng.xings = s.xng.xings :=
  (congrArg (fun t : State => t.xng.xings) (notifyPorts_butNotes code dom items l s) :)
@[simp] theorem notify_memory_initDone (code dom : Nat) (items : List Word) (s : State) : (notify code dom items s).memory.initDone = s.memory.initDone :=
  (congrArg (fun t : State => t.memory.initDone) (notifyPorts_butNotes code dom items (toDom dom) s) :)
@[simp] theorem notifyOwner_memory_initDone (code dom : Nat) (items : List Word) (s : State) : (notifyOwner code dom items s).memory.initDone = s.memory.initDone :=
  (congrArg (fun t : State => t.memory.initDone) (notifyPorts_butNotes code dom items [0] s) :)
@[simp] theorem notifyPorts_memory_initDone (code dom : Nat) (items : List Word) (l : List Nat) (s : State) : (notifyPorts code dom items l s).memory.initDone = s.memory.initDone :=
  (congrArg (fun t : State => t.memory.initDone) (notifyPorts_butNotes code dom items l s) :)
@[simp] theorem notify_memory_ret (code dom : Nat) (items : List Word) (s : State) : (notify code dom items s).memory.ret = s.memory.ret :=
  (congrArg (fun t : State => t.memory.ret) (notifyPorts_butNotes code dom items (toDom dom) s) :)
@[simp] theorem notifyOwner_memory_ret (code dom : Nat) (items : List Word) (s : State) : (notifyOwner code dom items s).memory.ret = s.memory.ret :=
  (congrArg (fun t : State => t.memory.ret) (notifyPorts_butNotes code dom items [0] s) :)
@[simp] theorem notifyPorts_memory_ret (code dom : Nat) (items : List Word) (l : List Nat) (s : State) : (notifyPorts code dom items l s).memory.ret = s.memory.ret :=
  (congrArg (fun t : State => t.memory.ret) (notifyPorts_butNotes code dom items l s) :)
@[simp] theorem notify_memory_vret (code dom : Nat) (items : List Word) (s : State) : (notify code dom items s).memory.vret = s.memory.vret :=
  (congrArg (fun t : State => t.memory.vret) (notifyPorts_butNotes code dom items (toDom dom) s) :)
@[simp] theorem notifyOwner_memory_vret (code dom : Nat) (items : List Word) (s : State) : (notifyOwner code dom items s).memory.vret = s.memory.vret :=
  (congrArg (fun t : State => t.memory.vret) (notifyPorts_butNotes code dom items [0] s) :)
@[simp] theorem notifyPorts_memory_vret (code dom : Nat) (items : List Word) (l : List Nat) (s : State) : (notifyPorts code dom items l s).memory.vret = s.memory.vret :=
  (congrArg (fun t : State => t.memory.vret) (notifyPorts_butNotes code dom items l s) :)
@[simp] theorem notify_memory_bankTest (code dom : Nat) (items : List Word) (s : State) : (notify code dom items s).memory.bankTest = s.memory.bankTest :=
  (congrArg (fun t : State => t.memory.bankTest) (notifyPorts_butNotes code dom items (toDom dom) s) :)
@[simp] theorem notifyOwner_memory_bankTest (code dom : Nat) (items : List Word) (s : State) : (notifyOwner code dom items s).memory.bankTest = s.memory.bankTest :=
  (congrArg (fun t : State => t.memory.bankTest) (notifyPorts_butNotes code dom items [0] s) :)
@[simp] theorem notifyPorts_memory_bankTest (code dom : Nat) (items : List Word) (l : List Nat) (s : State) : (notifyPorts code dom items l s).memory.bankTest = s.memory.bankTest :=
  (congrArg (fun t : State => t.memory.bankTest) (notifyPorts_butNotes code dom items l s) :)
@[simp] theorem notify_host_mbox (code dom : Nat) (items : List Word) (s : State) : (notify code dom items s).host.mbox = s.host.mbox :=
  (congrArg (fun t : State => t.host.mbox) (notifyPorts_butNotes code dom items (toDom dom) s) :)
@[simp] theorem notifyOwner_host_mbox (code dom : Nat) (items : List Word) (s : State) : (notifyOwner code dom items s).host.mbox = s.host.mbox :=
  (congrArg (fun t : State => t.host.mbox) (notifyPorts_butNotes code dom items [0] s) :)
@[simp] theorem notifyPorts_host_mbox (code dom : Nat) (items : List Word) (l : List Nat) (s : State) : (notifyPorts code dom items l s).host.mbox = s.host.mbox :=
  (congrArg (fun t : State => t.host.mbox) (notifyPorts_butNotes code dom items l s) :)
@[simp] theorem notify_host_batch (code dom : Nat) (items : List Word) (s : State) : (notify code dom items s).host.batch = s.host.batch :=
  (congrArg (fun t : State => t.host.batch) (notifyPorts_butNotes code dom items (toDom dom) s) :)
@[simp] theorem notifyOwner_host_batch (code dom : Nat) (items : List Word) (s : State) : (notifyOwner code dom items s).host.batch = s.host.batch :=
  (congrArg (fun t : State => t.host.batch) (notifyPorts_butNotes code dom items [0] s) :)
@[simp] theorem notifyPorts_host_batch (code dom : Nat) (items : List Word) (l : List Nat) (s : State) : (notifyPorts code dom items l s).host.batch = s.host.batch :=
  (congrArg (fun t : State => t.host.batch) (notifyPorts_butNotes code dom items l s) :)
@[simp] theorem notify_host_accepted (code dom : Nat) (items : List Word) (s : State) : (notify code dom items s).host.accepted = s.host.accepted :=
  (congrArg (fun t : State => t.host.accepted) (notifyPorts_butNotes code dom items (toDom dom) s) :)
@[simp] theorem notifyOwner_host_accepted (code dom : Nat) (items : List Word) (s : State) : (notifyOwner code dom items s).host.accepted = s.host.accepted :=
  (congrArg (fun t : State => t.host.accepted) (notifyPorts_butNotes code dom items [0] s) :)
@[simp] theorem notifyPorts_host_accepted (code dom : Nat) (items : List Word) (l : List Nat) (s : State) : (notifyPorts code dom items l s).host.accepted = s.host.accepted :=
  (congrArg (fun t : State => t.host.accepted) (notifyPorts_butNotes code dom items l s) :)

end Sys2Proof.Machine
end

