-- ==== Sys2Proof/Laws/Evolve.lean ====
section
/-! SUPPORT. The relation that every operation of the part keeps between the state before and after (Ev): the queue stands,
canonical forms are kept, fuses only gain. The files Evolve<File>.lean hold one lemma per operation of Machine/<File>.lean,
Evolve/Exec the ones of the commands. -/
namespace Sys2Proof.Machine

/-- What every command keeps of a state: the queue, the canonical form of reel memory and of the register store, and the
fuses, which only gain. -/
structure Ev (s t : State) : Prop where
  pending : t.pending = s.pending
  mem : Memory.wf s.mem = true → Memory.wf t.mem = true
  regs : NMap.sorted s.regs = true → NMap.sorted t.regs = true
  fuse : s.sec.Good → t.sec.Good ∧ s.sec.fuses.Ext t.sec.fuses
theorem FuseSt.Ext.refl (f : FuseSt) : f.Ext f := ⟨fun _ _ _ h => h, fun _ h => h, Nat.le_refl _, id, id, fun _ h => h⟩
theorem Ev.refl (s : State) : Ev s s := ⟨rfl, id, id, fun h => ⟨h, FuseSt.Ext.refl _⟩⟩
theorem Ev.same {s t u : State} (h : Ev s t) (hp : u.pending = t.pending) (hm : u.mem = t.mem) (hr : u.regs = t.regs)
    (ho : u.sec.fuseOp = t.sec.fuseOp) (hf : u.sec.fuses = t.sec.fuses) : Ev s u := by
  refine ⟨hp.trans h.pending, fun a => hm ▸ h.mem a, fun a => hr ▸ h.regs a, fun a => ?_⟩
  have := h.fuse a
  exact ⟨⟨fun f e => hf ▸ this.1.op f (ho ▸ e)⟩, hf ▸ this.2⟩
variable {s0 s : State}
theorem Ev.trans {s t u : State} (h : Ev s t) (k : Ev t u) : Ev s u where
  pending := k.pending.trans h.pending
  mem a := k.mem (h.mem a)
  regs a := k.regs (h.regs a)
  fuse a := ⟨(k.fuse (h.fuse a).1).1, ⟨fun i x c e => (k.fuse (h.fuse a).1).2.slots i x (c.imp id (h.fuse a).2.owned) ((h.fuse a).2.slots i x c e),
    fun i e => (k.fuse (h.fuse a).1).2.revoked i ((h.fuse a).2.revoked i e),
    Nat.le_trans (h.fuse a).2.rollback (k.fuse (h.fuse a).1).2.rollback,
    fun e => (k.fuse (h.fuse a).1).2.owned ((h.fuse a).2.owned e),
    fun e => (k.fuse (h.fuse a).1).2.sealed ((h.fuse a).2.sealed e),
    fun i e => (k.fuse (h.fuse a).1).2.retired i ((h.fuse a).2.retired i e)⟩⟩
theorem ev_mk {s0 t : State} {d f a1 a2 a3 a4 a5 a6 a7 a8 a9 a10 a11 a12 a13 a14 a15 a16 a17} (h : Ev s0 t) :
    Ev s0 (State.mk t.regs d f t.mem a1 a2 a3 a4 a5 a6 a7 a8 a9 a10 a11 a12 a13 a14 t.sec a15 a16 a17 t.pending) :=
  h.same rfl rfl rfl rfl rfl
theorem ev_mkSec {s0 t : State} {x : SecSt} {d f a1 a2 a3 a4 a5 a6 a7 a8 a9 a10 a11 a12 a13 a14 a15 a16 a17} (h : Ev s0 t)
    (ho : x.fuseOp = t.sec.fuseOp) (hf : x.fuses = t.sec.fuses) :
    Ev s0 (State.mk t.regs d f t.mem a1 a2 a3 a4 a5 a6 a7 a8 a9 a10 a11 a12 a13 a14 x a15 a16 a17 t.pending) :=
  h.same rfl rfl rfl ho hf
theorem ev_foldl {α : Type} (l : List α) (f : State → α → State) (h : Ev s0 s) (hf : ∀ t x, Ev s0 t → Ev s0 (f t x)) :
    Ev s0 (l.foldl f s) := by
  induction l generalizing s with
  | nil => exact h
  | cons a t ih => exact ih (hf s a h)
theorem ev_of_pair {α : Type} {e : α × State} {d : α} {u : State} (he : e = (d, u)) (h : Ev s0 e.2) : Ev s0 u := by
  rw [he] at h; exact h
theorem ev_snd {α : Type} {d : α} (h : Ev s0 s) : Ev s0 (d, s).2 := h
theorem ev_foldl_snd {α β : Type} {l : List α} {f : β × State → α → β × State} {p : β × State} (h : Ev s0 p.2)
    (hf : ∀ p x, Ev s0 p.2 → Ev s0 (f p x).2) : Ev s0 (l.foldl f p).2 := by
  induction l generalizing p with
  | nil => exact h
  | cons a t ih => exact ih (hf p a h)
theorem ev_ite {c : Prop} [Decidable c] {a b : State} (h1 : c → Ev s0 a) (h2 : ¬c → Ev s0 b) : Ev s0 (if c then a else b) := by
  split
  · exact h1 ‹_›
  · exact h2 ‹_›
theorem ev_id (h : Ev s0 s) : Ev s0 (id s) := h
end Sys2Proof.Machine
end

