-- ==== Sys2Proof/Laws/EvolveOps.lean ====
section
/-! SUPPORT. Evolve: the operations of Machine/Ops.lean keep what Ev says. -/
set_option linter.unusedVariables false
namespace Sys2Proof.Machine
variable {s0 s : State}
theorem ev_State_setRegP {p : Nat} {r : Reg} {i j : Nat} {v : Word} (h : Ev s0 s) : Ev s0 (s.setRegP p r i j v) :=
  h.trans ⟨rfl, id, fun a => NMap.sorted_set _ _ _ _ a, fun a => ⟨a, FuseSt.Ext.refl _⟩⟩

theorem ev_State_setReg {s0 s : State} {r : Reg} {i : Nat} {v : Word} (hE : Ev s0 s)  : Ev s0 (State.setReg s r i v) := by
  unfold State.setReg
  repeat' (first | with_reducible assumption | with_reducible apply ev_State_setRegP)

theorem ev_State_bump {s0 s : State} {r : Reg} {i : Nat} {n : Nat} (hE : Ev s0 s)  : Ev s0 (State.bump s r i n) := by
  unfold State.bump
  repeat' (first | with_reducible assumption | with_reducible apply ev_State_setReg)

theorem ev_State_bumpP {s0 s : State} {p : Nat} {r : Reg} {n : Nat} (hE : Ev s0 s)  : Ev s0 (State.bumpP s p r n) := by
  unfold State.bumpP
  repeat' (first | with_reducible assumption | with_reducible apply ev_State_setRegP)

theorem ev_State_finish {s0 s : State} {st : Status} {data : List Word} (hE : Ev s0 s)  : Ev s0 (State.finish s st data) := by
  unfold State.finish
  repeat' (first | with_reducible assumption | intro _ | extract_lets | split | fail_if_no_progress (with_reducible apply ev_mk))

theorem ev_State_stat {s0 s : State} {st : Status} (hE : Ev s0 s)  : Ev s0 (State.stat s st) := by
  unfold State.stat
  repeat' (first | with_reducible assumption | with_reducible apply ev_State_finish)

theorem ev_State_nextFree {s0 s : State}  (hE : Ev s0 s)  : Ev s0 (State.nextFree s) := by
  unfold State.nextFree
  repeat' (first | with_reducible assumption | intro _ | extract_lets | split | fail_if_no_progress (with_reducible apply ev_mk))

theorem ev_State_putByte {a : Nat} {b : Byte} (h : Ev s0 s) : Ev s0 (s.putByte a b) :=
  h.trans ⟨rfl, fun a => NMap.wf_set _ _ _ _ a, id, fun a => ⟨a, FuseSt.Ext.refl _⟩⟩

theorem ev_State_putBytes {a : Nat} {l : List Byte} (h : Ev s0 s) : Ev s0 (s.putBytes a l) := by
  induction l generalizing s a with
  | nil => exact h
  | cons b t ih => exact ih (ev_State_putByte h)

theorem ev_State_freshCheck {n k : Nat} (h : Ev s0 s) : Ev s0 (s.freshCheck n k) := by
  induction k generalizing s n with
  | zero => exact h
  | succ k ih => exact ih (ev_mk h)

theorem ev_State_putWords {s0 s : State} {a : Nat} {ws : List Word} (hE : Ev s0 s)  : Ev s0 (State.putWords s a ws) := by
  unfold State.putWords
  repeat' (first | with_reducible assumption | with_reducible apply ev_State_putBytes | with_reducible apply ev_State_freshCheck)

theorem ev_tallyN {s0 s : State} {cls : Nat} {idx : Nat} {ev : Nat} {n : Nat} (hE : Ev s0 s)  : Ev s0 (tallyN cls idx ev n s) := by
  unfold tallyN
  repeat' (first | with_reducible assumption | intro _ | extract_lets | split | fail_if_no_progress (with_reducible apply ev_mk))

theorem ev_tally {s0 s : State} {cls : Nat} {idx : Nat} {ev : Nat} (hE : Ev s0 s)  : Ev s0 (tally cls idx ev s) := by
  unfold tally
  repeat' (first | with_reducible assumption | with_reducible apply ev_tallyN)

theorem ev_forEach {α : Type} {l : List α} {f : α → State → State} (h : Ev s0 s) (hf : ∀ x t, Ev s0 t → Ev s0 (f x t)) : Ev s0 (forEach l f s) := by
  unfold forEach
  induction l generalizing s with
  | nil => exact h
  | cons a t ih => exact ih (hf a s h)

end Sys2Proof.Machine
end

