-- ==== Sys2Proof/Laws/EvolveBanks.lean ====
section
/-! SUPPORT. Evolve: the operations of Machine/Banks.lean keep what Ev says. -/
set_option linter.unusedVariables false
namespace Sys2Proof.Machine
variable {s0 s : State}
theorem ev_State_onMem {s0 s : State} {f : MemSt → MemSt} (hE : Ev s0 s)  : Ev s0 (State.onMem s f) := by
  unfold State.onMem
  repeat' (first | with_reducible assumption | intro _ | extract_lets | split | fail_if_no_progress (with_reducible apply ev_mk))

theorem ev_State_setBank {s0 s : State} {b : Nat} {x : BankSt} (hE : Ev s0 s)  : Ev s0 (State.setBank s b x) := by
  unfold State.setBank
  repeat' (first | with_reducible assumption | with_reducible apply ev_State_onMem)

theorem ev_State_setSpool {s0 s : State} {n : Nat} {x : SpoolSt} (hE : Ev s0 s)  : Ev s0 (State.setSpool s n x) := by
  unfold State.setSpool
  repeat' (first | with_reducible assumption | intro _ | extract_lets | split | fail_if_no_progress (with_reducible apply ev_mk))

theorem ev_askWake {s0 s : State} {g : Nat} (hE : Ev s0 s)  : Ev s0 (askWake g s) := by
  unfold askWake
  repeat' (first | with_reducible assumption | with_reducible apply ev_State_onMem | intro _ | extract_lets | split)

theorem ev_whenAwake {s0 s : State} {n : Nat} {act : State → State} (hE : Ev s0 s) (hact : ∀  t, Ev s0 t → Ev s0 (act  t)) : Ev s0 (whenAwake n act s) := by
  unfold whenAwake
  repeat' (first | with_reducible assumption | with_reducible apply hact | with_reducible apply ev_forEach | with_reducible apply ev_askWake | intro _ | extract_lets | split)

theorem ev_State_setLane {s0 s : State} {n : Nat} {x : LaneSt} (hE : Ev s0 s)  : Ev s0 (State.setLane s n x) := by
  unfold State.setLane
  repeat' (first | with_reducible assumption | intro _ | extract_lets | split | fail_if_no_progress (with_reducible apply ev_mk))

theorem ev_stall {s0 s : State} {m : Nat} {n : Nat} (hE : Ev s0 s)  : Ev s0 (stall m n s) := by
  unfold stall
  repeat' (first | with_reducible assumption | with_reducible apply ev_State_onMem)

theorem ev_stallSlot {s0 s : State} {g : Nat} {ms : List Nat} (hE : Ev s0 s)  : Ev s0 (stallSlot g ms s) := by
  unfold stallSlot
  repeat' (first | with_reducible assumption | with_reducible apply ev_tallyN | with_reducible apply ev_forEach | with_reducible apply ev_stall | intro _ | extract_lets | split | fail_if_no_progress (with_reducible apply ev_mk))

theorem ev_slotPassed {s0 s : State} {b : Nat} (hE : Ev s0 s)  : Ev s0 (slotPassed b s) := by
  unfold slotPassed
  repeat' (first | with_reducible assumption | with_reducible apply ev_State_onMem)

theorem ev_testerSlots {b n : Nat} {also : List Nat} (h : Ev s0 s) : Ev s0 (testerSlots b also n s) := by
  induction n generalizing s with
  | zero => exact h
  | succ n ih =>
    unfold testerSlots
    split
    · exact ih (ev_slotPassed (ev_stallSlot h))
    · exact h

theorem ev_takeSlots {b master n : Nat} {also : List Nat} (h : Ev s0 s) : Ev s0 (takeSlots b master also n s) := by
  induction n generalizing s with
  | zero => exact h
  | succ n ih => exact ih (ev_slotPassed (ev_stallSlot (ev_testerSlots h)))

theorem ev_wakeIsl {s0 s : State} {isl : Nat} {idx : Nat} (hE : Ev s0 s)  : Ev s0 (wakeIsl isl idx s) := by
  unfold wakeIsl
  repeat' (first | with_reducible assumption | intro _ | extract_lets | split | fail_if_no_progress (with_reducible apply ev_mk))

theorem ev_takeSlot {s0 s : State} {w : Nat} {master : Nat} {also : List Nat} {n : Nat} (hE : Ev s0 s)  : Ev s0 (takeSlot w master also n s) := by
  unfold takeSlot
  repeat' (first | with_reducible assumption | with_reducible apply ev_tally | with_reducible apply ev_State_onMem | with_reducible apply ev_State_setBank | with_reducible apply ev_takeSlots | with_reducible apply ev_wakeIsl | intro _ | extract_lets | split | fail_if_no_progress (with_reducible apply ev_mk) | with_reducible apply ev_ite)

theorem ev_putReel {s0 s : State} {w : Nat} {d : DWord} (hE : Ev s0 s)  : Ev s0 (putReel w d s) := by
  unfold putReel
  repeat' (first | with_reducible assumption | with_reducible apply ev_State_putBytes | with_reducible apply ev_State_onMem)

end Sys2Proof.Machine
end

