-- ==== Sys2Proof/Laws/EvolveNotify.lean ====
section
/-! SUPPORT. Evolve: the operations of Machine/Notify.lean keep what Ev says. -/
set_option linter.unusedVariables false
namespace Sys2Proof.Machine
variable {s0 s : State}
theorem ev_State_setPort {s0 s : State} {p : Nat} {x : PortSt} (hE : Ev s0 s)  : Ev s0 (State.setPort s p x) := by
  unfold State.setPort
  repeat' (first | with_reducible assumption | intro _ | extract_lets | split | fail_if_no_progress (with_reducible apply ev_mk))

theorem ev_noticeWritten {s0 s : State} {p : Nat} (hE : Ev s0 s)  : Ev s0 (noticeWritten p s) := by
  unfold noticeWritten
  repeat' (first | with_reducible assumption | with_reducible apply ev_State_setRegP | with_reducible apply ev_State_setPort | intro _ | extract_lets | split)

theorem ev_soleSlot {s0 s : State} {p : Nat} {w : Nat} (hE : Ev s0 s)  : Ev s0 (soleSlot p w s) := by
  unfold soleSlot
  repeat' (first | with_reducible assumption | with_reducible apply ev_State_setBank | with_reducible apply ev_takeSlot | intro _ | extract_lets | split)

theorem ev_writeNotice {s0 s : State} {p : Nat} {code : Nat} {dom : Nat} {t : Tick} {items : List Word} (hE : Ev s0 s)  : Ev s0 (writeNotice p code dom t items s) := by
  unfold writeNotice
  repeat' (first | with_reducible assumption | with_reducible apply ev_forEach | with_reducible apply ev_State_onMem | with_reducible apply ev_State_setBank | with_reducible apply ev_putReel | with_reducible apply ev_noticeWritten | with_reducible apply ev_soleSlot | intro _ | extract_lets | split)

theorem ev_queueRecord {s0 s : State} {p : Nat} {code : Nat} {dom : Nat} {items : List Word} (hE : Ev s0 s)  : Ev s0 (queueRecord p code dom items s) := by
  unfold queueRecord
  repeat' (first | with_reducible assumption | with_reducible apply ev_State_bumpP | with_reducible apply ev_writeNotice | intro _ | extract_lets | split | fail_if_no_progress (with_reducible apply ev_mk))

theorem ev_writeEarly {s0 s : State}  (hE : Ev s0 s)  : Ev s0 (writeEarly s) := by
  unfold writeEarly
  repeat' (first | with_reducible assumption | with_reducible apply ev_forEach | with_reducible apply ev_writeNotice | intro _ | extract_lets | split | fail_if_no_progress (with_reducible apply ev_mk))

theorem ev_notifyPorts {code dom : Nat} {items : List Word} {l : List Nat} (h : Ev s0 s) : Ev s0 (notifyPorts code dom items l s) := by
  induction l generalizing s with
  | nil => exact h
  | cons p t ih =>
    unfold notifyPorts
    apply ih
    split
    · exact h
    · exact ev_queueRecord h

theorem ev_notify {s0 s : State} {code : Nat} {dom : Nat} {items : List Word} (hE : Ev s0 s)  : Ev s0 (notify code dom items s) := by
  unfold notify
  repeat' (first | with_reducible assumption | with_reducible apply ev_notifyPorts)

theorem ev_notifyOwner {s0 s : State} {code : Nat} {dom : Nat} {items : List Word} (hE : Ev s0 s)  : Ev s0 (notifyOwner code dom items s) := by
  unfold notifyOwner
  repeat' (first | with_reducible assumption | with_reducible apply ev_notifyPorts)

theorem ev_notifyOnce {s0 s : State} {code : Nat} {subj : Nat} {dom : Nat} {n : Nat} {items : List Word} (hE : Ev s0 s)  : Ev s0 (notifyOnce code subj dom n items s) := by
  unfold notifyOnce
  repeat' (first | with_reducible assumption | with_reducible apply ev_notify | intro _ | extract_lets | split | fail_if_no_progress (with_reducible apply ev_mk))

theorem ev_newInterval {s0 s : State}  (hE : Ev s0 s)  : Ev s0 (newInterval s) := by
  unfold newInterval
  repeat' (first | with_reducible assumption | with_reducible apply ev_foldl | with_reducible apply ev_foldl_snd | with_reducible apply ev_notify | intro _ | extract_lets | split | fail_if_no_progress (with_reducible apply ev_mk))

theorem ev_queueFault {s0 s : State} {cls : Nat} {idx : Nat} {dom : Nat} (hE : Ev s0 s)  : Ev s0 (queueFault cls idx dom s) := by
  unfold queueFault
  repeat' (first | with_reducible assumption | with_reducible apply ev_State_setReg | with_reducible apply ev_State_bump | with_reducible apply ev_notify)

end Sys2Proof.Machine
end

