-- ==== Sys2Proof/Laws/EvolveTile.lean ====
section
/-! SUPPORT. Evolve: the operations of Machine/Tile.lean keep what Ev says. -/
set_option linter.unusedVariables false
namespace Sys2Proof.Machine
variable {s0 s : State}
theorem ev_State_setTile {s0 s : State} {t : Nat} {x : TileSt} (hE : Ev s0 s)  : Ev s0 (State.setTile s t x) := by
  unfold State.setTile
  repeat' (first | with_reducible assumption | intro _ | extract_lets | split | fail_if_no_progress (with_reducible apply ev_mk))

theorem ev_State_onTile {s0 s : State} {t : Nat} {f : TileSt → TileSt} (hE : Ev s0 s)  : Ev s0 (State.onTile s t f) := by
  unfold State.onTile
  repeat' (first | with_reducible assumption | with_reducible apply ev_State_setTile)

theorem ev_raiseAcks {s0 s : State} {t : Nat} {ks : List Nat} (hE : Ev s0 s)  : Ev s0 (raiseAcks s t ks) := by
  unfold raiseAcks
  repeat' (first | with_reducible assumption | with_reducible apply ev_foldl | with_reducible apply ev_foldl_snd | with_reducible apply ev_State_onTile)

theorem ev_emit {s0 s : State} {t : Nat} {lo : Nat} {n : Nat} {v : Nat} (hE : Ev s0 s)  : Ev s0 (emit s t lo n v) := by
  unfold emit
  repeat' (first | with_reducible assumption | with_reducible apply ev_foldl | with_reducible apply ev_foldl_snd | with_reducible apply ev_State_onTile)

theorem ev_withdraw {s0 s : State} {t : Nat} (hE : Ev s0 s)  : Ev s0 (withdraw s t) := by
  unfold withdraw
  repeat' (first | with_reducible assumption | with_reducible apply ev_foldl | with_reducible apply ev_foldl_snd | with_reducible apply ev_State_setTile)

theorem ev_lowerAcks {s0 s : State} {t : Nat} (hE : Ev s0 s)  : Ev s0 (lowerAcks s t) := by
  unfold lowerAcks
  repeat' (first | with_reducible assumption | with_reducible apply ev_State_setTile)

theorem ev_presentQ {s0 s : State} {t : Nat} {q : Nat} (hE : Ev s0 s)  : Ev s0 (presentQ s t q) := by
  unfold presentQ
  repeat' (first | with_reducible assumption | with_reducible apply ev_State_onTile | with_reducible apply ev_emit | intro _ | extract_lets | split)

theorem ev_chainMove {n t : Nat} (h : Ev s0 s) : Ev s0 (chainMove n s t) := by
  induction n generalizing s with
  | zero => exact h
  | succ n ih =>
    unfold chainMove
    repeat' (first | with_reducible assumption | with_reducible apply ih | with_reducible apply ev_State_setTile | extract_lets | split)

theorem ev_settleTile {s0 s : State} {t : Nat} (hE : Ev s0 s)  : Ev s0 (settleTile s t) := by
  unfold settleTile
  repeat' (first | with_reducible assumption | with_reducible apply ev_presentQ | with_reducible apply ev_chainMove)

theorem ev_noteArb {s0 s : State} {t : Nat} (hE : Ev s0 s)  : Ev s0 (noteArb s t) := by
  unfold noteArb
  repeat' (first | with_reducible assumption | with_reducible apply ev_State_setTile | with_reducible apply ev_State_onTile | intro _ | extract_lets | split)

theorem ev_noteRam {s0 s : State} {t : Nat} (hE : Ev s0 s)  : Ev s0 (noteRam s t) := by
  unfold noteRam
  repeat' (first | with_reducible assumption | with_reducible apply ev_State_onTile)

theorem ev_settle {s0 s : State} {t : Nat} (hE : Ev s0 s)  : Ev s0 (settle t s) := by
  unfold settle
  repeat' (first | with_reducible assumption | with_reducible apply ev_foldl | with_reducible apply ev_foldl_snd | with_reducible apply ev_withdraw | with_reducible apply ev_lowerAcks | with_reducible apply ev_settleTile | with_reducible apply ev_noteArb | intro _ | with_reducible apply ev_noteRam)

theorem ev_settleRunning {s0 s : State} {t : Nat} (hE : Ev s0 s)  : Ev s0 (settleRunning t s) := by
  unfold settleRunning
  repeat' (first | with_reducible assumption | with_reducible apply ev_settle | intro _ | extract_lets | split)

end Sys2Proof.Machine
end

