-- ==== Sys2Proof/Laws/EvolveFabric.lean ====
section
/-! SUPPORT. Evolve: the operations of Machine/Fabric.lean keep what Ev says. -/
set_option linter.unusedVariables false
namespace Sys2Proof.Machine
variable {s0 s : State}
theorem ev_fireCell {s0 s : State} {t : Nat} {c : Nat} {v : Bool} {inputs : List Nat} (hE : Ev s0 s)  : Ev s0 (fireCell t c v inputs s) := by
  unfold fireCell
  repeat' (first | with_reducible assumption | with_reducible apply ev_State_onTile | with_reducible apply ev_raiseAcks | with_reducible apply ev_settle)

theorem ev_evalCell {s0 s : State} {t : Nat} {c : Nat} (hE : Ev s0 s)  : Ev s0 (evalCell t c s) := by
  unfold evalCell
  repeat' (first | with_reducible assumption | with_reducible apply ev_fireCell | intro _ | extract_lets | split)

theorem ev_forward {s0 s : State} {t : Nat} {c : Nat} {side : Nat} {v : Bool} (hE : Ev s0 s)  : Ev s0 (forward t c side v s) := by
  unfold forward
  repeat' (first | with_reducible assumption | with_reducible apply ev_fireCell)

theorem ev_mergeCell {s0 s : State} {t : Nat} {c : Nat} (hE : Ev s0 s)  : Ev s0 (mergeCell t c s) := by
  unfold mergeCell
  repeat' (first | with_reducible assumption | with_reducible apply ev_State_onTile | with_reducible apply ev_forward | intro _ | extract_lets | split)

theorem ev_arbCell {s0 s : State} {t : Nat} {c : Nat} {tie : Bool} (hE : Ev s0 s)  : Ev s0 (arbCell t c tie s) := by
  unfold arbCell
  repeat' (first | with_reducible assumption | with_reducible apply ev_State_nextFree | with_reducible apply ev_State_onTile | with_reducible apply ev_forward | intro _ | extract_lets | split | fail_if_no_progress (with_reducible apply ev_mk) | with_reducible apply ev_ite)

theorem ev_refillCell {s0 s : State} {t : Nat} {c : Nat} (hE : Ev s0 s)  : Ev s0 (refillCell t c s) := by
  unfold refillCell
  repeat' (first | with_reducible assumption | with_reducible apply ev_fireCell | intro _ | extract_lets | split)

theorem ev_sinkCell {s0 s : State} {t : Nat} {c : Nat} (hE : Ev s0 s)  : Ev s0 (sinkCell t c s) := by
  unfold sinkCell
  repeat' (first | with_reducible assumption | with_reducible apply ev_raiseAcks | with_reducible apply ev_settle | intro _ | extract_lets | split)

theorem ev_repeatConst {s0 s : State} {t : Nat} {k : Nat} (hE : Ev s0 s)  : Ev s0 (repeatConst t k s) := by
  unfold repeatConst
  repeat' (first | with_reducible assumption | with_reducible apply ev_State_onTile | with_reducible apply ev_settle | intro _ | extract_lets | split)

theorem ev_railFault {s0 s : State} {t : Nat} {k : Nat} (hE : Ev s0 s)  : Ev s0 (railFault t k s) := by
  unfold railFault
  repeat' (first | with_reducible assumption | with_reducible apply ev_State_bump | with_reducible apply ev_notify | with_reducible apply ev_State_onTile | intro _ | extract_lets | split)

theorem ev_ramPut {s0 s : State} {t : Nat} {a : Nat} {w : Word} (hE : Ev s0 s)  : Ev s0 (ramPut t a w s) := by
  unfold ramPut
  repeat' (first | with_reducible assumption | with_reducible apply ev_State_onTile)

theorem ev_ramGet {s0 s : State} {t : Nat} {a : Nat} (hE : Ev s0 s)  : Ev s0 (ramGet t a s).2 := by
  unfold ramGet
  repeat' (first | with_reducible assumption | with_reducible apply ev_State_bump | with_reducible apply ev_notify | with_reducible apply ev_State_onTile | intro _ | extract_lets | split)

theorem ev_ramPort {s0 s : State} {t : Nat} {portB : Bool} {met : Bool} (hE : Ev s0 s)  : Ev s0 (ramPort t portB met s) := by
  unfold ramPort
  repeat' (first | with_reducible assumption | with_reducible apply ev_State_onTile | with_reducible apply ev_raiseAcks | with_reducible apply ev_emit | with_reducible apply ev_settle | with_reducible apply ev_ramPut | with_reducible apply ev_ramGet | intro _ | extract_lets | split)

theorem ev_macUnit {s0 s : State} {t : Nat} {u : Nat} (hE : Ev s0 s)  : Ev s0 (macUnit t u s) := by
  unfold macUnit
  repeat' (first | with_reducible assumption | with_reducible apply ev_State_onTile | with_reducible apply ev_raiseAcks | with_reducible apply ev_emit | with_reducible apply ev_settle | intro _ | extract_lets | split | fail_if_no_progress (with_reducible apply ev_mk) | with_reducible apply ev_ite)

theorem ev_State_setTileQ {s0 s : State} {t : Nat} {q : Nat} {x : HQ (BitVec 36)} (hE : Ev s0 s)  : Ev s0 (State.setTileQ s t q x) := by
  unfold State.setTileQ
  repeat' (first | with_reducible assumption | with_reducible apply ev_State_onTile)

theorem ev_tileQFault {s0 s : State} {t : Nat} {q : Nat} (hE : Ev s0 s)  : Ev s0 (tileQFault t q s) := by
  unfold tileQFault
  repeat' (first | with_reducible assumption | with_reducible apply ev_queueFault | with_reducible apply ev_State_onTile)

theorem ev_popTileQ {s0 s : State} {t : Nat} {q : Nat} (hE : Ev s0 s)  : Ev s0 (popTileQ t q s) := by
  unfold popTileQ
  repeat' (first | with_reducible assumption | with_reducible apply ev_State_onTile | with_reducible apply ev_settle | with_reducible apply ev_State_setTileQ | with_reducible apply ev_tileQFault | intro _ | extract_lets | split)

theorem ev_takePush {s0 s : State} {t : Nat} {q : Nat} (hE : Ev s0 s)  : Ev s0 (takePush t q s) := by
  unfold takePush
  repeat' (first | with_reducible assumption | with_reducible apply ev_raiseAcks | with_reducible apply ev_settle | with_reducible apply ev_State_setTileQ | with_reducible apply ev_tileQFault | intro _ | extract_lets | split)

theorem ev_pushTileQ {s0 s : State} {t : Nat} {q : Nat} (hE : Ev s0 s)  : Ev s0 (pushTileQ t q s) := by
  unfold pushTileQ
  repeat' (first | with_reducible assumption | with_reducible apply ev_popTileQ | with_reducible apply ev_takePush | intro _ | extract_lets | split)

end Sys2Proof.Machine
end

