-- ==== Sys2Proof/Laws/EvolvePly.lean ====
section
/-! SUPPORT. Evolve: the operations of Machine/Ply.lean keep what Ev says. -/
set_option linter.unusedVariables false
namespace Sys2Proof.Machine
variable {s0 s : State}
theorem ev_State_setPlane {s0 s : State} {k : Nat} {x : PLane} (hE : Ev s0 s)  : Ev s0 (State.setPlane s k x) := by
  unfold State.setPlane
  repeat' (first | with_reducible assumption | intro _ | extract_lets | split | fail_if_no_progress (with_reducible apply ev_mk))

theorem ev_State_setHold {s0 s : State} {port : Nat} {dom : Nat} {x : HoldQ} (hE : Ev s0 s)  : Ev s0 (State.setHold s port dom x) := by
  unfold State.setHold
  repeat' (first | with_reducible assumption | intro _ | extract_lets | split | fail_if_no_progress (with_reducible apply ev_mk))

theorem ev_State_setInbox {s0 s : State} {k : Nat} {l : List Packet} (hE : Ev s0 s)  : Ev s0 (State.setInbox s k l) := by
  unfold State.setInbox
  repeat' (first | with_reducible assumption | intro _ | extract_lets | split | fail_if_no_progress (with_reducible apply ev_mk))

theorem ev_queueOut {s0 s : State} {port : Nat} {p : Packet} (hE : Ev s0 s)  : Ev s0 (queueOut port p s) := by
  unfold queueOut
  repeat' (first | with_reducible assumption | with_reducible apply ev_State_setPlane)

theorem ev_State_setXing {s0 s : State} {k : Nat} {x : XingSt} (hE : Ev s0 s)  : Ev s0 (State.setXing s k x) := by
  unfold State.setXing
  repeat' (first | with_reducible assumption | intro _ | extract_lets | split | fail_if_no_progress (with_reducible apply ev_mk))

theorem ev_send {s0 s : State} {p : Packet} (hE : Ev s0 s)  : Ev s0 (send p s) := by
  unfold send
  repeat' (first | with_reducible assumption | with_reducible apply ev_queueOut | intro _ | extract_lets | split)

theorem ev_respond {s0 s : State} {req : Packet} {status : Status} {ws : List Word} (hE : Ev s0 s)  : Ev s0 (respond req status ws s) := by
  unfold respond
  repeat' (first | with_reducible assumption | with_reducible apply ev_send)

theorem ev_answer {s0 s : State} {req : Packet} {status : Status} {ws : List Word} (hE : Ev s0 s)  : Ev s0 (answer req status ws s) := by
  unfold answer
  repeat' (first | with_reducible assumption | with_reducible apply ev_respond | intro _ | extract_lets | split)

theorem ev_splAnswer {s0 s : State} {c : SplCmd} {st : Status} {ws : List Word} (hE : Ev s0 s)  : Ev s0 (splAnswer c st ws s) := by
  unfold splAnswer
  repeat' (first | with_reducible assumption | with_reducible apply ev_foldl | with_reducible apply ev_foldl_snd | with_reducible apply ev_State_setRegP | with_reducible apply ev_State_finish | with_reducible apply ev_respond | intro _ | extract_lets | split)

theorem ev_State_setSlot {s0 s : State} {n : Nat} {i : Nat} {x : SlotSt} (hE : Ev s0 s)  : Ev s0 (State.setSlot s n i x) := by
  unfold State.setSlot
  repeat' (first | with_reducible assumption | with_reducible apply ev_State_setSpool)

theorem ev_noteSent {s0 s : State} {p : Packet} {is : Nat → Bool} {b : Option Nat} (hE : Ev s0 s)  : Ev s0 (noteSent p is b s) := by
  unfold noteSent
  repeat' (first | with_reducible assumption | with_reducible apply ev_State_setSlot | intro _ | extract_lets | split)

theorem ev_answerStops {s0 s : State} {n : Nat} {i : Nat} {run : Nat} (hE : Ev s0 s)  : Ev s0 (answerStops n i run s) := by
  unfold answerStops
  repeat' (first | with_reducible assumption | with_reducible apply ev_forEach | with_reducible apply ev_splAnswer | with_reducible apply ev_State_setSlot | intro _)

theorem ev_noteLast {s0 s : State} {p : Packet} (hE : Ev s0 s)  : Ev s0 (noteLast p s) := by
  unfold noteLast
  repeat' (first | with_reducible assumption | with_reducible apply ev_answerStops | intro _ | extract_lets | split)

theorem ev_slotEntered {s0 s : State} {p : Packet} (hE : Ev s0 s)  : Ev s0 (slotEntered p s) := by
  unfold slotEntered
  repeat' (first | with_reducible assumption | with_reducible apply ev_noteSent)

theorem ev_slotParked {s0 s : State} {p : Packet} (hE : Ev s0 s)  : Ev s0 (slotParked p s) := by
  unfold slotParked
  repeat' (first | with_reducible assumption | with_reducible apply ev_noteSent | with_reducible apply ev_noteLast)

theorem ev_slotLanded {s0 s : State} {p : Packet} (hE : Ev s0 s)  : Ev s0 (slotLanded p s) := by
  unfold slotLanded
  repeat' (first | with_reducible assumption | with_reducible apply ev_noteSent | with_reducible apply ev_noteLast)

theorem ev_slotRefused {s0 s : State} {stage : Nat} {p : Packet} (hE : Ev s0 s)  : Ev s0 (slotRefused stage p s) := by
  unfold slotRefused
  repeat' (first | with_reducible assumption | with_reducible apply ev_noteSent | with_reducible apply ev_noteLast)

theorem ev_State_onIfc {s0 s : State} {t : Nat} {f : TileIf → TileIf} (hE : Ev s0 s)  : Ev s0 (State.onIfc s t f) := by
  unfold State.onIfc
  repeat' (first | with_reducible assumption | with_reducible apply ev_State_onTile)

theorem ev_State_setMbox {s0 s : State} {d : Nat} {m : Nat} {x : Mbox} (hE : Ev s0 s)  : Ev s0 (State.setMbox s d m x) := by
  unfold State.setMbox
  repeat' (first | with_reducible assumption | intro _ | extract_lets | split | fail_if_no_progress (with_reducible apply ev_mk))

theorem ev_State_setChan {s0 s : State} {c : Nat} {x : ChanSt} (hE : Ev s0 s)  : Ev s0 (State.setChan s c x) := by
  unfold State.setChan
  repeat' (first | with_reducible assumption | intro _ | extract_lets | split | fail_if_no_progress (with_reducible apply ev_mk))

theorem ev_giveBack {s0 s : State} {c : Nat} {r : Report} (hE : Ev s0 s)  : Ev s0 (giveBack c r s) := by
  unfold giveBack
  repeat' (first | with_reducible assumption | with_reducible apply ev_State_setChan | intro _ | extract_lets | split)

theorem ev_laneRefused {s0 s : State} {c : Nat} {st : Status} (hE : Ev s0 s)  : Ev s0 (laneRefused c st s) := by
  unfold laneRefused
  repeat' (first | with_reducible assumption | with_reducible apply ev_State_bump | with_reducible apply ev_notifyOnce)

theorem ev_senseRefused {s0 s : State} {k : Nat} {st : Status} (hE : Ev s0 s)  : Ev s0 (senseRefused k st s) := by
  unfold senseRefused
  repeat' (first | with_reducible assumption | with_reducible apply ev_State_setReg | with_reducible apply ev_State_bump)

theorem ev_State_setQd {s0 s : State} {q : Nat} {x : QdSt} (hE : Ev s0 s)  : Ev s0 (State.setQd s q x) := by
  unfold State.setQd
  repeat' (first | with_reducible assumption | intro _ | extract_lets | split | fail_if_no_progress (with_reducible apply ev_mk))

theorem ev_sampleMissed {s0 s : State} {q : Nat} (hE : Ev s0 s)  : Ev s0 (sampleMissed q s) := by
  unfold sampleMissed
  repeat' (first | with_reducible assumption | with_reducible apply ev_State_setReg | with_reducible apply ev_State_setQd)

theorem ev_sampleLost {s0 s : State} {w : Word} (hE : Ev s0 s)  : Ev s0 (sampleLost w s) := by
  unfold sampleLost
  repeat' (first | with_reducible assumption | with_reducible apply ev_State_setQd)

theorem ev_State_setPin {s0 s : State} {p : Nat} {x : PinSt} (hE : Ev s0 s)  : Ev s0 (State.setPin s p x) := by
  unfold State.setPin
  repeat' (first | with_reducible assumption | intro _ | extract_lets | split | fail_if_no_progress (with_reducible apply ev_mk))

theorem ev_pinRefused {s0 s : State} {b : Nat} {w : Word} (hE : Ev s0 s)  : Ev s0 (pinRefused b w s) := by
  unfold pinRefused
  repeat' (first | with_reducible assumption | with_reducible apply ev_State_bump | with_reducible apply ev_State_setPin)

theorem ev_slotPacketRefused {s0 s : State} {n : Nat} {i : Nat} {run : Nat} {st : Status} (hE : Ev s0 s)  : Ev s0 (slotPacketRefused n i run st s) := by
  unfold slotPacketRefused
  repeat' (first | with_reducible assumption | with_reducible apply ev_notify | with_reducible apply ev_State_setSlot | with_reducible apply ev_answerStops | intro _ | extract_lets | split)

theorem ev_endpointRefused {s0 s : State} {p : Packet} {st : Status} (hE : Ev s0 s)  : Ev s0 (endpointRefused p st s) := by
  unfold endpointRefused
  repeat' (first | with_reducible assumption | with_reducible apply ev_giveBack | with_reducible apply ev_laneRefused | with_reducible apply ev_senseRefused | with_reducible apply ev_sampleMissed | with_reducible apply ev_sampleLost | with_reducible apply ev_pinRefused | intro _ | with_reducible apply ev_slotPacketRefused | intro _ | extract_lets | split)

theorem ev_recordRefusal {s0 s : State} {p : Packet} {st : Status} {isLocal : Bool} (hE : Ev s0 s)  : Ev s0 (recordRefusal p st isLocal s) := by
  unfold recordRefusal
  repeat' (first | with_reducible assumption | with_reducible apply ev_State_setReg | with_reducible apply ev_State_bump | with_reducible apply ev_notifyOnce | intro _ | extract_lets | split | fail_if_no_progress (with_reducible apply ev_mk) | with_reducible apply ev_ite | with_reducible apply ev_id | dsimp only | with_reducible refine ev_of_pair (by assumption) ?_ | dsimp +zetaDelta only)

theorem ev_refusalLost {s0 s : State} {p : Packet} {dom : Nat} (hE : Ev s0 s)  : Ev s0 (refusalLost p dom s) := by
  unfold refusalLost
  repeat' (first | with_reducible assumption | with_reducible apply ev_State_setReg | with_reducible apply ev_State_bump | with_reducible apply ev_notifyOnce | intro _ | extract_lets | split)

theorem ev_respToTile {s0 s : State} {t : Nat} {p : Packet} (hE : Ev s0 s)  : Ev s0 (respToTile t p s) := by
  unfold respToTile
  repeat' (first | with_reducible assumption | with_reducible apply ev_State_onIfc | with_reducible apply ev_refusalLost | intro _ | extract_lets | split)

theorem ev_respToMbox {s0 s : State} {d : Nat} {m : Nat} {p : Packet} (hE : Ev s0 s)  : Ev s0 (respToMbox d m p s) := by
  unfold respToMbox
  repeat' (first | with_reducible assumption | with_reducible apply ev_State_setMbox | with_reducible apply ev_refusalLost | intro _ | extract_lets | split)

theorem ev_refuseAtEntry {s0 s : State} {p : Packet} {st : Status} (hE : Ev s0 s)  : Ev s0 (refuseAtEntry p st s) := by
  unfold refuseAtEntry
  repeat' (first | with_reducible assumption | with_reducible apply ev_endpointRefused | with_reducible apply ev_recordRefusal | with_reducible apply ev_respToTile | with_reducible apply ev_respToMbox | intro _ | extract_lets | split)

theorem ev_refuseAtExit {s0 s : State} {p : Packet} {st : Status} (hE : Ev s0 s)  : Ev s0 (refuseAtExit p st s) := by
  unfold refuseAtExit
  repeat' (first | with_reducible assumption | with_reducible apply ev_send | with_reducible apply ev_slotLanded | with_reducible apply ev_endpointRefused | with_reducible apply ev_recordRefusal | intro _ | extract_lets | split)

theorem ev_queueRsp {s0 s : State} {p : Nat} {r : Rsp} (hE : Ev s0 s)  : Ev s0 (queueRsp p r s) := by
  unfold queueRsp
  repeat' (first | with_reducible assumption | with_reducible apply ev_State_setPort | with_reducible apply ev_queueFault | intro _ | extract_lets | split)

theorem ev_formRsp {s0 s : State} {p : Nat} {tag : Option Byte} {st : Status} {ws : List DWord} (hE : Ev s0 s)  : Ev s0 (formRsp p tag st ws s) := by
  unfold formRsp
  repeat' (first | with_reducible assumption | with_reducible apply ev_queueRsp | intro _ | extract_lets | split)

theorem ev_hostInjected {s0 s : State} {p : Packet} (hE : Ev s0 s)  : Ev s0 (hostInjected p s) := by
  unfold hostInjected
  repeat' (first | with_reducible assumption | with_reducible apply ev_State_setPort | with_reducible apply ev_formRsp | intro _ | extract_lets | split)

theorem ev_enterLane {s0 s : State} {port : Nat} {p : Packet} (hE : Ev s0 s)  : Ev s0 (enterLane port p s) := by
  unfold enterLane
  repeat' (first | with_reducible assumption | with_reducible apply ev_State_setPlane)

theorem ev_sampleHop {s0 s : State} {l : Nat} {peer : Nat} (hE : Ev s0 s)  : Ev s0 (sampleHop l peer s) := by
  unfold sampleHop
  repeat' (first | with_reducible assumption | intro _ | extract_lets | split | fail_if_no_progress (with_reducible apply ev_mk))

theorem ev_tallyInject {s0 s : State} {p : Packet} (hE : Ev s0 s)  : Ev s0 (tallyInject p s) := by
  unfold tallyInject
  repeat' (first | with_reducible assumption | with_reducible apply ev_tally | with_reducible apply ev_sampleHop | intro _ | extract_lets | split)

theorem ev_reserve_eq {s0 s u : State} {p : Packet} (e : reserve p s = some u) (hE : Ev s0 s)  : Ev s0 u := by
  unfold reserve at e
  repeat' (first | split at e | extract_lets at e)
  all_goals (simp at e)
  all_goals (subst e)
  all_goals (repeat' (first | with_reducible assumption | with_reducible apply ev_State_onIfc))

theorem ev_inject {s0 s : State} {port : Nat} {vc : Bool} {dom : Nat} (hE : Ev s0 s)  : Ev s0 (inject port vc dom s) := by
  unfold inject
  repeat' (first | with_reducible assumption | with_reducible apply ev_State_bump | with_reducible apply ev_notifyOnce | with_reducible apply ev_State_setPlane | with_reducible apply ev_State_setHold | with_reducible apply ev_slotEntered | with_reducible apply ev_slotParked | intro _ | with_reducible apply ev_slotRefused | with_reducible apply ev_refuseAtEntry | with_reducible apply ev_hostInjected | with_reducible apply ev_enterLane | with_reducible apply ev_tallyInject | with_reducible refine ev_reserve_eq (by assumption) ?_ | intro _ | extract_lets | split)

theorem ev_forwardHeld {s0 s : State} {port : Nat} {dom : Nat} (hE : Ev s0 s)  : Ev s0 (forwardHeld port dom s) := by
  unfold forwardHeld
  repeat' (first | with_reducible assumption | with_reducible apply ev_State_setHold | with_reducible apply ev_slotRefused | with_reducible apply ev_refuseAtEntry | with_reducible apply ev_enterLane | intro _ | extract_lets | split)

theorem ev_State_setAsm {s0 s : State} {k : Nat} {l : List Flit} (hE : Ev s0 s)  : Ev s0 (State.setAsm s k l) := by
  unfold State.setAsm
  repeat' (first | with_reducible assumption | intro _ | extract_lets | split | fail_if_no_progress (with_reducible apply ev_mk))

theorem ev_State_setOutArb {s0 s : State} {o : Nat} {x : OutArb} (hE : Ev s0 s)  : Ev s0 (State.setOutArb s o x) := by
  unfold State.setOutArb
  repeat' (first | with_reducible assumption | intro _ | extract_lets | split | fail_if_no_progress (with_reducible apply ev_mk))

theorem ev_landTile {s0 s : State} {t : Nat} {p : Packet} (hE : Ev s0 s)  : Ev s0 (landTile t p s) := by
  unfold landTile
  repeat' (first | with_reducible assumption | with_reducible apply ev_tally | with_reducible apply ev_noteRam | with_reducible apply ev_slotLanded | with_reducible apply ev_State_onIfc | with_reducible apply ev_respToTile | with_reducible apply ev_refuseAtExit | intro _ | with_reducible apply ev_sampleHop | intro _ | extract_lets | split)

theorem ev_toLocal {s0 s : State} {router : Nat} {vc : Bool} {dom : Nat} {f : Flit} (hE : Ev s0 s)  : Ev s0 (toLocal router vc dom f s) := by
  unfold toLocal
  repeat' (first | with_reducible assumption | with_reducible apply ev_State_setAsm | with_reducible apply ev_landTile | intro _ | extract_lets | split)

theorem ev_toRing {s0 s : State} {port : Nat} {vc : Bool} {dom : Fin 4} {f : Flit} (hE : Ev s0 s)  : Ev s0 (toRing port vc dom f s) := by
  unfold toRing
  repeat' (first | with_reducible assumption | with_reducible apply ev_wakeIsl | intro _ | extract_lets | split | fail_if_no_progress (with_reducible apply ev_mk))

theorem ev_moveFlit {s0 s : State} {router : Nat} {out : Nat} {i : Nat} {vc : Bool} {dom : Fin 4} {f : Flit} (hE : Ev s0 s)  : Ev s0 (moveFlit router out i vc dom f s) := by
  unfold moveFlit
  repeat' (first | with_reducible assumption | with_reducible apply ev_State_setPlane | with_reducible apply ev_toLocal | with_reducible apply ev_toRing | intro _ | extract_lets | split)

theorem ev_advance {s0 s : State} {router : Nat} {out : Nat} (hE : Ev s0 s)  : Ev s0 (advance router out s) := by
  unfold advance
  repeat' (first | with_reducible assumption | with_reducible apply ev_tally | with_reducible apply ev_State_setOutArb | with_reducible apply ev_moveFlit | intro _ | extract_lets | split)

theorem ev_landAttach {s0 s : State} {t : Target} {a : Nat} {port : Nat} {p : Packet} (hE : Ev s0 s)  : Ev s0 (landAttach t a port p s) := by
  unfold landAttach
  repeat' (first | with_reducible assumption | with_reducible apply ev_State_setInbox | intro _ | extract_lets | split | fail_if_no_progress (with_reducible apply ev_mk))

theorem ev_takeEntry {s0 s : State} {port : Nat} (hE : Ev s0 s)  : Ev s0 (takeEntry port s) := by
  unfold takeEntry
  repeat' (first | with_reducible assumption | with_reducible apply ev_State_setAsm | with_reducible apply ev_landAttach | intro _ | extract_lets | split | fail_if_no_progress (with_reducible apply ev_mk))

theorem ev_takeHead {s0 s : State} {port : Nat} {d : Nat} (hE : Ev s0 s)  : Ev s0 (takeHead port d s) := by
  unfold takeHead
  repeat' (first | with_reducible assumption | with_reducible apply ev_State_setInbox)

theorem ev_takeReqIf {s0 s : State} {ok : Packet → Bool} {port : Nat} (hE : Ev s0 s)  : Ev s0 (takeReqIf ok port s) := by
  unfold takeReqIf
  repeat' (first | with_reducible assumption | with_reducible apply ev_takeHead | intro _ | extract_lets | split | fail_if_no_progress (with_reducible apply ev_mk))

theorem ev_takeReq {s0 s : State} {port : Nat} (hE : Ev s0 s)  : Ev s0 (takeReq port s) := by
  unfold takeReq
  repeat' (first | with_reducible assumption | with_reducible apply ev_takeReqIf)

theorem ev_rxDone {s0 s : State} {t : Nat} {p : Packet} (hE : Ev s0 s)  : Ev s0 (rxDone t p s) := by
  unfold rxDone
  repeat' (first | with_reducible assumption | with_reducible apply ev_answer | with_reducible apply ev_State_onIfc | intro _ | extract_lets | split)

theorem ev_rxOffer {s0 s : State} {t : Nat} (hE : Ev s0 s)  : Ev s0 (rxOffer t s) := by
  unfold rxOffer
  repeat' (first | with_reducible assumption | with_reducible apply ev_emit | with_reducible apply ev_settle | with_reducible apply ev_State_onIfc | intro _ | extract_lets | split)

theorem ev_deliver {s0 s : State} {t : Nat} (hE : Ev s0 s)  : Ev s0 (deliver t s) := by
  unfold deliver
  repeat' (first | with_reducible assumption | with_reducible apply ev_rxDone | with_reducible apply ev_rxOffer | intro _ | extract_lets | split)

theorem ev_refuseLocal {s0 s : State} {t : Nat} {p : Packet} {st : Status} (hE : Ev s0 s)  : Ev s0 (refuseLocal t p st s) := by
  unfold refuseLocal
  repeat' (first | with_reducible assumption | with_reducible apply ev_State_onIfc | with_reducible apply ev_recordRefusal | with_reducible apply ev_refusalLost | intro _ | extract_lets | split)

theorem ev_txWord {s0 s : State} {t : Nat} (hE : Ev s0 s)  : Ev s0 (txWord t s) := by
  unfold txWord
  repeat' (first | with_reducible assumption | with_reducible apply ev_raiseAcks | with_reducible apply ev_settle | with_reducible apply ev_queueOut | with_reducible apply ev_State_onIfc | with_reducible apply ev_refuseLocal | intro _ | extract_lets | split)

theorem ev_winStep {s0 s : State} {t : Nat} {wr : Bool} {met : Bool} (hE : Ev s0 s)  : Ev s0 (winStep t wr met s) := by
  unfold winStep
  repeat' (first | with_reducible assumption | with_reducible apply ev_State_onTile | with_reducible apply ev_ramPut | with_reducible apply ev_ramGet | with_reducible apply ev_answer | with_reducible apply ev_State_onIfc | with_reducible apply ev_refuseAtExit | intro _ | extract_lets | split | fail_if_no_progress (with_reducible apply ev_mk) | with_reducible apply ev_ite | with_reducible apply ev_id | dsimp only | with_reducible refine ev_of_pair (by assumption) ?_)

theorem ev_winRead {s0 s : State} {t : Nat} {met : Bool} (hE : Ev s0 s)  : Ev s0 (winRead t met s) := by
  unfold winRead
  repeat' (first | with_reducible assumption | with_reducible apply ev_winStep)

theorem ev_winWrite {s0 s : State} {t : Nat} {met : Bool} (hE : Ev s0 s)  : Ev s0 (winWrite t met s) := by
  unfold winWrite
  repeat' (first | with_reducible assumption | with_reducible apply ev_winStep)

end Sys2Proof.Machine
end

