-- ==== Sys2Proof/Laws/EvolveAccess.lean ====
section
/-! SUPPORT. Evolve: the operations of Machine/Access.lean keep what Ev says. -/
set_option linter.unusedVariables false
namespace Sys2Proof.Machine
variable {s0 s : State}
theorem ev_State_putFields {s0 s : State} {p : Nat} {r : Reg} {i : Nat} {j : Nat} {v : Word} (hE : Ev s0 s)  : Ev s0 (State.putFields s p r i j v) := by
  unfold State.putFields
  repeat' (first | with_reducible assumption | with_reducible apply ev_State_setRegP)

theorem ev_ownerOnly {s0 s : State} {p : Nat} {act : State → State} (hE : Ev s0 s) (hact : ∀  t, Ev s0 t → Ev s0 (act  t)) : Ev s0 (ownerOnly p act s) := by
  unfold ownerOnly
  repeat' (first | with_reducible assumption | with_reducible apply hact | with_reducible apply ev_State_stat | intro _ | extract_lets | split)

theorem ev_okAfter {s0 s : State} {act : State → State} (hE : Ev s0 s) (hact : ∀  t, Ev s0 t → Ev s0 (act  t)) : Ev s0 (okAfter act s) := by
  unfold okAfter
  repeat' (first | with_reducible assumption | with_reducible apply hact | with_reducible apply ev_State_stat)

theorem ev_checked {s0 s : State} {l : List Status} {act : State → State} (hE : Ev s0 s) (hact : ∀  t, Ev s0 t → Ev s0 (act  t)) : Ev s0 (checked l act s) := by
  unfold checked
  repeat' (first | with_reducible assumption | with_reducible apply hact | with_reducible apply ev_State_stat | with_reducible apply ev_okAfter | intro _ | extract_lets | split)

theorem ev_served {s0 s : State} {act : State → State} (hE : Ev s0 s) (hact : ∀  t, Ev s0 t → Ev s0 (act  t)) : Ev s0 (served act s) := by
  unfold served
  repeat' (first | with_reducible assumption | with_reducible apply hact | with_reducible apply ev_State_stat | intro _ | extract_lets | split)

theorem ev_servedRead {s0 s : State} {act : State → State} (hE : Ev s0 s) (hact : ∀  t, Ev s0 t → Ev s0 (act  t)) : Ev s0 (servedRead act s) := by
  unfold servedRead
  repeat' (first | with_reducible assumption | with_reducible apply hact | with_reducible apply ev_State_finish | intro _ | extract_lets | split)

theorem ev_xingLast {s0 s : State} {event : Nat} {k : Nat} (hE : Ev s0 s)  : Ev s0 (xingLast event k s) := by
  unfold xingLast
  repeat' (first | with_reducible assumption | with_reducible apply ev_State_setReg)

theorem ev_agree {s0 s : State} {isl : Nat} (hE : Ev s0 s)  : Ev s0 (agree isl s) := by
  unfold agree
  repeat' (first | with_reducible assumption | with_reducible apply ev_forEach | with_reducible apply ev_State_setXing | intro _ | extract_lets | split)

theorem ev_readFrom {s0 s : State} {isl : Nat} {idx : Nat} {ws : List Word} (hE : Ev s0 s)  : Ev s0 (readFrom isl idx ws s) := by
  unfold readFrom
  repeat' (first | with_reducible assumption | with_reducible apply ev_State_finish)

theorem ev_restartTallies {s0 s : State} {isl : Nat} {idx : Nat} (hE : Ev s0 s)  : Ev s0 (restartTallies isl idx s) := by
  unfold restartTallies
  repeat' (first | with_reducible assumption | with_reducible apply ev_tally | intro _ | extract_lets | split | fail_if_no_progress (with_reducible apply ev_mk))

theorem ev_cutXing {s0 s : State} {k : Nat} (hE : Ev s0 s)  : Ev s0 (cutXing k s) := by
  unfold cutXing
  repeat' (first | with_reducible assumption | with_reducible apply ev_forEach | with_reducible apply ev_State_setAsm | intro _ | extract_lets | split | fail_if_no_progress (with_reducible apply ev_mk))

theorem ev_wakePeers {s0 s : State} {k : Nat} (hE : Ev s0 s)  : Ev s0 (wakePeers k s) := by
  unfold wakePeers
  repeat' (first | with_reducible assumption | with_reducible apply ev_wakeIsl | intro _ | extract_lets | split)

theorem ev_peerReset {s0 s : State} {k : Nat} (hE : Ev s0 s)  : Ev s0 (peerReset k s) := by
  unfold peerReset
  repeat' (first | with_reducible assumption | with_reducible apply ev_State_bump | with_reducible apply ev_notifyOwner | with_reducible apply ev_State_setXing | with_reducible apply ev_xingLast | with_reducible apply ev_restartTallies | with_reducible apply ev_cutXing | intro _ | with_reducible apply ev_wakePeers | intro _ | extract_lets | split)

end Sys2Proof.Machine
end

