-- ==== Sys2Proof/Laws/EvolveMemory.lean ====
section
/-! SUPPORT. Evolve: the operations of Machine/Memory.lean keep what Ev says. -/
set_option linter.unusedVariables false
namespace Sys2Proof.Machine
variable {s0 s : State}
theorem ev_memDenied {s0 s : State} {d : Nat} (hE : Ev s0 s)  : Ev s0 (memDenied d s) := by
  unfold memDenied
  repeat' (first | with_reducible assumption | with_reducible apply ev_State_bump | with_reducible apply ev_notifyOnce)

theorem ev_corrected {s0 s : State} {w : Nat} (hE : Ev s0 s)  : Ev s0 (corrected w s) := by
  unfold corrected
  repeat' (first | with_reducible assumption | with_reducible apply ev_State_bump | with_reducible apply ev_tally | with_reducible apply ev_State_onMem | with_reducible apply ev_notifyOnce)

theorem ev_uncorrectable {s0 s : State} {w : Nat} {master : Nat} {dom : Nat} {tester : Bool} (hE : Ev s0 s)  : Ev s0 (uncorrectable w master dom tester s) := by
  unfold uncorrectable
  repeat' (first | with_reducible assumption | with_reducible apply ev_State_setReg | with_reducible apply ev_State_bump | with_reducible apply ev_State_nextFree | with_reducible apply ev_notify)

theorem ev_eccRead {s0 s : State} {w : Nat} {master : Nat} {dom : Nat} (hE : Ev s0 s)  : Ev s0 (eccRead w master dom s).2 := by
  unfold eccRead
  repeat' (first | with_reducible assumption | with_reducible apply ev_corrected | with_reducible apply ev_uncorrectable | intro _ | extract_lets | split)

theorem ev_writeBack {s0 s : State} {b : Nat} (hE : Ev s0 s)  : Ev s0 (writeBack b s) := by
  unfold writeBack
  repeat' (first | with_reducible assumption | with_reducible apply ev_putReel | intro _ | extract_lets | split)

theorem ev_answerOp {s0 s : State} {o : MemOp} (hE : Ev s0 s)  : Ev s0 (answerOp o s) := by
  unfold answerOp
  repeat' (first | with_reducible assumption | with_reducible apply ev_noticeWritten | with_reducible apply ev_answer | with_reducible apply ev_refuseAtExit | with_reducible apply ev_formRsp | intro _ | extract_lets | split)

theorem ev_flushOps {n : Nat} {o : MemOp} (h : Ev s0 s) : Ev s0 (flushOps n o s) := by
  induction n generalizing s with
  | zero => exact h
  | succ n ih =>
    unfold flushOps
    repeat' (first | with_reducible assumption | with_reducible apply ih | with_reducible apply ev_answerOp | with_reducible apply ev_State_onMem | split)

theorem ev_finishOp {s0 s : State} {id : Nat} (hE : Ev s0 s)  : Ev s0 (finishOp id s) := by
  unfold finishOp
  repeat' (first | with_reducible assumption | with_reducible apply ev_State_onMem | with_reducible apply ev_answerOp | with_reducible apply ev_flushOps | intro _ | extract_lets | split)

theorem ev_failOp {s0 s : State} {id : Nat} (hE : Ev s0 s)  : Ev s0 (failOp id s) := by
  unfold failOp
  repeat' (first | with_reducible assumption | with_reducible apply ev_State_onMem | with_reducible apply ev_finishOp)

theorem ev_wordDone {s0 s : State} {id : Nat} {w : Nat} {d : Option DWord} (hE : Ev s0 s)  : Ev s0 (wordDone id w d s) := by
  unfold wordDone
  repeat' (first | with_reducible assumption | with_reducible apply ev_State_onMem | with_reducible apply ev_finishOp | intro _ | extract_lets | split)

theorem ev_performReq {s0 s : State} {r : WordReq} {o : MemOp} (hE : Ev s0 s)  : Ev s0 (performReq r o s) := by
  unfold performReq
  repeat' (first | with_reducible assumption | with_reducible apply ev_State_nextFree | with_reducible apply ev_putReel | with_reducible apply ev_eccRead | with_reducible apply ev_wordDone | intro _ | extract_lets | split | fail_if_no_progress (with_reducible apply ev_mk) | with_reducible apply ev_ite | with_reducible apply ev_id | dsimp only | with_reducible refine ev_of_pair (by assumption) ?_)

theorem ev_bankFault {s0 s : State} {b : Nat} {master : Nat} {cls : Nat} (hE : Ev s0 s)  : Ev s0 (bankFault b master cls s) := by
  unfold bankFault
  repeat' (first | with_reducible assumption | with_reducible apply ev_forEach | with_reducible apply ev_State_setBank | with_reducible apply ev_queueFault | with_reducible apply ev_failOp | intro _)

theorem ev_pushReq {s0 s : State} {master : Nat} {cls : Nat} {r : WordReq} (hE : Ev s0 s)  : Ev s0 (pushReq master cls r s) := by
  unfold pushReq
  repeat' (first | with_reducible assumption | with_reducible apply ev_State_setBank | with_reducible apply ev_failOp | with_reducible apply ev_bankFault | intro _ | extract_lets | split)

theorem ev_startOp {s0 s : State} {op : MemOp} {bs : List Byte} (hE : Ev s0 s)  : Ev s0 (startOp op bs s) := by
  unfold startOp
  repeat' (first | with_reducible assumption | with_reducible apply ev_forEach | with_reducible apply ev_State_onMem | with_reducible apply ev_pushReq | intro _)

theorem ev_serveReq {s0 s : State} {b : Nat} {master : Nat} {cls : Nat} {n : Nat} {also : List Nat} (hE : Ev s0 s)  : Ev s0 (serveReq b master cls n also s) := by
  unfold serveReq
  repeat' (first | with_reducible assumption | with_reducible apply ev_State_setBank | with_reducible apply ev_takeSlot | with_reducible apply ev_performReq | with_reducible apply ev_bankFault | intro _ | extract_lets | split)

theorem ev_serveOne {s0 s : State} {b : Nat} {t : Turn} {also : List Nat} (hE : Ev s0 s)  : Ev s0 (serveOne b t also s) := by
  unfold serveOne
  repeat' (first | with_reducible assumption | with_reducible apply ev_State_setLane | with_reducible apply ev_takeSlot | with_reducible apply ev_serveReq | intro _ | extract_lets | split)

theorem ev_serveTurn {s0 s : State} {b : Nat} {t : Turn} {also : List Nat} (hE : Ev s0 s)  : Ev s0 (serveTurn b t also s) := by
  unfold serveTurn
  repeat' (first | with_reducible assumption | with_reducible apply ev_State_setBank | with_reducible apply ev_served | with_reducible apply ev_serveOne)

theorem ev_serveNext {s0 s : State} {b : Nat} (hE : Ev s0 s)  : Ev s0 (serveNext b s) := by
  unfold serveNext
  repeat' (first | with_reducible assumption | with_reducible apply ev_serveOne | with_reducible apply ev_serveTurn | intro _ | extract_lets | split)

theorem ev_enterRet {s0 s : State} {g : Nat} (hE : Ev s0 s)  : Ev s0 (enterRet g s) := by
  unfold enterRet
  repeat' (first | with_reducible assumption | with_reducible apply ev_State_onMem | intro _ | extract_lets | split)

theorem ev_accessBank {s0 s : State} {b : Nat} (hE : Ev s0 s)  : Ev s0 (accessBank b s) := by
  unfold accessBank
  repeat' (first | with_reducible assumption | with_reducible apply ev_askWake | with_reducible apply ev_serveNext | with_reducible apply ev_enterRet | intro _ | extract_lets | split)

theorem ev_askSlot {w master n : Nat} {cls : Option Nat} (h : Ev s0 s) : Ev s0 (askSlot w cls master n s) := by
  induction n generalizing s with
  | zero => exact ev_takeSlot h
  | succ n ih =>
    unfold askSlot
    extract_lets
    split
    · exact ev_takeSlot h
    · split
      · exact ev_takeSlot h
      · split
        · exact ev_takeSlot (ev_State_setBank h)
        · exact ih (ev_serveTurn h)

theorem ev_slotFor {w cls master : Nat} (h : Ev s0 s) : Ev s0 (slotFor w cls master s).2 := by
  unfold slotFor
  extract_lets
  split
  · exact ev_bankFault h
  · exact ev_askSlot h

theorem ev_readReel {s0 s : State} {cls : Nat} {master : Nat} {dom : Nat} {w : Nat} (hE : Ev s0 s)  : Ev s0 (readReel cls master dom w s).2 := by
  unfold readReel
  repeat' (first | with_reducible assumption | with_reducible apply ev_eccRead | with_reducible apply ev_slotFor | intro _ | extract_lets | split | fail_if_no_progress (with_reducible apply ev_mk) | with_reducible apply ev_ite | with_reducible apply ev_id | dsimp only | with_reducible refine ev_of_pair (by assumption) ?_)

theorem ev_readReels {cls master dom w n : Nat} (h : Ev s0 s) : Ev s0 (readReels cls master dom w n s).2 := by
  induction n generalizing s w with
  | zero => exact h
  | succ n ih =>
    unfold readReels
    have h1 : Ev s0 (readReel cls master dom w s).2 := ev_readReel h
    split
    · rename_i e; rw [e] at h1; exact h1
    · rename_i e
      rw [e] at h1
      have h2 := ih (w := w + 1) h1
      split
      · rename_i e2; rw [e2] at h2; exact h2
      · rename_i e2; rw [e2] at h2; exact h2

theorem ev_writeReelAs {s0 s : State} {cls : Nat} {master : Nat} {w : Nat} {d : DWord} (hE : Ev s0 s)  : Ev s0 (writeReelAs cls master w d s) := by
  unfold writeReelAs
  repeat' (first | with_reducible assumption | with_reducible apply ev_putReel | with_reducible apply ev_askSlot)

theorem ev_writeWordsAs {cls master : Nat} :
    ∀ {a : Nat} {l : List Word} {s : State}, Ev s0 s → Ev s0 (writeWordsAs cls master a l s)
  | _, [], _, h => h
  | _, [_], _, h => h
  | _, _ :: _ :: _, _, h => by
    unfold writeWordsAs
    exact ev_writeWordsAs (ev_writeReelAs h)

theorem ev_gatewayOp {s0 s : State} {g : Nat} {k : Nat} {ops : List (BitVec 4)} (hE : Ev s0 s)  : Ev s0 (gatewayOp g k ops s) := by
  unfold gatewayOp
  repeat' (first | with_reducible assumption | with_reducible apply ev_State_onMem | with_reducible apply ev_takeReqIf | with_reducible apply ev_memDenied | with_reducible apply ev_finishOp | with_reducible apply ev_startOp | intro _ | extract_lets | split)

theorem ev_initDone (h : Ev s0 s) : Ev s0 (initDone s) := by
  unfold initDone
  split
  · exact h
  · exact ev_writeEarly (h.trans ⟨rfl, fun _ => rfl, id, fun a => ⟨a, FuseSt.Ext.refl _⟩⟩)

theorem ev_saveWord {s0 s : State} {w : Nat} (hE : Ev s0 s)  : Ev s0 (saveWord w s) := by
  unfold saveWord
  repeat' (first | with_reducible assumption | with_reducible apply ev_putReel | with_reducible apply ev_corrected | with_reducible apply ev_uncorrectable | intro _ | extract_lets | split)

theorem ev_startRegion {s0 s : State} {g : Nat} {b : Nat} {region : Nat} {req : Bool} (hE : Ev s0 s)  : Ev s0 (startRegion g b region req s) := by
  unfold startRegion
  repeat' (first | with_reducible assumption | with_reducible apply ev_forEach | with_reducible apply ev_State_onMem | with_reducible apply ev_saveWord | intro _)

theorem ev_bgStart {s0 s : State}  (hE : Ev s0 s)  : Ev s0 (bgStart s) := by
  unfold bgStart
  repeat' (first | with_reducible assumption | with_reducible apply ev_State_onMem | with_reducible apply ev_startRegion | intro _ | extract_lets | split)

theorem ev_bankTestEnd {s0 s : State} {t : BankTest} {st : Status} (hE : Ev s0 s)  : Ev s0 (bankTestEnd t st s) := by
  unfold bankTestEnd
  repeat' (first | with_reducible assumption | with_reducible apply ev_State_setReg | with_reducible apply ev_State_onMem | with_reducible apply ev_notifyOwner)

theorem ev_regionEnd {s0 s : State} {fail : Bool} (hE : Ev s0 s)  : Ev s0 (regionEnd fail s) := by
  unfold regionEnd
  repeat' (first | with_reducible assumption | with_reducible apply ev_State_setReg | with_reducible apply ev_State_bump | with_reducible apply ev_tallyN | with_reducible apply ev_State_onMem | with_reducible apply ev_notifyOwner | with_reducible apply ev_enterRet | intro _ | with_reducible apply ev_bankTestEnd | intro _ | extract_lets | split)

theorem ev_bankTestStart {s0 s : State} {g : Nat} {b : Nat} (hE : Ev s0 s)  : Ev s0 (bankTestStart g b s) := by
  unfold bankTestStart
  repeat' (first | with_reducible assumption | with_reducible apply ev_State_setReg | with_reducible apply ev_State_stat | with_reducible apply ev_State_onMem | with_reducible apply ev_wakeIsl | intro _ | extract_lets | split)

theorem ev_bankTestStop {s0 s : State}  (hE : Ev s0 s)  : Ev s0 (bankTestStop s) := by
  unfold bankTestStop
  repeat' (first | with_reducible assumption | with_reducible apply ev_State_stat | with_reducible apply ev_bankTestEnd | intro _ | extract_lets | split)

theorem ev_bankTestNext {s0 s : State}  (hE : Ev s0 s)  : Ev s0 (bankTestNext s) := by
  unfold bankTestNext
  repeat' (first | with_reducible assumption | with_reducible apply ev_State_onMem | with_reducible apply ev_startRegion | intro _ | extract_lets | split)

theorem ev_memCtl {s0 s : State} {v : Word} (hE : Ev s0 s)  : Ev s0 (memCtl v s) := by
  unfold memCtl
  repeat' (first | with_reducible assumption | with_reducible apply ev_foldl | with_reducible apply ev_foldl_snd | with_reducible apply ev_State_setReg | with_reducible apply ev_State_stat | with_reducible apply ev_forEach | with_reducible apply ev_State_onMem | intro _ | with_reducible apply ev_wakeIsl | with_reducible apply ev_enterRet | intro _)

theorem ev_groupWake {s0 s : State} {g : Nat} (hE : Ev s0 s)  : Ev s0 (groupWake g s) := by
  unfold groupWake
  repeat' (first | with_reducible assumption | with_reducible apply ev_State_onMem | with_reducible apply ev_accessBank | with_reducible apply ev_memCtl | intro _ | extract_lets | split)

theorem ev_groupSleep {s0 s : State} {g : Nat} (hE : Ev s0 s)  : Ev s0 (groupSleep g s) := by
  unfold groupSleep
  repeat' (first | with_reducible assumption | with_reducible apply ev_enterRet | intro _ | extract_lets | split)

end Sys2Proof.Machine
end

