-- ==== Sys2Proof/Laws/EvolveLedger.lean ====
section
/-! SUPPORT. Evolve: the operations of Machine/Ledger.lean keep what Ev says. -/
set_option linter.unusedVariables false
namespace Sys2Proof.Machine
variable {s0 s : State}
theorem ev_State_onSec {f : SecSt → SecSt} (h : Ev s0 s) (ho : (f s.sec).fuseOp = s.sec.fuseOp) (hf : (f s.sec).fuses = s.sec.fuses) :
    Ev s0 (s.onSec f) := h.same rfl rfl rfl ho hf

theorem ev_appendRecord {s0 s : State} {ws : List Word} (hE : Ev s0 s)  : Ev s0 (appendRecord ws s) := by
  unfold appendRecord
  repeat' (first | with_reducible assumption | with_reducible apply ev_writeWordsAs | with_reducible refine ev_State_onSec ?_ rfl rfl)

theorem ev_loseRecord {s0 s : State}  (hE : Ev s0 s)  : Ev s0 (loseRecord s) := by
  unfold loseRecord
  repeat' (first | with_reducible assumption | with_reducible apply ev_State_bump | with_reducible apply ev_notifyOnce | with_reducible refine ev_State_onSec ?_ rfl rfl)

theorem ev_lostFirst {s0 s : State}  (hE : Ev s0 s)  : Ev s0 (lostFirst s) := by
  unfold lostFirst
  repeat' (first | with_reducible assumption | with_reducible refine ev_State_onSec ?_ rfl rfl | with_reducible apply ev_appendRecord | intro _ | extract_lets | split)

theorem ev_writeRecord {s0 s : State} {ws : List Word} (hE : Ev s0 s)  : Ev s0 (writeRecord ws s) := by
  unfold writeRecord
  repeat' (first | with_reducible assumption | with_reducible apply ev_appendRecord | with_reducible apply ev_loseRecord | with_reducible apply ev_lostFirst | intro _ | extract_lets | split)

theorem ev_addRecord {s0 s : State} {ws : List Word} (hE : Ev s0 s)  : Ev s0 (addRecord ws s) := by
  unfold addRecord
  repeat' (first | with_reducible assumption | with_reducible refine ev_State_onSec ?_ rfl rfl | with_reducible apply ev_loseRecord | with_reducible apply ev_writeRecord | intro _ | extract_lets | split)

theorem ev_ledgerRecord {s0 s : State} {typ : Nat} {dom : Nat} {prt : Nat} {spool : Nat} {w1 : Nat} {body : List Word} {digest : List Byte} (hE : Ev s0 s)  : Ev s0 (ledgerRecord typ dom prt spool w1 body digest s) := by
  unfold ledgerRecord
  repeat' (first | with_reducible assumption | with_reducible apply ev_addRecord)

theorem ev_flushHeld {s0 s : State}  (hE : Ev s0 s)  : Ev s0 (flushHeld s) := by
  unfold flushHeld
  repeat' (first | with_reducible assumption | with_reducible apply ev_forEach | with_reducible refine ev_State_onSec ?_ rfl rfl | with_reducible apply ev_writeRecord | intro _)

theorem ev_segmentWait {s0 s : State}  (hE : Ev s0 s)  : Ev s0 (segmentWait s) := by
  unfold segmentWait
  repeat' (first | with_reducible assumption | with_reducible apply ev_notifyOwner | with_reducible refine ev_State_onSec ?_ rfl rfl | intro _ | extract_lets | split)

theorem ev_flushSegs {n : Nat} (h : Ev s0 s) : Ev s0 (flushSegs n s) := by
  induction n generalizing s with
  | zero => exact h
  | succ n ih =>
    unfold flushSegs
    split
    · exact h
    · split
      · exact ih (ev_addRecord (ev_State_onSec h rfl rfl))
      · exact h

theorem ev_waitOver {s0 s : State}  (hE : Ev s0 s)  : Ev s0 (waitOver s) := by
  unfold waitOver
  repeat' (first | with_reducible assumption | with_reducible refine ev_State_onSec ?_ rfl rfl | with_reducible apply ev_flushSegs | intro _ | extract_lets | split)

theorem ev_addSegment {s0 s : State} {ws : List Word} (hE : Ev s0 s)  : Ev s0 (addSegment ws s) := by
  unfold addSegment
  repeat' (first | with_reducible assumption | with_reducible refine ev_State_onSec ?_ rfl rfl | with_reducible apply ev_addRecord | with_reducible apply ev_segmentWait | intro _ | extract_lets | split)

end Sys2Proof.Machine
end

