-- ==== Sys2Proof/Laws/EvolveIntegrity.lean ====
section
/-! SUPPORT. Evolve: the operations of Machine/Integrity.lean keep what Ev says. -/
set_option linter.unusedVariables false
namespace Sys2Proof.Machine
variable {s0 s : State}
theorem ev_State_setCfg {s0 s : State} {key : Nat} {v : Word} (hE : Ev s0 s)  : Ev s0 (State.setCfg s key v) := by
  unfold State.setCfg
  repeat' (first | with_reducible assumption | intro _ | extract_lets | split | fail_if_no_progress (with_reducible apply ev_mk))

theorem ev_State_freshFrame {s0 s : State} {f : Nat} (hE : Ev s0 s)  : Ev s0 (State.freshFrame s f) := by
  unfold State.freshFrame
  repeat' (first | with_reducible assumption | intro _ | extract_lets | split | fail_if_no_progress (with_reducible apply ev_mk))

theorem ev_writeFrame {s0 s : State} {f : Nat} {ws : List Word} (hE : Ev s0 s)  : Ev s0 (writeFrame f ws s) := by
  unfold writeFrame
  repeat' (first | with_reducible assumption | with_reducible apply ev_foldl | with_reducible apply ev_foldl_snd | with_reducible apply ev_State_setCfg | with_reducible apply ev_State_freshFrame | intro _)

theorem ev_writeEss {s0 s : State} {f : Nat} {d : DWord} (hE : Ev s0 s)  : Ev s0 (writeEss f d s) := by
  unfold writeEss
  repeat' (first | with_reducible assumption | with_reducible apply ev_writeReelAs)

theorem ev_readEss {s0 s : State} {f : Nat} (hE : Ev s0 s)  : Ev s0 (readEss f s).2 := by
  unfold readEss
  repeat' (first | with_reducible assumption | with_reducible apply ev_State_nextFree | with_reducible apply ev_readReel | intro _ | extract_lets | split | fail_if_no_progress (with_reducible apply ev_mk) | with_reducible apply ev_ite | with_reducible apply ev_id | dsimp only | with_reducible refine ev_of_pair (by assumption) ?_)

theorem ev_State_onScrub {s0 s : State} {f : ScrubSt → ScrubSt} (hE : Ev s0 s)  : Ev s0 (State.onScrub s f) := by
  unfold State.onScrub
  repeat' (first | with_reducible assumption | intro _ | extract_lets | split | fail_if_no_progress (with_reducible apply ev_mk))

theorem ev_renewTile {s0 s : State} {t : Nat} (hE : Ev s0 s)  : Ev s0 (renewTile t s) := by
  unfold renewTile
  repeat' (first | with_reducible assumption | with_reducible apply ev_State_onScrub)

theorem ev_clearFrames {s0 s : State} {t : Nat} (hE : Ev s0 s)  : Ev s0 (clearFrames t s) := by
  unfold clearFrames
  repeat' (first | with_reducible assumption | with_reducible apply ev_foldl | with_reducible apply ev_foldl_snd | with_reducible apply ev_writeEss | with_reducible apply ev_renewTile | intro _ | extract_lets | split | fail_if_no_progress (with_reducible apply ev_mk))

theorem ev_clearTile {s0 s : State} {t : Nat} (hE : Ev s0 s)  : Ev s0 (clearTile t s) := by
  unfold clearTile
  repeat' (first | with_reducible assumption | with_reducible apply ev_State_setTile | with_reducible apply ev_clearFrames)

theorem ev_State_onInst {s0 s : State} {base : Nat} {f : Inst → Inst} (hE : Ev s0 s)  : Ev s0 (State.onInst s base f) := by
  unfold State.onInst
  repeat' (first | with_reducible assumption | intro _ | extract_lets | split | fail_if_no_progress (with_reducible apply ev_mk))

theorem ev_setClean {s0 s : State} {f : Nat} (hE : Ev s0 s)  : Ev s0 (setClean f s) := by
  unfold setClean
  repeat' (first | with_reducible assumption | with_reducible apply ev_State_onScrub)

theorem ev_lastErr {s0 s : State} {kind : Nat} {f : Nat} {w : Nat} (hE : Ev s0 s)  : Ev s0 (lastErr kind f w s) := by
  unfold lastErr
  repeat' (first | with_reducible assumption | with_reducible apply ev_State_setReg)

theorem ev_markFailing {s0 s : State} {t : Nat} {cause : Nat} (hE : Ev s0 s)  : Ev s0 (markFailing t cause s) := by
  unfold markFailing
  repeat' (first | with_reducible assumption | with_reducible apply ev_notify | intro _ | extract_lets | split | fail_if_no_progress (with_reducible apply ev_mk))

theorem ev_suspectWindow {s0 s : State} {i : Inst} {f : Nat} {w : Nat} (hE : Ev s0 s)  : Ev s0 (suspectWindow i f w s) := by
  unfold suspectWindow
  repeat' (first | with_reducible assumption | with_reducible apply ev_State_bump | with_reducible apply ev_notify | with_reducible apply ev_ledgerRecord | with_reducible apply ev_lastErr)

theorem ev_countStuck {s0 s : State} {f : Nat} {w : Nat} (hE : Ev s0 s)  : Ev s0 (countStuck f w s) := by
  unfold countStuck
  repeat' (first | with_reducible assumption | with_reducible apply ev_State_onScrub | with_reducible apply ev_markFailing | intro _ | extract_lets | split)

theorem ev_frameMended {s0 s : State} {f : Nat} (hE : Ev s0 s)  : Ev s0 (frameMended f s) := by
  unfold frameMended
  repeat' (first | with_reducible assumption | with_reducible apply ev_forEach | with_reducible apply ev_State_onTile | with_reducible apply ev_settleRunning | intro _)

theorem ev_repairBit {s0 s : State} {f : Nat} {b : Nat} (hE : Ev s0 s)  : Ev s0 (repairBit f b s) := by
  unfold repairBit
  repeat' (first | with_reducible assumption | with_reducible apply ev_State_bump | with_reducible apply ev_State_setCfg | with_reducible apply ev_State_freshFrame | intro _ | extract_lets | split)

theorem ev_correctFrame {s0 s : State} {f : Nat} {b : Nat} (hE : Ev s0 s)  : Ev s0 (correctFrame f b s) := by
  unfold correctFrame
  repeat' (first | with_reducible assumption | with_reducible apply ev_State_setReg | with_reducible apply ev_notifyOnce | with_reducible apply ev_readEss | with_reducible apply ev_State_onScrub | with_reducible apply ev_setClean | with_reducible apply ev_lastErr | intro _ | with_reducible apply ev_suspectWindow | with_reducible apply ev_countStuck | with_reducible apply ev_frameMended | with_reducible apply ev_repairBit | intro _ | extract_lets | split)

theorem ev_scrubFault {s0 s : State} {cause : Nat} {triple : Nat} (hE : Ev s0 s)  : Ev s0 (scrubFault cause triple s) := by
  unfold scrubFault
  repeat' (first | with_reducible assumption | with_reducible apply ev_State_setReg | with_reducible apply ev_notifyPorts | with_reducible apply ev_ledgerRecord | with_reducible apply ev_State_onScrub | intro _ | extract_lets | split)

theorem ev_repeatedLoss {s0 s : State} {t : Nat} (hE : Ev s0 s)  : Ev s0 (repeatedLoss t s) := by
  unfold repeatedLoss
  repeat' (first | with_reducible assumption | with_reducible apply ev_State_onScrub | with_reducible apply ev_markFailing | intro _ | extract_lets | split)

theorem ev_damageInst {s0 s : State} {i : Inst} {f : Nat} (hE : Ev s0 s)  : Ev s0 (damageInst i f s) := by
  unfold damageInst
  repeat' (first | with_reducible assumption | with_reducible apply ev_notify | with_reducible apply ev_ledgerRecord | with_reducible apply ev_State_onScrub | with_reducible apply ev_State_onInst | with_reducible apply ev_repeatedLoss | intro _ | extract_lets | split)

theorem ev_uncorrFrame {s0 s : State} {f : Nat} (hE : Ev s0 s)  : Ev s0 (uncorrFrame f s) := by
  unfold uncorrFrame
  repeat' (first | with_reducible assumption | with_reducible apply ev_State_bump | with_reducible apply ev_writeFrame | with_reducible apply ev_State_onScrub | with_reducible apply ev_lastErr | with_reducible apply ev_scrubFault | with_reducible apply ev_repeatedLoss | intro _ | with_reducible apply ev_damageInst | intro _ | extract_lets | split)

theorem ev_closeWindows {s0 s : State} {base : Nat} {dom : Nat} (hE : Ev s0 s)  : Ev s0 (closeWindows base dom s) := by
  unfold closeWindows
  repeat' (first | with_reducible assumption | with_reducible apply ev_forEach | with_reducible apply ev_ledgerRecord | with_reducible apply ev_State_onScrub | with_reducible apply ev_State_onInst | intro _)

theorem ev_notifyWire {s0 s : State} {code : Nat} {id : Nat} (hE : Ev s0 s)  : Ev s0 (notifyWire code id s) := by
  unfold notifyWire
  repeat' (first | with_reducible assumption | with_reducible apply ev_notifyPorts)

theorem ev_releaseWire {s0 s : State} {id : Nat} (hE : Ev s0 s)  : Ev s0 (releaseWire id s) := by
  unfold releaseWire
  repeat' (first | with_reducible assumption | with_reducible apply ev_settle | with_reducible apply ev_notifyWire | intro _ | extract_lets | split | fail_if_no_progress (with_reducible apply ev_mk))

theorem ev_releaseClean {s0 s : State}  (hE : Ev s0 s)  : Ev s0 (releaseClean s) := by
  unfold releaseClean
  repeat' (first | with_reducible assumption | with_reducible apply ev_forEach | with_reducible apply ev_releaseWire | intro _ | extract_lets | split | fail_if_no_progress (with_reducible apply ev_mk))

end Sys2Proof.Machine
end

