-- ==== Sys2Proof/Laws/EvolveDistaff.lean ====
section
/-! SUPPORT. Evolve: the operations of Machine/Distaff.lean keep what Ev says. -/
set_option linter.unusedVariables false
namespace Sys2Proof.Machine
variable {s0 s : State}
theorem ev_State_onDst {s0 s : State} {f : DstSt → DstSt} (hE : Ev s0 s)  : Ev s0 (State.onDst s f) := by
  unfold State.onDst
  repeat' (first | with_reducible assumption | intro _ | extract_lets | split | fail_if_no_progress (with_reducible apply ev_mk))

theorem ev_writeEdges {s0 s : State} {i : Inst} (hE : Ev s0 s)  : Ev s0 (writeEdges i s) := by
  unfold writeEdges
  repeat' (first | with_reducible assumption | with_reducible apply ev_forEach | with_reducible apply ev_State_setCfg | with_reducible apply ev_State_freshFrame | intro _)

theorem ev_mapInst {s0 s : State} {i : Inst} (hE : Ev s0 s)  : Ev s0 (mapInst i s) := by
  unfold mapInst
  repeat' (first | with_reducible assumption | with_reducible apply ev_foldl | with_reducible apply ev_foldl_snd | with_reducible apply ev_State_onDst)

theorem ev_unmapInst {s0 s : State} {i : Inst} (hE : Ev s0 s)  : Ev s0 (unmapInst i s) := by
  unfold unmapInst
  repeat' (first | with_reducible assumption | with_reducible apply ev_foldl | with_reducible apply ev_foldl_snd | with_reducible apply ev_State_onDst)

theorem ev_setFence {s0 s : State} {i : Inst} {b : Bool} (hE : Ev s0 s)  : Ev s0 (setFence i b s) := by
  unfold setFence
  repeat' (first | with_reducible assumption | with_reducible apply ev_foldl | with_reducible apply ev_foldl_snd | with_reducible apply ev_State_onDst)

theorem ev_bistReport {s0 s : State} {t : Nat} {st : Status} {unit : Nat} (hE : Ev s0 s)  : Ev s0 (bistReport t st unit s) := by
  unfold bistReport
  repeat' (first | with_reducible assumption | with_reducible apply ev_State_setReg | with_reducible apply ev_notifyOwner)

theorem ev_testGap {s0 s : State}  (hE : Ev s0 s)  : Ev s0 (testGap s) := by
  unfold testGap
  repeat' (first | with_reducible assumption | with_reducible apply ev_State_onDst)

theorem ev_abandonTest {s0 s : State}  (hE : Ev s0 s)  : Ev s0 (abandonTest s) := by
  unfold abandonTest
  repeat' (first | with_reducible assumption | with_reducible apply ev_clearTile | with_reducible apply ev_State_onDst | with_reducible apply ev_bistReport | with_reducible apply ev_testGap | intro _ | extract_lets | split)

theorem ev_startMig {s0 s : State} {i : Inst} {reason : Nat} {c : Nat} {r : Nat} {prt : Option (Fin 4)} {test : Option Nat} (hE : Ev s0 s)  : Ev s0 (startMig i reason c r prt test s) := by
  unfold startMig
  repeat' (first | with_reducible assumption | with_reducible apply ev_tally | with_reducible apply ev_State_onDst)

theorem ev_lastMig {s0 s : State} {m : Mig} {st : Status} (hE : Ev s0 s)  : Ev s0 (lastMig m st s) := by
  unfold lastMig
  repeat' (first | with_reducible assumption | with_reducible apply ev_State_setReg | with_reducible apply ev_State_onInst)

theorem ev_migStat {s0 s : State} {m : Mig} {st : Status} (hE : Ev s0 s)  : Ev s0 (migStat m st s) := by
  unfold migStat
  repeat' (first | with_reducible assumption | with_reducible apply ev_State_setRegP | intro _ | extract_lets | split)

theorem ev_abortMig {s0 s : State} {st : Status} {unmov : Bool} (hE : Ev s0 s)  : Ev s0 (abortMig st unmov s) := by
  unfold abortMig
  repeat' (first | with_reducible assumption | with_reducible apply ev_State_bump | with_reducible apply ev_tally | with_reducible apply ev_forEach | with_reducible apply ev_notify | with_reducible apply ev_settleRunning | with_reducible apply ev_clearTile | intro _ | with_reducible apply ev_State_onInst | with_reducible apply ev_State_onDst | with_reducible apply ev_setFence | with_reducible apply ev_bistReport | with_reducible apply ev_lastMig | with_reducible apply ev_migStat | intro _ | extract_lets | split | fail_if_no_progress (with_reducible apply ev_mk) | with_reducible apply ev_ite)

theorem ev_retireNow {s0 s : State} {e : RetEnt} (hE : Ev s0 s)  : Ev s0 (retireNow e s) := by
  unfold retireNow
  repeat' (first | with_reducible assumption | with_reducible apply ev_notifyOwner | with_reducible apply ev_State_onDst | intro _ | extract_lets | split)

theorem ev_setFailing {s0 s : State} {i : Inst} (hE : Ev s0 s)  : Ev s0 (setFailing i s) := by
  unfold setFailing
  repeat' (first | with_reducible assumption | with_reducible apply ev_State_onInst)

theorem ev_tellFailing {s0 s : State} {t : Nat} {v : BitVec 2} (hE : Ev s0 s)  : Ev s0 (tellFailing t v s) := by
  unfold tellFailing
  repeat' (first | with_reducible assumption | with_reducible apply ev_State_onDst)

theorem ev_evacuate {s0 s : State} {eval : Bool} {i : Inst} {e : RetEnt} (hE : Ev s0 s)  : Ev s0 (evacuate eval i e s) := by
  unfold evacuate
  repeat' (first | with_reducible assumption | with_reducible apply ev_notify | with_reducible apply ev_abandonTest | with_reducible apply ev_startMig | with_reducible apply ev_setFailing | with_reducible apply ev_tellFailing | intro _ | extract_lets | split)

theorem ev_actFailing {s0 s : State} {eval : Bool} {e : RetEnt} (hE : Ev s0 s)  : Ev s0 (actFailing eval e s) := by
  unfold actFailing
  repeat' (first | with_reducible assumption | with_reducible apply ev_abandonTest | with_reducible apply ev_retireNow | with_reducible apply ev_evacuate | intro _ | extract_lets | split)

theorem ev_serveFailing {s0 s : State}  (hE : Ev s0 s)  : Ev s0 (serveFailing s) := by
  unfold serveFailing
  repeat' (first | with_reducible assumption | with_reducible apply ev_forEach | with_reducible apply ev_actFailing | intro _)

theorem ev_retryFailing {s0 s : State}  (hE : Ev s0 s)  : Ev s0 (retryFailing s) := by
  unfold retryFailing
  repeat' (first | with_reducible assumption | with_reducible apply ev_forEach | with_reducible apply ev_actFailing | intro _)

theorem ev_failTile {s0 s : State} {t : Nat} {cause : Nat} (hE : Ev s0 s)  : Ev s0 (failTile t cause s) := by
  unfold failTile
  repeat' (first | with_reducible assumption | with_reducible apply ev_markFailing | with_reducible apply ev_serveFailing)

theorem ev_sendSeals {s0 s : State} {i : Inst} (hE : Ev s0 s)  : Ev s0 (sendSeals i s) := by
  unfold sendSeals
  repeat' (first | with_reducible assumption | with_reducible apply ev_forEach | with_reducible apply ev_enterLane | intro _)

theorem ev_decide1 {s0 s : State}  (hE : Ev s0 s)  : Ev s0 (decide1 s) := by
  unfold decide1
  repeat' (first | with_reducible assumption | with_reducible apply ev_State_onDst | with_reducible apply ev_setFence | with_reducible apply ev_abortMig | with_reducible apply ev_sendSeals | intro _ | extract_lets | split)

theorem ev_beginCopy {s0 s : State}  (hE : Ev s0 s)  : Ev s0 (beginCopy s) := by
  unfold beginCopy
  repeat' (first | with_reducible assumption | with_reducible apply ev_State_onDst | intro _ | extract_lets | split)

theorem ev_quiesceTimeout {s0 s : State}  (hE : Ev s0 s)  : Ev s0 (quiesceTimeout s) := by
  unfold quiesceTimeout
  repeat' (first | with_reducible assumption | with_reducible apply ev_abortMig | with_reducible apply ev_serveFailing | intro _ | extract_lets | split)

theorem ev_readSource {s0 s : State} {t : Nat} (hE : Ev s0 s)  : Ev s0 (readSource t s).2 := by
  unfold readSource
  repeat' (first | with_reducible assumption | with_reducible apply ev_foldl | with_reducible apply ev_foldl_snd | with_reducible apply ev_correctFrame | intro _ | extract_lets | split)

theorem ev_copyFrame {s0 s : State} {a : Nat} {b : Nat} {m : Nat} (hE : Ev s0 s)  : Ev s0 (copyFrame a b m s) := by
  unfold copyFrame
  repeat' (first | with_reducible assumption | with_reducible apply ev_writeFrame | with_reducible apply ev_writeEss | with_reducible apply ev_readEss | with_reducible apply ev_State_onScrub)

theorem ev_copyTile {s0 s : State} {a : Nat} {b : Nat} (hE : Ev s0 s)  : Ev s0 (copyTile a b s) := by
  unfold copyTile
  repeat' (first | with_reducible assumption | with_reducible apply ev_forEach | with_reducible apply ev_State_setTile | with_reducible apply ev_State_setPlane | with_reducible apply ev_State_setHold | with_reducible apply ev_copyFrame | intro _)

theorem ev_commitMig {s0 s : State} {m : Mig} {i : Inst} (hE : Ev s0 s)  : Ev s0 (commitMig m i s) := by
  unfold commitMig
  repeat' (first | with_reducible assumption | with_reducible apply ev_State_bump | with_reducible apply ev_forEach | with_reducible apply ev_settleRunning | with_reducible apply ev_State_onInst | with_reducible apply ev_State_onDst | with_reducible apply ev_writeEdges | intro _ | with_reducible apply ev_mapInst | with_reducible apply ev_setFence | with_reducible apply ev_migStat | with_reducible apply ev_copyTile | intro _)

theorem ev_copyDone {s0 s : State} {badTile : Option (Fin 16)} (hE : Ev s0 s)  : Ev s0 (copyDone badTile s) := by
  unfold copyDone
  repeat' (first | with_reducible assumption | with_reducible apply ev_foldl | with_reducible apply ev_foldl_snd | with_reducible apply ev_State_nextFree | with_reducible apply ev_State_onInst | with_reducible apply ev_abortMig | with_reducible apply ev_serveFailing | intro _ | with_reducible apply ev_failTile | with_reducible apply ev_readSource | with_reducible apply ev_commitMig | intro _ | extract_lets | split | fail_if_no_progress (with_reducible apply ev_mk) | with_reducible apply ev_ite | with_reducible apply ev_id | dsimp only | with_reducible refine ev_of_pair (by assumption) ?_)

theorem ev_beginTest {s0 s : State} {t : Nat} {req : Bool} {fromList : Bool} (hE : Ev s0 s)  : Ev s0 (beginTest t req fromList s) := by
  unfold beginTest
  repeat' (first | with_reducible assumption | with_reducible apply ev_State_setReg | with_reducible apply ev_State_onDst | intro _ | extract_lets | split)

theorem ev_sourcesCleared {s0 s : State}  (hE : Ev s0 s)  : Ev s0 (sourcesCleared s) := by
  unfold sourcesCleared
  repeat' (first | with_reducible assumption | with_reducible apply ev_forEach | with_reducible apply ev_notify | with_reducible apply ev_clearTile | with_reducible apply ev_State_onInst | with_reducible apply ev_releaseWire | with_reducible apply ev_State_onDst | intro _ | with_reducible apply ev_lastMig | with_reducible apply ev_serveFailing | with_reducible apply ev_beginTest | intro _ | extract_lets | split | fail_if_no_progress (with_reducible apply ev_mk) | with_reducible apply ev_ite | with_reducible apply ev_id | dsimp only | with_reducible refine ev_of_pair (by assumption) ?_ | dsimp +zetaDelta only)

theorem ev_pinPressure {s0 s : State}  (hE : Ev s0 s)  : Ev s0 (pinPressure s) := by
  unfold pinPressure
  repeat' (first | with_reducible assumption | with_reducible apply ev_notify | with_reducible apply ev_State_onDst | intro _ | extract_lets | split)

theorem ev_policyMove {s0 s : State}  (hE : Ev s0 s)  : Ev s0 (policyMove s) := by
  unfold policyMove
  repeat' (first | with_reducible assumption | with_reducible apply ev_startMig | intro _ | extract_lets | split)

theorem ev_evaluate {s0 s : State} {temps : List Byte} (hE : Ev s0 s)  : Ev s0 (evaluate temps s) := by
  unfold evaluate
  repeat' (first | with_reducible assumption | with_reducible apply ev_tally | with_reducible apply ev_State_onDst | with_reducible apply ev_retryFailing | with_reducible apply ev_pinPressure | with_reducible apply ev_policyMove)

theorem ev_dstDone {s0 s : State} {p : Fin 4} {op : Nat} {st : Status} (hE : Ev s0 s)  : Ev s0 (dstDone p op st s) := by
  unfold dstDone
  repeat' (first | with_reducible assumption | with_reducible apply ev_State_setRegP | with_reducible apply ev_State_stat)

theorem ev_setPin {s0 s : State} {base : Nat} {b : Bool} (hE : Ev s0 s)  : Ev s0 (setPin base b s) := by
  unfold setPin
  repeat' (first | with_reducible assumption | with_reducible apply ev_State_onInst | with_reducible apply ev_State_onDst | with_reducible apply ev_abortMig | with_reducible apply ev_serveFailing | intro _ | extract_lets | split | fail_if_no_progress (with_reducible apply ev_mk) | with_reducible apply ev_ite)

theorem ev_dstPin {s0 s : State} {p : Fin 4} {base : Nat} {b : Bool} (hE : Ev s0 s)  : Ev s0 (dstPin p base b s) := by
  unfold dstPin
  repeat' (first | with_reducible assumption | with_reducible apply ev_State_stat | with_reducible apply ev_dstDone | with_reducible apply ev_setPin | intro _ | extract_lets | split)

theorem ev_dstMigrate {s0 s : State} {p : Fin 4} {base : Nat} (hE : Ev s0 s)  : Ev s0 (dstMigrate p base s) := by
  unfold dstMigrate
  repeat' (first | with_reducible assumption | with_reducible apply ev_State_setRegP | with_reducible apply ev_State_stat | with_reducible apply ev_startMig | with_reducible apply ev_dstDone | intro _ | extract_lets | split)

theorem ev_dstRetire {s0 s : State} {p : Fin 4} (hE : Ev s0 s)  : Ev s0 (dstRetire p s) := by
  unfold dstRetire
  repeat' (first | with_reducible assumption | with_reducible apply ev_State_stat | with_reducible apply ev_abandonTest | with_reducible apply ev_failTile | with_reducible apply ev_dstDone | intro _ | extract_lets | split)

theorem ev_dstUnretire {s0 s : State} {p : Fin 4} (hE : Ev s0 s)  : Ev s0 (dstUnretire p s) := by
  unfold dstUnretire
  repeat' (first | with_reducible assumption | with_reducible apply ev_State_stat | with_reducible apply ev_State_onDst | with_reducible apply ev_dstDone | intro _ | extract_lets | split)

theorem ev_collide {s0 s : State} {t : Nat} {east : Bool} {k : Nat} (hE : Ev s0 s)  : Ev s0 (collide t east k s) := by
  unfold collide
  repeat' (first | with_reducible assumption | with_reducible apply ev_State_setReg | with_reducible apply ev_State_bump | with_reducible apply ev_notifyWire | with_reducible apply ev_abortMig | with_reducible apply ev_serveFailing | intro _ | extract_lets | split | fail_if_no_progress (with_reducible apply ev_mk))

end Sys2Proof.Machine
end

