-- ==== Sys2Proof/Laws/EvolveSpools.lean ====
section
/-! SUPPORT. Evolve: the operations of Machine/Spools.lean keep what Ev says. -/
set_option linter.unusedVariables false
namespace Sys2Proof.Machine
variable {s0 s : State}
theorem ev_raiseLapped {s0 s : State} {n : Nat} {i : Nat} {skipped : Nat} (hE : Ev s0 s)  : Ev s0 (raiseLapped n i skipped s) := by
  unfold raiseLapped
  repeat' (first | with_reducible assumption | with_reducible apply ev_notifyOnce)

theorem ev_lapSlot {s0 s : State} {n : Nat} {i : Nat} (hE : Ev s0 s)  : Ev s0 (lapSlot n i s) := by
  unfold lapSlot
  repeat' (first | with_reducible assumption | with_reducible apply ev_State_setSlot | with_reducible apply ev_raiseLapped | intro _ | extract_lets | split)

theorem ev_State_setExp {s0 s : State} {n : Nat} {e : Option ExpSt} (hE : Ev s0 s)  : Ev s0 (State.setExp s n e) := by
  unfold State.setExp
  repeat' (first | with_reducible assumption | with_reducible apply ev_State_setSpool)

theorem ev_tryClose {s0 s : State} {n : Nat} (hE : Ev s0 s)  : Ev s0 (tryClose n s) := by
  unfold tryClose
  repeat' (first | with_reducible assumption | with_reducible apply ev_addRecord | with_reducible apply ev_segmentWait | with_reducible apply ev_waitOver | with_reducible apply ev_State_setExp | intro _ | extract_lets | split)

theorem ev_closeEntry {s0 s : State} {n : Nat} {st : Status} (hE : Ev s0 s)  : Ev s0 (closeEntry n st s) := by
  unfold closeEntry
  repeat' (first | with_reducible assumption | with_reducible apply ev_State_setExp | with_reducible apply ev_tryClose | intro _ | extract_lets | split)

theorem ev_lapExport {s0 s : State} {n : Nat} (hE : Ev s0 s)  : Ev s0 (lapExport n s) := by
  unfold lapExport
  repeat' (first | with_reducible assumption | with_reducible apply ev_State_setSlot | with_reducible apply ev_raiseLapped | with_reducible apply ev_State_setExp | with_reducible apply ev_closeEntry | intro _ | extract_lets | split)

theorem ev_lapReaders {s0 s : State} {n : Nat} (hE : Ev s0 s)  : Ev s0 (lapReaders n s) := by
  unfold lapReaders
  repeat' (first | with_reducible assumption | with_reducible apply ev_lapSlot | with_reducible apply ev_lapExport)

theorem ev_swapDone {s0 s : State} {n : Nat} (hE : Ev s0 s)  : Ev s0 (swapDone n s) := by
  unfold swapDone
  repeat' (first | with_reducible assumption | with_reducible apply ev_State_bump | with_reducible apply ev_State_setSpool | intro _ | extract_lets | split)

theorem ev_wakeFor {s0 s : State} {segs : List Nat} (hE : Ev s0 s)  : Ev s0 (wakeFor segs s) := by
  unfold wakeFor
  repeat' (first | with_reducible assumption | with_reducible apply ev_State_setReg | with_reducible apply ev_forEach | with_reducible apply ev_askWake | with_reducible apply ev_memCtl | intro _)

theorem ev_maybeSwap {s0 s : State} {n : Nat} (hE : Ev s0 s)  : Ev s0 (maybeSwap n s) := by
  unfold maybeSwap
  repeat' (first | with_reducible assumption | with_reducible apply ev_State_setSpool | with_reducible apply ev_State_onDst | with_reducible apply ev_wakeFor | intro _ | extract_lets | split)

theorem ev_writeReel {s0 s : State} {n : Nat} {o : Nat} {lo : Word} {hi : Word} (hE : Ev s0 s)  : Ev s0 (writeReel n o lo hi s) := by
  unfold writeReel
  repeat' (first | with_reducible assumption | with_reducible apply ev_putReel)

theorem ev_putRecWord {s0 s : State} {n : Nat} {v : Word} (hE : Ev s0 s)  : Ev s0 (putRecWord n v s) := by
  unfold putRecWord
  repeat' (first | with_reducible assumption | with_reducible apply ev_State_setSpool | with_reducible apply ev_lapReaders | with_reducible apply ev_swapDone | with_reducible apply ev_maybeSwap | with_reducible apply ev_writeReel | intro _ | extract_lets | split)

theorem ev_captureSlot {s0 s : State} {w : Nat} {k : Nat} (hE : Ev s0 s)  : Ev s0 (captureSlot w k s) := by
  unfold captureSlot
  repeat' (first | with_reducible assumption | with_reducible apply ev_askSlot)

theorem ev_putRecWords {s0 s : State} {n : Nat} {l : List Word} (hE : Ev s0 s)  : Ev s0 (putRecWords n l s) := by
  unfold putRecWords
  repeat' (first | with_reducible assumption | with_reducible apply ev_forEach | with_reducible apply ev_putRecWord | with_reducible apply ev_captureSlot | intro _ | extract_lets | split)

theorem ev_flushHalf {s0 s : State} {n : Nat} (hE : Ev s0 s)  : Ev s0 (flushHalf n s) := by
  unfold flushHalf
  repeat' (first | with_reducible assumption | with_reducible apply ev_State_setSpool | with_reducible apply ev_lapReaders | with_reducible apply ev_writeReel | with_reducible apply ev_captureSlot | intro _ | extract_lets | split)

theorem ev_recDone {s0 s : State} {c : WCur} (hE : Ev s0 s)  : Ev s0 (recDone c s) := by
  unfold recDone
  repeat' (first | with_reducible assumption | with_reducible apply ev_State_bump | with_reducible apply ev_tally | with_reducible apply ev_State_setSpool | intro _ | extract_lets | split)

theorem ev_writeRec {s0 s : State} {r : WRec} (hE : Ev s0 s)  : Ev s0 (writeRec r s) := by
  unfold writeRec
  repeat' (first | with_reducible assumption | with_reducible apply ev_putRecWords | with_reducible apply ev_recDone | intro _ | extract_lets | split)

theorem ev_openSpool {s0 s : State} {n : Nat} {size : Nat} {segs : List Nat} {start : Nat} (hE : Ev s0 s)  : Ev s0 (openSpool n size segs start s) := by
  unfold openSpool
  repeat' (first | with_reducible assumption | with_reducible apply ev_State_setSpool | with_reducible apply ev_putRecWords | with_reducible apply ev_flushHalf | intro _ | extract_lets | split)

theorem ev_openGap {s0 s : State} {cause : Nat} {start : Option Tick} {lost : Option Nat} {lasting : Bool} {n : Nat} (hE : Ev s0 s)  : Ev s0 (openGap cause start lost lasting n s) := by
  unfold openGap
  repeat' (first | with_reducible assumption | with_reducible apply ev_State_setSpool | intro _ | extract_lets | split)

theorem ev_endCauses {s0 s : State} {cs : List Nat} {n : Nat} (hE : Ev s0 s)  : Ev s0 (endCauses cs n s) := by
  unfold endCauses
  repeat' (first | with_reducible assumption | with_reducible apply ev_State_setSpool | intro _ | extract_lets | split)

theorem ev_pushRec {s0 s : State} {r : WRec} (hE : Ev s0 s)  : Ev s0 (pushRec r s) := by
  unfold pushRec
  repeat' (first | with_reducible assumption | with_reducible apply ev_State_setLane | intro _ | extract_lets | split)

theorem ev_flagGap {s0 s : State} {n : Nat} (hE : Ev s0 s)  : Ev s0 (flagGap n s) := by
  unfold flagGap
  repeat' (first | with_reducible assumption | with_reducible apply ev_State_setChan)

theorem ev_flushGap {s0 s : State} {t : Tick} {n : Nat} (hE : Ev s0 s)  : Ev s0 (flushGap t n s) := by
  unfold flushGap
  repeat' (first | with_reducible assumption | with_reducible apply ev_State_setSpool | with_reducible apply ev_pushRec | with_reducible apply ev_flagGap | intro _ | extract_lets | split)

theorem ev_reopenGap {s0 s : State} {r : WRec} (hE : Ev s0 s)  : Ev s0 (reopenGap r s) := by
  unfold reopenGap
  repeat' (first | with_reducible assumption | with_reducible apply ev_State_setSpool | intro _ | extract_lets | split)

theorem ev_acceptEvent {s0 s : State} {n : Nat} {t : Tick} {kind : BitVec 2} {order : Bool} (hE : Ev s0 s)  : Ev s0 (acceptEvent n t kind order s) := by
  unfold acceptEvent
  repeat' (first | with_reducible assumption | with_reducible apply ev_State_setSpool | with_reducible apply ev_pushRec | with_reducible apply ev_flushGap | intro _ | extract_lets | split)

theorem ev_laneGap {s0 s : State} {cause : Nat} {lasting : Bool} {k : Nat} (hE : Ev s0 s)  : Ev s0 (laneGap cause lasting k s) := by
  unfold laneGap
  repeat' (first | with_reducible assumption | with_reducible apply ev_forEach | with_reducible apply ev_openGap | intro _)

theorem ev_ingestFault {s0 s : State} {k : Nat} (hE : Ev s0 s)  : Ev s0 (ingestFault k s) := by
  unfold ingestFault
  repeat' (first | with_reducible assumption | with_reducible apply ev_forEach | with_reducible apply ev_State_setLane | with_reducible apply ev_queueFault | with_reducible apply ev_reopenGap | with_reducible apply ev_laneGap | intro _)

theorem ev_takeBuffered {s0 s : State} {k : Nat} (hE : Ev s0 s)  : Ev s0 (takeBuffered k s) := by
  unfold takeBuffered
  repeat' (first | with_reducible assumption | with_reducible apply ev_State_setLane | intro _ | extract_lets | split)

theorem ev_takeRecord {s0 s : State} {k : Nat} (hE : Ev s0 s)  : Ev s0 (takeRecord k s) := by
  unfold takeRecord
  repeat' (first | with_reducible assumption | with_reducible apply ev_State_setLane | with_reducible apply ev_ingestFault | with_reducible apply ev_takeBuffered | intro _ | extract_lets | split)

theorem ev_writerStep {s0 s : State} {k : Nat} (hE : Ev s0 s)  : Ev s0 (writerStep k s) := by
  unfold writerStep
  repeat' (first | with_reducible assumption | with_reducible apply ev_State_setLane | with_reducible apply ev_putRecWord | with_reducible apply ev_recDone | intro _ | extract_lets | split | fail_if_no_progress (with_reducible apply ev_mk) | with_reducible apply ev_ite | with_reducible apply ev_id | dsimp only | with_reducible refine ev_of_pair (by assumption) ?_ | dsimp +zetaDelta only)

theorem ev_waitSlot {w k n : Nat} (h : Ev s0 s) : Ev s0 (waitSlot w k n s) := by
  induction n generalizing s with
  | zero => exact h
  | succ n ih =>
    unfold waitSlot
    split
    · exact ev_takeSlot h
    · split
      · exact h
      · split
        · exact ih (ev_serveTurn h)
        · exact h

theorem ev_writerGo {k n : Nat} (h : Ev s0 s) : Ev s0 (writerGo k n s) := by
  induction n generalizing s with
  | zero => exact h
  | succ n ih =>
    unfold writerGo
    split
    · exact h
    · split
      · exact ih (ev_writerStep h)
      · split
        · exact ev_askWake h
        · exact ih (ev_writerStep (ev_waitSlot h))

theorem ev_dropRec {s0 s : State} {k : Nat} (hE : Ev s0 s)  : Ev s0 (dropRec k s) := by
  unfold dropRec
  repeat' (first | with_reducible assumption | with_reducible apply ev_State_setLane | with_reducible apply ev_openGap | with_reducible apply ev_reopenGap | intro _ | extract_lets | split)

theorem ev_spoolWrite {s0 s : State} {k : Nat} (hE : Ev s0 s)  : Ev s0 (spoolWrite k s) := by
  unfold spoolWrite
  repeat' (first | with_reducible assumption | with_reducible apply ev_State_setLane | with_reducible apply ev_peerReset | with_reducible apply ev_ingestFault | with_reducible apply ev_takeRecord | with_reducible apply ev_writerGo | with_reducible apply ev_dropRec | intro _ | extract_lets | split)

theorem ev_writerTimeout {s0 s : State} {n : Nat} (hE : Ev s0 s)  : Ev s0 (writerTimeout n s) := by
  unfold writerTimeout
  repeat' (first | with_reducible assumption | with_reducible apply ev_askWake | with_reducible apply ev_flushHalf | intro _ | extract_lets | split)

theorem ev_spendSlot {s0 s : State} {k : Nat} (hE : Ev s0 s)  : Ev s0 (spendSlot k s) := by
  unfold spendSlot
  repeat' (first | with_reducible assumption | with_reducible apply ev_takeRecord | with_reducible apply ev_writerStep | intro _ | extract_lets | split)

theorem ev_wordAccess {s0 s : State} {b : Nat} (hE : Ev s0 s)  : Ev s0 (wordAccess b s) := by
  unfold wordAccess
  repeat' (first | with_reducible assumption | with_reducible apply ev_forEach | with_reducible apply ev_accessBank | with_reducible apply ev_spendSlot | intro _)

theorem ev_readSpool {n dom : Nat} {l : List (Nat × Nat)} (h : Ev s0 s) : Ev s0 (readSpool n dom l s).2 := by
  induction l generalizing s with
  | nil => exact h
  | cons r l ih => exact ih (ev_foldl_snd (p := (true, s)) h (fun p x hp => ev_readReel hp))

end Sys2Proof.Machine
end

