-- ==== Sys2Proof/Laws/EvolveLanes.lean ====
section
/-! SUPPORT. Evolve: the operations of Machine/Lanes.lean keep what Ev says. -/
set_option linter.unusedVariables false
namespace Sys2Proof.Machine
variable {s0 s : State}
theorem ev_chanFault {s0 s : State} {c : Nat} (hE : Ev s0 s)  : Ev s0 (chanFault c s) := by
  unfold chanFault
  repeat' (first | with_reducible assumption | with_reducible apply ev_queueFault | with_reducible apply ev_State_setChan)

theorem ev_seeDepth {s0 s : State} {c : Nat} {n : Nat} (hE : Ev s0 s)  : Ev s0 (seeDepth c n s) := by
  unfold seeDepth
  repeat' (first | with_reducible assumption | intro _ | extract_lets | split | fail_if_no_progress (with_reducible apply ev_mk))

theorem ev_countMissed {s0 s : State} {c : Nat} {k : Nat} (hE : Ev s0 s)  : Ev s0 (countMissed c k s) := by
  unfold countMissed
  repeat' (first | with_reducible assumption | with_reducible apply ev_State_bump | with_reducible apply ev_tallyN | intro _ | extract_lets | split | fail_if_no_progress (with_reducible apply ev_mk) | with_reducible apply ev_ite)

theorem ev_missChan {s0 s : State} {c : Nat} {k : Nat} {t : Tick} (hE : Ev s0 s)  : Ev s0 (missChan c k t s) := by
  unfold missChan
  repeat' (first | with_reducible assumption | with_reducible apply ev_State_setChan | with_reducible apply ev_countMissed)

theorem ev_tellMissed {s0 s : State} {c : Nat} (hE : Ev s0 s)  : Ev s0 (tellMissed c s) := by
  unfold tellMissed
  repeat' (first | with_reducible assumption | with_reducible apply ev_notifyOnce | with_reducible apply ev_State_setChan | intro _ | extract_lets | split)

theorem ev_chanPush {s0 s : State} {c : Nat} {e : ChEnt} {missed : State → State} (hE : Ev s0 s) (hmissed : ∀  t, Ev s0 t → Ev s0 (missed  t)) : Ev s0 (chanPush c e missed s) := by
  unfold chanPush
  repeat' (first | with_reducible assumption | with_reducible apply hmissed | with_reducible apply ev_State_setChan | with_reducible apply ev_chanFault | with_reducible apply ev_seeDepth | with_reducible apply ev_missChan | intro _ | extract_lets | split)

theorem ev_chanDrop {s0 s : State} {c : Nat} (hE : Ev s0 s)  : Ev s0 (chanDrop c s) := by
  unfold chanDrop
  repeat' (first | with_reducible assumption | with_reducible apply ev_State_setChan | with_reducible apply ev_missChan | intro _ | extract_lets | split)

theorem ev_putSub {s0 s : State} {r : Reg} {i : Nat} {c : Nat} {v : Word} (hE : Ev s0 s)  : Ev s0 (putSub r i c v s) := by
  unfold putSub
  repeat' (first | with_reducible assumption | with_reducible apply ev_State_setChan | with_reducible apply ev_State_putFields | with_reducible apply ev_chanFault | intro _ | extract_lets | split)

theorem ev_slotMissed {s0 s : State} {g : Nat} {w0 : Word} {rep : Report} (hE : Ev s0 s)  : Ev s0 (slotMissed g w0 rep s) := by
  unfold slotMissed
  repeat' (first | with_reducible assumption | with_reducible apply ev_State_setSlot | with_reducible apply ev_answerStops | intro _ | extract_lets | split)

theorem ev_missPacket {s0 s : State} {src : Nat} {short : Bool} {w0 : Word} {lo : Word} {rep : Report} (hE : Ev s0 s)  : Ev s0 (missPacket src short w0 lo rep s) := by
  unfold missPacket
  repeat' (first | with_reducible assumption | with_reducible apply ev_State_bump | with_reducible apply ev_giveBack | with_reducible apply ev_sampleLost | with_reducible apply ev_State_setPin | with_reducible apply ev_setPin | with_reducible apply ev_countMissed | intro _ | with_reducible apply ev_slotMissed | intro _ | extract_lets | split)

theorem ev_missFlits {s0 s : State} {l : List Flit} (hE : Ev s0 s)  : Ev s0 (missFlits l s) := by
  unfold missFlits
  repeat' (first | with_reducible assumption | with_reducible apply ev_forEach | with_reducible apply ev_missPacket | intro _)

theorem ev_missPackets {s0 s : State} {l : List Packet} (hE : Ev s0 s)  : Ev s0 (missPackets l s) := by
  unfold missPackets
  repeat' (first | with_reducible assumption | with_reducible apply ev_forEach | with_reducible apply ev_missPacket | intro _)

theorem ev_gateOut {s0 s : State} {port : Nat} {p : Packet} (hE : Ev s0 s)  : Ev s0 (gateOut port p s) := by
  unfold gateOut
  repeat' (first | with_reducible assumption | with_reducible apply ev_queueOut | with_reducible apply ev_missPackets | intro _ | extract_lets | split)

theorem ev_chanSend {s0 s : State} {c : Nat} {src : Nat} {port : Nat} {sub : Word} (hE : Ev s0 s)  : Ev s0 (chanSend c src port sub s) := by
  unfold chanSend
  repeat' (first | with_reducible assumption | with_reducible apply ev_tally | with_reducible apply ev_State_setChan | with_reducible apply ev_chanFault | with_reducible apply ev_gateOut | intro _ | extract_lets | split)

theorem ev_State_onLane {s0 s : State} {n : Nat} {f : LaneSt → LaneSt} (hE : Ev s0 s)  : Ev s0 (State.onLane s n f) := by
  unfold State.onLane
  repeat' (first | with_reducible assumption | with_reducible apply ev_State_setLane)

theorem ev_laneGo {s0 s : State} {n : Nat} {st : BitVec 4} (hE : Ev s0 s)  : Ev s0 (laneGo n st s) := by
  unfold laneGo
  repeat' (first | with_reducible assumption | with_reducible apply ev_wakeIsl | with_reducible apply ev_notifyOwner | with_reducible apply ev_State_onLane | intro _ | extract_lets | split)

theorem ev_laneCausesEnd {s0 s : State} {n : Nat} (hE : Ev s0 s)  : Ev s0 (laneCausesEnd n s) := by
  unfold laneCausesEnd
  repeat' (first | with_reducible assumption | with_reducible apply ev_forEach | with_reducible apply ev_endCauses | intro _)

theorem ev_syncGood {s0 s : State} {n : Nat} (hE : Ev s0 s)  : Ev s0 (syncGood n s) := by
  unfold syncGood
  repeat' (first | with_reducible assumption | with_reducible apply ev_forEach | with_reducible apply ev_State_setLane | with_reducible apply ev_endCauses | intro _ | extract_lets | split)

theorem ev_onBlock {s0 s : State} {n : Nat} {payload : DWord} {valid : Bool} {bad : Bool} {is : DWord → Bool} {act : DWord → State → State} (hE : Ev s0 s) (hact : ∀ (a0 : DWord) t, Ev s0 t → Ev s0 (act a0 t)) : Ev s0 (onBlock n payload valid bad is act s) := by
  unfold onBlock
  repeat' (first | with_reducible assumption | with_reducible apply hact | with_reducible apply ev_tally | with_reducible apply ev_State_setLane | intro _ | extract_lets | split)

theorem ev_discardBlk {s0 s : State} {n : Nat} {data : Bool} (hE : Ev s0 s)  : Ev s0 (discardBlk n data s) := by
  unfold discardBlk
  repeat' (first | with_reducible assumption | with_reducible apply ev_State_onLane)

theorem ev_inRunOrTrain {s0 s : State} {n : Nat} {data : Bool} {run : State → State} {train : State → State} (hE : Ev s0 s) (hrun : ∀  t, Ev s0 t → Ev s0 (run  t)) (htrain : ∀  t, Ev s0 t → Ev s0 (train  t)) : Ev s0 (inRunOrTrain n data run train s) := by
  unfold inRunOrTrain
  repeat' (first | with_reducible assumption | with_reducible apply hrun | with_reducible apply htrain | with_reducible apply ev_discardBlk | intro _ | extract_lets | split)

theorem ev_laneErr {s0 s : State} {n : Nat} {kind : Nat} (hE : Ev s0 s)  : Ev s0 (laneErr n kind s) := by
  unfold laneErr
  repeat' (first | with_reducible assumption | with_reducible apply ev_notifyOnce)

theorem ev_countFrameErr {s0 s : State} {n : Nat} (hE : Ev s0 s)  : Ev s0 (countFrameErr n s) := by
  unfold countFrameErr
  repeat' (first | with_reducible assumption | with_reducible apply ev_State_bump | with_reducible apply ev_laneErr)

theorem ev_frameErr {s0 s : State} {n : Nat} (hE : Ev s0 s)  : Ev s0 (frameErr n s) := by
  unfold frameErr
  repeat' (first | with_reducible assumption | with_reducible apply ev_laneGap | with_reducible apply ev_countFrameErr)

theorem ev_blkErr {s0 s : State} {n : Nat} (hE : Ev s0 s)  : Ev s0 (blkErr n s) := by
  unfold blkErr
  repeat' (first | with_reducible assumption | with_reducible apply ev_State_bump | with_reducible apply ev_tally | with_reducible apply ev_laneGap | with_reducible apply ev_laneErr)

theorem ev_keepEcho {s0 s : State} {n : Nat} {j : Nat} {echo : Nat} {seq : Nat} (hE : Ev s0 s)  : Ev s0 (keepEcho n j echo seq s) := by
  unfold keepEcho
  repeat' (first | with_reducible assumption | with_reducible apply ev_State_onLane)

theorem ev_correct {s0 s : State} {n : Nat} {err : Int} (hE : Ev s0 s)  : Ev s0 (correct n err s) := by
  unfold correct
  repeat' (first | with_reducible assumption | with_reducible apply ev_State_setLane | with_reducible apply ev_notifyOwner | with_reducible apply ev_laneGap | with_reducible apply ev_State_onLane | with_reducible apply ev_syncGood | intro _ | extract_lets | split)

theorem ev_runHeader {s0 s : State} {n : Nat} {d : DWord} (hE : Ev s0 s)  : Ev s0 (runHeader n d s) := by
  unfold runHeader
  repeat' (first | with_reducible assumption | with_reducible apply ev_State_onLane | with_reducible apply ev_frameErr | with_reducible apply ev_keepEcho | with_reducible apply ev_correct | intro _ | extract_lets | split | fail_if_no_progress (with_reducible apply ev_mk) | with_reducible apply ev_ite | with_reducible apply ev_id | dsimp only | with_reducible refine ev_of_pair (by assumption) ?_ | dsimp +zetaDelta only)

theorem ev_trainHeader {s0 s : State} {n : Nat} {d : DWord} (hE : Ev s0 s)  : Ev s0 (trainHeader n d s) := by
  unfold trainHeader
  repeat' (first | with_reducible assumption | with_reducible apply ev_State_onLane | with_reducible apply ev_keepEcho | intro _ | extract_lets | split | fail_if_no_progress (with_reducible apply ev_mk) | with_reducible apply ev_ite | with_reducible apply ev_id | dsimp only | with_reducible refine ev_of_pair (by assumption) ?_ | dsimp +zetaDelta only)

theorem ev_headerBlk {s0 s : State} {n : Nat} {payload : DWord} (hE : Ev s0 s)  : Ev s0 (headerBlk n payload s) := by
  unfold headerBlk
  repeat' (first | with_reducible assumption | with_reducible apply ev_onBlock | with_reducible apply ev_inRunOrTrain | with_reducible apply ev_runHeader | with_reducible apply ev_trainHeader | intro _)

theorem ev_eventWord {s0 s : State} {n : Nat} {fb : Tick} {w : Word} (hE : Ev s0 s)  : Ev s0 (eventWord n fb w s) := by
  unfold eventWord
  repeat' (first | with_reducible assumption | with_reducible apply ev_State_bump | with_reducible apply ev_tally | with_reducible apply ev_State_setChan | with_reducible apply ev_openGap | with_reducible apply ev_acceptEvent | with_reducible apply ev_tellMissed | intro _ | with_reducible apply ev_chanPush | with_reducible apply ev_laneErr | intro _ | extract_lets | split | fail_if_no_progress (with_reducible apply ev_mk) | with_reducible apply ev_ite)

theorem ev_ingest {s0 s : State} {n : Nat} {act : State → State} (hE : Ev s0 s) (hact : ∀  t, Ev s0 t → Ev s0 (act  t)) : Ev s0 (ingest n act s) := by
  unfold ingest
  repeat' (first | with_reducible assumption | with_reducible apply hact | with_reducible apply ev_State_setLane | with_reducible apply ev_ingestFault | with_reducible apply ev_blkErr | intro _ | extract_lets | split)

theorem ev_runEvents {s0 s : State} {n : Nat} {d : DWord} (hE : Ev s0 s)  : Ev s0 (runEvents n d s) := by
  unfold runEvents
  repeat' (first | with_reducible assumption | with_reducible apply ev_State_setLane | with_reducible apply ev_State_onLane | with_reducible apply ev_frameErr | with_reducible apply ev_eventWord | with_reducible apply ev_ingest | intro _ | extract_lets | split)

theorem ev_eventBlk {s0 s : State} {n : Nat} {payload : DWord} (hE : Ev s0 s)  : Ev s0 (eventBlk n payload s) := by
  unfold eventBlk
  repeat' (first | with_reducible assumption | with_reducible apply ev_State_onLane | with_reducible apply ev_onBlock | with_reducible apply ev_inRunOrTrain | with_reducible apply ev_runEvents | intro _)

theorem ev_runGap {s0 s : State} {n : Nat} {d : DWord} (hE : Ev s0 s)  : Ev s0 (runGap n d s) := by
  unfold runGap
  repeat' (first | with_reducible assumption | with_reducible apply ev_forEach | with_reducible apply ev_State_setLane | with_reducible apply ev_notifyOwner | with_reducible apply ev_openGap | intro _)

theorem ev_gapBlk {s0 s : State} {n : Nat} {payload : DWord} (hE : Ev s0 s)  : Ev s0 (gapBlk n payload s) := by
  unfold gapBlk
  repeat' (first | with_reducible assumption | with_reducible apply ev_State_onLane | with_reducible apply ev_onBlock | with_reducible apply ev_inRunOrTrain | with_reducible apply ev_runGap | intro _)

theorem ev_trainBlk {s0 s : State} {n : Nat} {payload : DWord} (hE : Ev s0 s)  : Ev s0 (trainBlk n payload s) := by
  unfold trainBlk
  repeat' (first | with_reducible assumption | with_reducible apply ev_State_onLane | with_reducible apply ev_onBlock | with_reducible apply ev_inRunOrTrain | with_reducible apply ev_countFrameErr | intro _)

theorem ev_idleBlk {s0 s : State} {n : Nat} {payload : DWord} (hE : Ev s0 s)  : Ev s0 (idleBlk n payload s) := by
  unfold idleBlk
  repeat' (first | with_reducible assumption | with_reducible apply ev_State_onLane | with_reducible apply ev_onBlock | with_reducible apply ev_inRunOrTrain | intro _)

theorem ev_errorBlk {s0 s : State} {n : Nat} {sync : BitVec 2} {payload : DWord} (hE : Ev s0 s)  : Ev s0 (errorBlk n sync payload s) := by
  unfold errorBlk
  repeat' (first | with_reducible assumption | with_reducible apply ev_State_setLane | with_reducible apply ev_onBlock | with_reducible apply ev_discardBlk | with_reducible apply ev_blkErr | intro _ | extract_lets | split)

theorem ev_gainLock {s0 s : State} {n : Nat} (hE : Ev s0 s)  : Ev s0 (gainLock n s) := by
  unfold gainLock
  repeat' (first | with_reducible assumption | with_reducible apply ev_State_setLane | intro _ | extract_lets | split)

theorem ev_lockLost {s0 s : State} {n : Nat} {silent : Nat} (hE : Ev s0 s)  : Ev s0 (lockLost n silent s) := by
  unfold lockLost
  repeat' (first | with_reducible assumption | with_reducible apply ev_State_setLane | with_reducible apply ev_laneGap | with_reducible apply ev_laneGo | intro _ | extract_lets | split)

theorem ev_syncGone {s0 s : State} {n : Nat} (hE : Ev s0 s)  : Ev s0 (syncGone n s) := by
  unfold syncGone
  repeat' (first | with_reducible assumption | with_reducible apply ev_State_setLane | with_reducible apply ev_notifyOwner | with_reducible apply ev_laneGap | intro _ | extract_lets | split)

theorem ev_laneSend {s0 s : State} {n : Nat} (hE : Ev s0 s)  : Ev s0 (laneSend n s) := by
  unfold laneSend
  repeat' (first | with_reducible assumption | with_reducible apply ev_State_setLane | with_reducible apply ev_chanSend | intro _ | extract_lets | split)

theorem ev_feWrite {s0 s : State} {n : Nat} {addr : Nat} {v : Word} (hE : Ev s0 s)  : Ev s0 (feWrite n addr v s) := by
  unfold feWrite
  repeat' (first | with_reducible assumption | with_reducible apply ev_State_onLane)

theorem ev_feMode {s0 s : State} {n : Nat} {m : Nat} (hE : Ev s0 s)  : Ev s0 (feMode n m s) := by
  unfold feMode
  repeat' (first | with_reducible assumption | with_reducible apply ev_feWrite)

theorem ev_feSetup {s0 s : State} {n : Nat} (hE : Ev s0 s)  : Ev s0 (feSetup n s) := by
  unfold feSetup
  repeat' (first | with_reducible assumption | with_reducible apply ev_feWrite | with_reducible apply ev_feMode)

theorem ev_feLoad {s0 s : State} {n : Nat} {l : Nat} (hE : Ev s0 s)  : Ev s0 (feLoad n l s) := by
  unfold feLoad
  repeat' (first | with_reducible assumption | with_reducible apply ev_State_onLane | with_reducible apply ev_feWrite)

theorem ev_startAttempt {s0 s : State} {n : Nat} {attempt : Nat} (hE : Ev s0 s)  : Ev s0 (startAttempt n attempt s) := by
  unfold startAttempt
  repeat' (first | with_reducible assumption | with_reducible apply ev_State_bump | with_reducible apply ev_State_onLane | intro _ | extract_lets | split)

theorem ev_nextTraining {s0 s : State}  (hE : Ev s0 s)  : Ev s0 (nextTraining s) := by
  unfold nextTraining
  repeat' (first | with_reducible assumption | with_reducible apply ev_startAttempt | intro _ | extract_lets | split)

theorem ev_enterRun {s0 s : State} {n : Nat} (hE : Ev s0 s)  : Ev s0 (enterRun n s) := by
  unfold enterRun
  repeat' (first | with_reducible assumption | with_reducible apply ev_State_setLane | with_reducible apply ev_notifyOwner | with_reducible apply ev_laneCausesEnd | with_reducible apply ev_syncGood)

theorem ev_stepDone {s0 s : State} {feId : Word} {feVer : Word} (hE : Ev s0 s)  : Ev s0 (stepDone feId feVer s) := by
  unfold stepDone
  repeat' (first | with_reducible assumption | with_reducible apply ev_State_setReg | with_reducible apply ev_State_setLane | with_reducible apply ev_feMode | with_reducible apply ev_feSetup | with_reducible apply ev_feLoad | with_reducible apply ev_enterRun | intro _ | extract_lets | split)

theorem ev_attemptFails {s0 s : State} {n : Nat} {cause : Nat} (hE : Ev s0 s)  : Ev s0 (attemptFails n cause s) := by
  unfold attemptFails
  repeat' (first | with_reducible assumption | with_reducible apply ev_State_setLane | with_reducible apply ev_notifyOwner | with_reducible apply ev_State_onLane | with_reducible apply ev_feMode | with_reducible apply ev_startAttempt | intro _ | extract_lets | split)

theorem ev_stepLate {s0 s : State} {check : Option (Word × Word)} (hE : Ev s0 s)  : Ev s0 (stepLate check s) := by
  unfold stepLate
  repeat' (first | with_reducible assumption | with_reducible apply ev_State_setReg | with_reducible apply ev_attemptFails | intro _ | extract_lets | split)

theorem ev_eyeSample {s0 s : State} {n : Nat} {h : Byte} {w : Byte} (hE : Ev s0 s)  : Ev s0 (eyeSample n h w s) := by
  unfold eyeSample
  repeat' (first | with_reducible assumption | with_reducible apply ev_State_setReg | with_reducible apply ev_State_setLane | with_reducible apply ev_notifyOwner | intro _ | extract_lets | split)

theorem ev_enableLane {s0 s : State} {n : Nat} (hE : Ev s0 s)  : Ev s0 (enableLane n s) := by
  unfold enableLane
  repeat' (first | with_reducible assumption | with_reducible apply ev_State_setReg | with_reducible apply ev_laneGo)

theorem ev_disableLane {s0 s : State} {n : Nat} (hE : Ev s0 s)  : Ev s0 (disableLane n s) := by
  unfold disableLane
  repeat' (first | with_reducible assumption | with_reducible apply ev_State_setReg | with_reducible apply ev_forEach | with_reducible apply ev_flushGap | with_reducible apply ev_State_onLane | with_reducible apply ev_feMode | intro _)

theorem ev_retrainLane {s0 s : State} {n : Nat} (hE : Ev s0 s)  : Ev s0 (retrainLane n s) := by
  unfold retrainLane
  repeat' (first | with_reducible assumption | with_reducible apply ev_laneGap | with_reducible apply ev_State_onLane | with_reducible apply ev_laneGo)

theorem ev_uncountAttempt {s0 s : State} {n : Nat} (hE : Ev s0 s)  : Ev s0 (uncountAttempt n s) := by
  unfold uncountAttempt
  repeat' (first | with_reducible assumption | with_reducible apply ev_State_setReg | with_reducible apply ev_State_setLane | intro _ | extract_lets | split | fail_if_no_progress (with_reducible apply ev_mk) | with_reducible apply ev_ite)

theorem ev_dropGate {s0 s : State} {n : Nat} (hE : Ev s0 s)  : Ev s0 (dropGate n s) := by
  unfold dropGate
  repeat' (first | with_reducible assumption | with_reducible apply ev_forEach | with_reducible apply ev_State_setPlane | with_reducible apply ev_missPackets | intro _)

theorem ev_resetLane {s0 s : State} {n : Nat} (hE : Ev s0 s)  : Ev s0 (resetLane n s) := by
  unfold resetLane
  repeat' (first | with_reducible assumption | with_reducible apply ev_forEach | with_reducible apply ev_peerReset | with_reducible apply ev_laneGap | with_reducible apply ev_chanDrop | with_reducible apply ev_State_onLane | with_reducible apply ev_laneGo | intro _ | with_reducible apply ev_syncGood | with_reducible apply ev_uncountAttempt | with_reducible apply ev_dropGate | intro _ | extract_lets | split)

theorem ev_laneCommand {s0 s : State} {p : Nat} {op : Nat} {st : Status} {runs : Bool} {act : State → State} (hE : Ev s0 s) (hact : ∀  t, Ev s0 t → Ev s0 (act  t)) : Ev s0 (laneCommand p op st runs act s) := by
  unfold laneCommand
  repeat' (first | with_reducible assumption | with_reducible apply hact | with_reducible apply ev_State_setRegP | with_reducible apply ev_State_stat | intro _ | extract_lets | split)

theorem ev_startFe {s0 s : State} {p : Nat} {n : Nat} {op : Nat} (hE : Ev s0 s)  : Ev s0 (startFe p n op s) := by
  unfold startFe
  repeat' (first | with_reducible assumption | intro _ | extract_lets | split | fail_if_no_progress (with_reducible apply ev_mk))

theorem ev_cmdEnable {s0 s : State} {p : Nat} {n : Nat} (hE : Ev s0 s)  : Ev s0 (cmdEnable p n s) := by
  unfold cmdEnable
  repeat' (first | with_reducible assumption | with_reducible apply ev_enableLane | with_reducible apply ev_laneCommand | intro _)

theorem ev_cmdDisable {s0 s : State} {p : Nat} {n : Nat} (hE : Ev s0 s)  : Ev s0 (cmdDisable p n s) := by
  unfold cmdDisable
  repeat' (first | with_reducible assumption | with_reducible apply ev_disableLane | with_reducible apply ev_laneCommand | with_reducible apply ev_startFe | intro _)

theorem ev_cmdRetrain {s0 s : State} {p : Nat} {n : Nat} (hE : Ev s0 s)  : Ev s0 (cmdRetrain p n s) := by
  unfold cmdRetrain
  repeat' (first | with_reducible assumption | with_reducible apply ev_enableLane | with_reducible apply ev_retrainLane | with_reducible apply ev_laneCommand | intro _ | extract_lets | split)

theorem ev_cmdIslandReset {s0 s : State} {p : Nat} {n : Nat} (hE : Ev s0 s)  : Ev s0 (cmdIslandReset p n s) := by
  unfold cmdIslandReset
  repeat' (first | with_reducible assumption | with_reducible apply ev_resetLane | with_reducible apply ev_laneCommand | intro _)

theorem ev_laneResetEnd {s0 s : State} {n : Nat} (hE : Ev s0 s)  : Ev s0 (laneResetEnd n s) := by
  unfold laneResetEnd
  repeat' (first | with_reducible assumption | with_reducible apply ev_laneGo | intro _ | extract_lets | split)

theorem ev_cmdFeRead {s0 s : State} {p : Nat} {n : Nat} (hE : Ev s0 s)  : Ev s0 (cmdFeRead p n s) := by
  unfold cmdFeRead
  repeat' (first | with_reducible assumption | with_reducible apply ev_laneCommand | with_reducible apply ev_startFe | intro _)

theorem ev_cmdFeWrite {s0 s : State} {p : Nat} {n : Nat} (hE : Ev s0 s)  : Ev s0 (cmdFeWrite p n s) := by
  unfold cmdFeWrite
  repeat' (first | with_reducible assumption | with_reducible apply ev_laneCommand | with_reducible apply ev_startFe | intro _)

theorem ev_laneCmdEnd {s0 s : State} {p : Nat} {data : Word} (hE : Ev s0 s)  : Ev s0 (laneCmdEnd p data s) := by
  unfold laneCmdEnd
  repeat' (first | with_reducible assumption | with_reducible apply ev_State_setRegP | with_reducible apply ev_feWrite | intro _ | extract_lets | split | fail_if_no_progress (with_reducible apply ev_mk))

theorem ev_putLaneCfg {s0 s : State} {n : Nat} {v : Word} (hE : Ev s0 s)  : Ev s0 (putLaneCfg n v s) := by
  unfold putLaneCfg
  repeat' (first | with_reducible assumption | with_reducible apply ev_State_putFields | with_reducible apply ev_enableLane | with_reducible apply ev_disableLane | intro _ | extract_lets | split)

theorem ev_laneCfgWrite {s0 s : State} {p : Nat} {n : Nat} {v : Word} (hE : Ev s0 s)  : Ev s0 (laneCfgWrite p n v s) := by
  unfold laneCfgWrite
  repeat' (first | with_reducible assumption | with_reducible apply ev_State_stat | with_reducible apply ev_State_putFields | with_reducible apply ev_ownerOnly | with_reducible apply ev_putLaneCfg | intro _ | extract_lets | split)

theorem ev_putChEn {s0 s : State} {n : Nat} {v : Word} (hE : Ev s0 s)  : Ev s0 (putChEn n v s) := by
  unfold putChEn
  repeat' (first | with_reducible assumption | with_reducible apply ev_State_setReg | with_reducible apply ev_feWrite | intro _ | extract_lets | split)

theorem ev_laneChEnWrite {s0 s : State} {p : Nat} {n : Nat} {v : Word} (hE : Ev s0 s)  : Ev s0 (laneChEnWrite p n v s) := by
  unfold laneChEnWrite
  repeat' (first | with_reducible assumption | with_reducible apply ev_ownerOnly | with_reducible apply ev_checked | with_reducible apply ev_putChEn | intro _)

theorem ev_laneSubWrite {s0 s : State} {p : Nat} {c : Nat} {v : Word} (hE : Ev s0 s)  : Ev s0 (laneSubWrite p c v s) := by
  unfold laneSubWrite
  repeat' (first | with_reducible assumption | with_reducible apply ev_checked | with_reducible apply ev_putSub | intro _)

theorem ev_clrPeak {s0 s : State} {p : Nat} {c : Nat} (hE : Ev s0 s)  : Ev s0 (clrPeak p c s) := by
  unfold clrPeak
  repeat' (first | with_reducible assumption | with_reducible apply ev_State_setChan | with_reducible apply ev_checked | intro _)

theorem ev_queueLanes {s0 s : State}  (hE : Ev s0 s)  : Ev s0 (queueLanes s) := by
  unfold queueLanes
  repeat' (first | with_reducible assumption | with_reducible apply ev_forEach | with_reducible apply ev_laneGo | intro _ | extract_lets | split)

theorem ev_pauseLanes {s0 s : State}  (hE : Ev s0 s)  : Ev s0 (pauseLanes s) := by
  unfold pauseLanes
  repeat' (first | with_reducible assumption | with_reducible apply ev_forEach | with_reducible apply ev_State_setLane | with_reducible apply ev_laneGap | with_reducible apply ev_laneGo | with_reducible apply ev_feMode | intro _ | extract_lets | split)

theorem ev_wakeLanes {s0 s : State}  (hE : Ev s0 s)  : Ev s0 (wakeLanes s) := by
  unfold wakeLanes
  repeat' (first | with_reducible assumption | with_reducible apply ev_forEach | with_reducible apply ev_laneGo | intro _ | extract_lets | split)

end Sys2Proof.Machine
end

