-- ==== Sys2Proof/Laws/EvolveSpoolCmd.lean ====
section
/-! SUPPORT. Evolve: the operations of Machine/SpoolCmd.lean keep what Ev says. -/
set_option linter.unusedVariables false
namespace Sys2Proof.Machine
variable {s0 s : State}
theorem ev_mtRead {s0 s : State} {dom : Nat} {i : Nat} (hE : Ev s0 s)  : Ev s0 (mtRead dom i s).2 := by
  unfold mtRead
  repeat' (first | with_reducible assumption | with_reducible apply ev_readReels | intro _ | extract_lets | split | fail_if_no_progress (with_reducible apply ev_mk) | with_reducible apply ev_ite | with_reducible apply ev_id | dsimp only | with_reducible refine ev_of_pair (by assumption) ?_)

theorem ev_mtWrite {s0 s : State} {dom : Nat} {i : Nat} {j : Nat} {e : MtEnt} (hE : Ev s0 s)  : Ev s0 (mtWrite dom i j e s) := by
  unfold mtWrite
  repeat' (first | with_reducible assumption | with_reducible apply ev_writeWordsAs)

theorem ev_mtClear {s0 s : State} {dom : Nat} {i : Nat} {j : Nat} {e : MtEnt} (hE : Ev s0 s)  : Ev s0 (mtClear dom i j e s) := by
  unfold mtClear
  repeat' (first | with_reducible assumption | with_reducible apply ev_mtWrite)

theorem ev_mtSweep {s0 s : State}  (hE : Ev s0 s)  : Ev s0 (mtSweep s) := by
  unfold mtSweep
  repeat' (first | with_reducible assumption | with_reducible apply ev_State_bump | with_reducible apply ev_forEach | with_reducible apply ev_mtRead | with_reducible apply ev_mtClear | intro _ | extract_lets | split | fail_if_no_progress (with_reducible apply ev_mk) | with_reducible apply ev_ite | with_reducible apply ev_id | dsimp only | with_reducible refine ev_of_pair (by assumption) ?_)

theorem ev_splTake {s0 s : State} {src : SplSrc} (hE : Ev s0 s)  : Ev s0 (splTake src s) := by
  unfold splTake
  repeat' (first | with_reducible assumption | intro _ | extract_lets | split | fail_if_no_progress (with_reducible apply ev_mk))

theorem ev_splGo {s0 s : State} {p : Fin 4} (hE : Ev s0 s)  : Ev s0 (splGo p s) := by
  unfold splGo
  repeat' (first | with_reducible assumption | with_reducible apply ev_State_setRegP | with_reducible apply ev_State_stat | with_reducible apply ev_wakeIsl | intro _ | extract_lets | split | fail_if_no_progress (with_reducible apply ev_mk))

theorem ev_splEnd {s0 s : State} {c : SplCmd} {st : Status} {ws : List Word} (hE : Ev s0 s)  : Ev s0 (splEnd c st ws s) := by
  unfold splEnd
  repeat' (first | with_reducible assumption | with_reducible apply ev_State_bump | with_reducible apply ev_splAnswer | intro _ | extract_lets | split)

theorem ev_splRun {s0 s : State} {code : Nat} {src : SplSrc} {act : SplCmd → State → State} (hE : Ev s0 s) (hact : ∀ (a0 : SplCmd) t, Ev s0 t → Ev s0 (act a0 t)) : Ev s0 (splRun code src act s) := by
  unfold splRun
  repeat' (first | with_reducible assumption | with_reducible apply hact | with_reducible apply ev_whenAwake | with_reducible apply ev_splTake | with_reducible apply ev_splEnd | intro _ | extract_lets | split)

theorem ev_cmdPos {c : SplCmd} (h : Ev s0 s) : Ev s0 (cmdPos c s).2 := by
  unfold cmdPos
  extract_lets n
  split
  · split
    · rename_i e; exact ev_of_pair e (ev_mtRead h)
    · rename_i e
      have h2 := ev_of_pair e (ev_mtRead h)
      split
      · exact h2
      · split
        · exact h2
        · split
          rename_i e2
          exact ev_of_pair e2 (ev_readSpool h2)
  · split
    rename_i e2
    exact ev_of_pair e2 (ev_readSpool h)

theorem ev_withPos {s0 s : State} {c : SplCmd} {act : Pos → State → State} (hE : Ev s0 s) (hact : ∀ (a0 : Pos) t, Ev s0 t → Ev s0 (act a0 t)) : Ev s0 (withPos c act s) := by
  unfold withPos
  repeat' (first | with_reducible assumption | with_reducible apply hact | with_reducible apply ev_splEnd | with_reducible apply ev_cmdPos | intro _ | extract_lets | split | fail_if_no_progress (with_reducible apply ev_mk) | with_reducible apply ev_ite | with_reducible apply ev_id | dsimp only | with_reducible refine ev_of_pair (by assumption) ?_)

theorem ev_State_onMarks {s0 s : State} {n : Nat} {f : NMap (Nat × Tick) → NMap (Nat × Tick)} (hE : Ev s0 s)  : Ev s0 (State.onMarks s n f) := by
  unfold State.onMarks
  repeat' (first | with_reducible assumption | with_reducible apply ev_State_setSpool)

theorem ev_markSet {s0 s : State} {c : SplCmd} (hE : Ev s0 s)  : Ev s0 (markSet c s) := by
  unfold markSet
  repeat' (first | with_reducible assumption | with_reducible apply ev_splEnd | with_reducible apply ev_withPos | with_reducible apply ev_State_onMarks | intro _)

theorem ev_markClear {s0 s : State} {c : SplCmd} (hE : Ev s0 s)  : Ev s0 (markClear c s) := by
  unfold markClear
  repeat' (first | with_reducible assumption | with_reducible apply ev_splEnd | with_reducible apply ev_State_onMarks)

theorem ev_markQuery {s0 s : State} {c : SplCmd} (hE : Ev s0 s)  : Ev s0 (markQuery c s) := by
  unfold markQuery
  repeat' (first | with_reducible assumption | with_reducible apply ev_splEnd | intro _ | extract_lets | split)

theorem ev_spoolQuery {s0 s : State} {c : SplCmd} (hE : Ev s0 s)  : Ev s0 (spoolQuery c s) := by
  unfold spoolQuery
  repeat' (first | with_reducible assumption | with_reducible apply ev_splEnd)

theorem ev_mtInsert {s0 s : State} {c : SplCmd} (hE : Ev s0 s)  : Ev s0 (mtInsert c s) := by
  unfold mtInsert
  repeat' (first | with_reducible assumption | with_reducible apply ev_State_bump | with_reducible apply ev_notifyOnce | with_reducible apply ev_mtRead | with_reducible apply ev_mtWrite | with_reducible apply ev_splEnd | with_reducible apply ev_withPos | intro _ | extract_lets | split | fail_if_no_progress (with_reducible apply ev_mk) | with_reducible apply ev_ite | with_reducible apply ev_id | dsimp only | with_reducible refine ev_of_pair (by assumption) ?_)

theorem ev_mtLookup {s0 s : State} {c : SplCmd} (hE : Ev s0 s)  : Ev s0 (mtLookup c s) := by
  unfold mtLookup
  repeat' (first | with_reducible assumption | with_reducible apply ev_State_bump | with_reducible apply ev_mtRead | with_reducible apply ev_mtClear | with_reducible apply ev_splEnd | intro _ | extract_lets | split | fail_if_no_progress (with_reducible apply ev_mk) | with_reducible apply ev_ite | with_reducible apply ev_id | dsimp only | with_reducible refine ev_of_pair (by assumption) ?_)

theorem ev_mtDelete {s0 s : State} {c : SplCmd} (hE : Ev s0 s)  : Ev s0 (mtDelete c s) := by
  unfold mtDelete
  repeat' (first | with_reducible assumption | with_reducible apply ev_mtRead | with_reducible apply ev_mtClear | with_reducible apply ev_splEnd | intro _ | extract_lets | split | fail_if_no_progress (with_reducible apply ev_mk) | with_reducible apply ev_ite | with_reducible apply ev_id | dsimp only | with_reducible refine ev_of_pair (by assumption) ?_)

theorem ev_endRun {s0 s : State} {n : Nat} {i : Nat} {state : BitVec 4} {st : Status} (hE : Ev s0 s)  : Ev s0 (endRun n i state st s) := by
  unfold endRun
  repeat' (first | with_reducible assumption | with_reducible apply ev_notify | with_reducible apply ev_State_setSlot)

theorem ev_slotStart {s0 s : State} {c : SplCmd} (hE : Ev s0 s)  : Ev s0 (slotStart c s) := by
  unfold slotStart
  repeat' (first | with_reducible assumption | with_reducible apply ev_State_setSlot | with_reducible apply ev_splEnd | with_reducible apply ev_withPos | intro _)

theorem ev_slotStop {s0 s : State} {c : SplCmd} (hE : Ev s0 s)  : Ev s0 (slotStop c s) := by
  unfold slotStop
  repeat' (first | with_reducible assumption | with_reducible apply ev_State_setSlot | with_reducible apply ev_splEnd | intro _ | extract_lets | split)

theorem ev_slotQuery {s0 s : State} {c : SplCmd} (hE : Ev s0 s)  : Ev s0 (slotQuery c s) := by
  unfold slotQuery
  repeat' (first | with_reducible assumption | with_reducible apply ev_splEnd)

theorem ev_sendSlot {s0 s : State} {n : Nat} {i : Nat} {k : Nat} {last : Bool} {stopped : Bool} (hE : Ev s0 s)  : Ev s0 (sendSlot n i k last stopped s) := by
  unfold sendSlot
  repeat' (first | with_reducible assumption | with_reducible apply ev_tally | with_reducible apply ev_send | with_reducible apply ev_State_setSlot)

theorem ev_readOk {s0 s : State} {n : Nat} {cls : Nat} {master : Nat} {o : Nat} {k : Nat} (hE : Ev s0 s)  : Ev s0 (readOk n cls master o k s).2 := by
  unfold readOk
  repeat' (first | with_reducible assumption | with_reducible apply ev_foldl | with_reducible apply ev_foldl_snd | with_reducible apply ev_readReel | intro _ | extract_lets | split)

theorem ev_endStop {s0 s : State} {n : Nat} {i : Nat} (hE : Ev s0 s)  : Ev s0 (endStop n i s) := by
  unfold endStop
  repeat' (first | with_reducible assumption | with_reducible apply ev_State_setSlot | with_reducible apply ev_answerStops)

theorem ev_sendNext {s0 s : State} {n : Nat} {i : Nat} {flush : Bool} (hE : Ev s0 s)  : Ev s0 (sendNext n i flush s) := by
  unfold sendNext
  repeat' (first | with_reducible assumption | with_reducible apply ev_State_setSlot | with_reducible apply ev_endRun | with_reducible apply ev_sendSlot | with_reducible apply ev_readOk | with_reducible apply ev_endStop | intro _ | extract_lets | split | fail_if_no_progress (with_reducible apply ev_mk) | with_reducible apply ev_ite | with_reducible apply ev_id | dsimp only | with_reducible refine ev_of_pair (by assumption) ?_)

theorem ev_slotSend {s0 s : State} {n : Nat} {i : Nat} {flush : Bool} (hE : Ev s0 s)  : Ev s0 (slotSend n i flush s) := by
  unfold slotSend
  repeat' (first | with_reducible assumption | with_reducible apply ev_whenAwake | with_reducible apply ev_sendNext | intro _ | extract_lets | split)

theorem ev_exportStart {s0 s : State} {c : SplCmd} (hE : Ev s0 s)  : Ev s0 (exportStart c s) := by
  unfold exportStart
  repeat' (first | with_reducible assumption | with_reducible apply ev_State_setSlot | with_reducible apply ev_State_setExp | with_reducible apply ev_splEnd | with_reducible apply ev_withPos | intro _ | extract_lets | split)

theorem ev_endExport {s0 s : State} {n : Nat} {state : BitVec 4} {st : Status} (hE : Ev s0 s)  : Ev s0 (endExport n state st s) := by
  unfold endExport
  repeat' (first | with_reducible assumption | with_reducible apply ev_notify | with_reducible apply ev_State_setSlot | with_reducible apply ev_State_setExp | with_reducible apply ev_closeEntry | intro _ | extract_lets | split)

theorem ev_exportStop {s0 s : State} {c : SplCmd} (hE : Ev s0 s)  : Ev s0 (exportStop c s) := by
  unfold exportStop
  repeat' (first | with_reducible assumption | with_reducible apply ev_splEnd | with_reducible apply ev_endExport | intro _ | extract_lets | split)

theorem ev_dropExport {s0 s : State} {n : Nat} (hE : Ev s0 s)  : Ev s0 (dropExport n s) := by
  unfold dropExport
  repeat' (first | with_reducible assumption | with_reducible apply ev_addSegment | with_reducible apply ev_State_setExp | with_reducible apply ev_endExport | intro _ | extract_lets | split)

theorem ev_staleRuns {s0 s : State} {n : Nat} (hE : Ev s0 s)  : Ev s0 (staleRuns n s) := by
  unfold staleRuns
  repeat' (first | with_reducible assumption | with_reducible apply ev_forEach | with_reducible apply ev_State_setSlot | with_reducible apply ev_endRun | with_reducible apply ev_endStop | intro _ | extract_lets | split)

theorem ev_freeSegs {s0 s : State} {n : Nat} (hE : Ev s0 s)  : Ev s0 (freeSegs n s) := by
  unfold freeSegs
  repeat' (first | with_reducible assumption | with_reducible apply ev_State_setSpool)

theorem ev_resizeCmd {s0 s : State} {c : SplCmd} (hE : Ev s0 s)  : Ev s0 (resizeCmd c s) := by
  unfold resizeCmd
  repeat' (first | with_reducible assumption | with_reducible apply ev_State_setSpool | with_reducible apply ev_splEnd | intro _ | extract_lets | split)

theorem ev_dropQueued {s0 s : State} {n : Nat} (hE : Ev s0 s)  : Ev s0 (dropQueued n s) := by
  unfold dropQueued
  repeat' (first | with_reducible assumption | with_reducible apply ev_forEach | with_reducible apply ev_State_setLane | with_reducible apply ev_reopenGap | intro _)

theorem ev_finishCur {s0 s : State} {n : Nat} (hE : Ev s0 s)  : Ev s0 (finishCur n s) := by
  unfold finishCur
  repeat' (first | with_reducible assumption | with_reducible apply ev_State_setLane | with_reducible apply ev_putRecWords | with_reducible apply ev_recDone | intro _ | extract_lets | split)

theorem ev_closeGap {s0 s : State} {n : Nat} (hE : Ev s0 s)  : Ev s0 (closeGap n s) := by
  unfold closeGap
  repeat' (first | with_reducible assumption | with_reducible apply ev_State_setSpool | with_reducible apply ev_writeRec | with_reducible apply ev_flagGap | intro _ | extract_lets | split)

theorem ev_stopSlots {s0 s : State} {n : Nat} (hE : Ev s0 s)  : Ev s0 (stopSlots n s) := by
  unfold stopSlots
  repeat' (first | with_reducible assumption | with_reducible apply ev_forEach | with_reducible apply ev_endRun | with_reducible apply ev_sendSlot | intro _ | extract_lets | split)

theorem ev_reopen {s0 s : State} {n : Nat} {size : Nat} {segs : List Nat} {start : Nat} (hE : Ev s0 s)  : Ev s0 (reopen n size segs start s) := by
  unfold reopen
  repeat' (first | with_reducible assumption | with_reducible apply ev_State_setSpool | with_reducible apply ev_openSpool)

theorem ev_closeSpool {s0 s : State} {n : Nat} {new : Nat} {c : SplCmd} {segs : List Nat} (hE : Ev s0 s)  : Ev s0 (closeSpool n new c segs s) := by
  unfold closeSpool
  repeat' (first | with_reducible assumption | with_reducible apply ev_State_bump | with_reducible apply ev_notify | with_reducible apply ev_flushHalf | with_reducible apply ev_writeRec | with_reducible apply ev_flagGap | with_reducible apply ev_splEnd | intro _ | with_reducible apply ev_endExport | with_reducible apply ev_dropQueued | with_reducible apply ev_finishCur | with_reducible apply ev_closeGap | with_reducible apply ev_stopSlots | with_reducible apply ev_reopen | intro _ | extract_lets | split)

theorem ev_spoolClose {s0 s : State} {n : Nat} (hE : Ev s0 s)  : Ev s0 (spoolClose n s) := by
  unfold spoolClose
  repeat' (first | with_reducible assumption | with_reducible apply ev_State_setSpool | with_reducible apply ev_whenAwake | with_reducible apply ev_wakeFor | with_reducible apply ev_splEnd | with_reducible apply ev_freeSegs | with_reducible apply ev_closeSpool | intro _ | extract_lets | split)

theorem ev_latchRead {s0 s : State} {p : Fin 4} {n : Nat} {hi : Reg} {v : Nat} (hE : Ev s0 s)  : Ev s0 (latchRead p n hi v s) := by
  unfold latchRead
  repeat' (first | with_reducible assumption | with_reducible apply ev_State_setRegP | with_reducible apply ev_State_finish | with_reducible apply ev_wakeIsl | intro _ | extract_lets | split)

theorem ev_wptrRead {s0 s : State} {p : Fin 4} {n : Nat} (hE : Ev s0 s)  : Ev s0 (wptrRead p n s) := by
  unfold wptrRead
  repeat' (first | with_reducible assumption | with_reducible apply ev_latchRead)

theorem ev_liveRead {s0 s : State} {p : Fin 4} {n : Nat} (hE : Ev s0 s)  : Ev s0 (liveRead p n s) := by
  unfold liveRead
  repeat' (first | with_reducible assumption | with_reducible apply ev_latchRead)

end Sys2Proof.Machine
end

