-- ==== Sys2Proof/Laws/EvolvePins.lean ====
section
/-! SUPPORT. Evolve: the operations of Machine/Pins.lean keep what Ev says. -/
set_option linter.unusedVariables false
namespace Sys2Proof.Machine
variable {s0 s : State}
theorem ev_State_onPins {s0 s : State} {f : PinsSt → PinsSt} (hE : Ev s0 s)  : Ev s0 (State.onPins s f) := by
  unfold State.onPins
  repeat' (first | with_reducible assumption | intro _ | extract_lets | split | fail_if_no_progress (with_reducible apply ev_mk))

theorem ev_deliverPulse {s0 s : State} {k : Nat} (hE : Ev s0 s)  : Ev s0 (deliverPulse k s) := by
  unfold deliverPulse
  repeat' (first | with_reducible assumption | with_reducible apply ev_State_setPin | with_reducible apply ev_setPin | intro _ | extract_lets | split)

theorem ev_losePin {s0 s : State} {p : Nat} {n : Nat} (hE : Ev s0 s)  : Ev s0 (losePin p n s) := by
  unfold losePin
  repeat' (first | with_reducible assumption | with_reducible apply ev_State_bump | with_reducible apply ev_State_setPin)

theorem ev_losePulse {s0 s : State} {k : Nat} (hE : Ev s0 s)  : Ev s0 (losePulse k s) := by
  unfold losePulse
  repeat' (first | with_reducible assumption | with_reducible apply ev_State_setReg | with_reducible apply ev_State_bump | with_reducible apply ev_notifyOnce | with_reducible apply ev_State_setXing | with_reducible apply ev_xingLast | with_reducible apply ev_losePin | intro _ | extract_lets | split)

theorem ev_holdPulse {s0 s : State} {k : Nat} (hE : Ev s0 s)  : Ev s0 (holdPulse k s) := by
  unfold holdPulse
  repeat' (first | with_reducible assumption | with_reducible apply ev_State_setXing | with_reducible apply ev_losePulse | intro _ | extract_lets | split)

theorem ev_pulseIn {s0 s : State} {k : Nat} (hE : Ev s0 s)  : Ev s0 (pulseIn k s) := by
  unfold pulseIn
  repeat' (first | with_reducible assumption | with_reducible apply ev_wakeIsl | with_reducible apply ev_State_setXing | with_reducible apply ev_deliverPulse | with_reducible apply ev_holdPulse | intro _ | extract_lets | split)

theorem ev_pulseDone {s0 s : State} {k : Nat} (hE : Ev s0 s)  : Ev s0 (pulseDone k s) := by
  unfold pulseDone
  repeat' (first | with_reducible assumption | with_reducible apply ev_State_setXing | with_reducible apply ev_deliverPulse | intro _ | extract_lets | split)

theorem ev_setPend {s0 s : State} {p : Nat} (hE : Ev s0 s)  : Ev s0 (setPend p s) := by
  unfold setPend
  repeat' (first | with_reducible assumption | with_reducible apply ev_State_setRegP | with_reducible apply ev_notify | intro _ | extract_lets | split)

theorem ev_firePin {s0 s : State} {p : Nat} (hE : Ev s0 s)  : Ev s0 (firePin p s) := by
  unfold firePin
  repeat' (first | with_reducible assumption | with_reducible apply ev_pulseIn | with_reducible apply ev_setPend | intro _ | extract_lets | split | fail_if_no_progress (with_reducible apply ev_mk) | with_reducible apply ev_ite)

theorem ev_levelFire {s0 s : State} {p : Nat} (hE : Ev s0 s)  : Ev s0 (levelFire p s) := by
  unfold levelFire
  repeat' (first | with_reducible assumption | with_reducible apply ev_State_setPin | with_reducible apply ev_setPin | with_reducible apply ev_firePin | intro _ | extract_lets | split)

theorem ev_rearm {s0 s : State} {p : Nat} (hE : Ev s0 s)  : Ev s0 (rearm p s) := by
  unfold rearm
  repeat' (first | with_reducible assumption | with_reducible apply ev_State_setPin | with_reducible apply ev_setPin | with_reducible apply ev_levelFire | intro _ | extract_lets | split)

theorem ev_acceptLevel {s0 s : State} {p : Nat} {level : Bool} (hE : Ev s0 s)  : Ev s0 (acceptLevel p level s) := by
  unfold acceptLevel
  repeat' (first | with_reducible assumption | with_reducible apply ev_wakeIsl | with_reducible apply ev_State_setPin | with_reducible apply ev_setPin | with_reducible apply ev_firePin | with_reducible apply ev_levelFire | intro _ | extract_lets | split)

theorem ev_State_setSense {s0 s : State} {k : Nat} {x : SenseSt} (hE : Ev s0 s)  : Ev s0 (State.setSense s k x) := by
  unfold State.setSense
  repeat' (first | with_reducible assumption | intro _ | extract_lets | split | fail_if_no_progress (with_reducible apply ev_mk))

theorem ev_glitch {s0 s : State} {k : Nat} (hE : Ev s0 s)  : Ev s0 (glitch k s) := by
  unfold glitch
  repeat' (first | with_reducible assumption | with_reducible apply ev_State_bump | with_reducible apply ev_notifyOnce)

theorem ev_stopSense {s0 s : State} {k : Nat} (hE : Ev s0 s)  : Ev s0 (stopSense k s) := by
  unfold stopSense
  repeat' (first | with_reducible assumption | with_reducible apply ev_State_setSense | with_reducible apply ev_glitch | intro _ | extract_lets | split)

theorem ev_startSense {s0 s : State} {k : Nat} (hE : Ev s0 s)  : Ev s0 (startSense k s) := by
  unfold startSense
  repeat' (first | with_reducible assumption | with_reducible apply ev_State_setSense)

theorem ev_setConflict {s0 s : State} {p : Nat} {c : Bool} (hE : Ev s0 s)  : Ev s0 (setConflict p c s) := by
  unfold setConflict
  repeat' (first | with_reducible assumption | with_reducible apply ev_notify | with_reducible apply ev_State_setPin | with_reducible apply ev_setPin | intro _ | extract_lets | split)

theorem ev_settleRole {s0 s : State} {f : Nat} {u : Nat} {r : Nat} (hE : Ev s0 s)  : Ev s0 (settleRole f u r s) := by
  unfold settleRole
  repeat' (first | with_reducible assumption | with_reducible apply ev_forEach | with_reducible apply ev_setConflict | intro _ | extract_lets | split)

theorem ev_freshQd {s0 s : State} {v : Word} (hE : Ev s0 s)  : Ev s0 (freshQd v s) := by
  unfold freshQd
  repeat' (first | with_reducible assumption | with_reducible apply ev_State_setQd | intro _ | extract_lets | split)

theorem ev_emptyQd {s0 s : State} {old : Word} (hE : Ev s0 s)  : Ev s0 (emptyQd old s) := by
  unfold emptyQd
  repeat' (first | with_reducible assumption | with_reducible apply ev_State_setQd | intro _ | extract_lets | split)

theorem ev_leaveRole {s0 s : State} {p : Nat} (hE : Ev s0 s)  : Ev s0 (leaveRole p s) := by
  unfold leaveRole
  repeat' (first | with_reducible assumption | with_reducible apply ev_State_onPins | intro _ | extract_lets | split)

theorem ev_switchFrom {s0 s : State} {d : Bool × Bool} {p : Nat} {v : Word} (hE : Ev s0 s)  : Ev s0 (switchFrom d p v s) := by
  unfold switchFrom
  repeat' (first | with_reducible assumption | with_reducible apply ev_State_setReg | with_reducible apply ev_State_nextFree | with_reducible apply ev_State_setPin | with_reducible apply ev_setPin | with_reducible apply ev_levelFire | with_reducible apply ev_stopSense | intro _ | with_reducible apply ev_startSense | with_reducible apply ev_setConflict | with_reducible apply ev_settleRole | with_reducible apply ev_freshQd | with_reducible apply ev_emptyQd | with_reducible apply ev_leaveRole | intro _ | extract_lets | split)

theorem ev_switchPin {s0 s : State} {p : Nat} {v : Word} (hE : Ev s0 s)  : Ev s0 (switchPin p v s) := by
  unfold switchPin
  repeat' (first | with_reducible assumption | with_reducible apply ev_switchFrom)

theorem ev_putPinCfg {s0 s : State} {p : Nat} {v : Word} (hE : Ev s0 s)  : Ev s0 (putPinCfg p v s) := by
  unfold putPinCfg
  repeat' (first | with_reducible assumption | with_reducible apply ev_State_setReg | with_reducible apply ev_switchPin | intro _ | extract_lets | split)

theorem ev_pinCfgWrite {s0 s : State} {port : Nat} {p : Nat} {v : Word} (hE : Ev s0 s)  : Ev s0 (pinCfgWrite port p v s) := by
  unfold pinCfgWrite
  repeat' (first | with_reducible assumption | with_reducible apply ev_wakeIsl | with_reducible apply ev_checked | with_reducible apply ev_putPinCfg | intro _)

theorem ev_settlePin {s0 s : State} {p : Nat} (hE : Ev s0 s)  : Ev s0 (settlePin p s) := by
  unfold settlePin
  repeat' (first | with_reducible assumption | with_reducible apply ev_setConflict | with_reducible apply ev_settleRole | with_reducible apply ev_emptyQd | intro _ | extract_lets | split)

theorem ev_putBankCfg {s0 s : State} {b : Nat} {v : Word} (hE : Ev s0 s)  : Ev s0 (putBankCfg b v s) := by
  unfold putBankCfg
  repeat' (first | with_reducible assumption | with_reducible apply ev_forEach | with_reducible apply ev_State_putFields | with_reducible apply ev_switchPin | with_reducible apply ev_settlePin | intro _ | extract_lets | split)

theorem ev_bankCfgWrite {s0 s : State} {port : Nat} {b : Nat} {v : Word} (hE : Ev s0 s)  : Ev s0 (bankCfgWrite port b v s) := by
  unfold bankCfgWrite
  repeat' (first | with_reducible assumption | with_reducible apply ev_wakeIsl | with_reducible apply ev_ownerOnly | with_reducible apply ev_checked | with_reducible apply ev_putBankCfg | intro _)

theorem ev_viobLost {s0 s : State} {b : Nat} (hE : Ev s0 s)  : Ev s0 (viobLost b s) := by
  unfold viobLost
  repeat' (first | with_reducible assumption | with_reducible apply ev_notify | with_reducible apply ev_State_onPins | intro _ | extract_lets | split)

theorem ev_viobBack {s0 s : State} {b : Nat} (hE : Ev s0 s)  : Ev s0 (viobBack b s) := by
  unfold viobBack
  repeat' (first | with_reducible assumption | with_reducible apply ev_forEach | with_reducible apply ev_State_onPins | with_reducible apply ev_switchFrom | intro _ | extract_lets | split)

theorem ev_putPinEvt {s0 s : State} {p : Nat} {v : Word} (hE : Ev s0 s)  : Ev s0 (putPinEvt p v s) := by
  unfold putPinEvt
  repeat' (first | with_reducible assumption | with_reducible apply ev_State_setReg | with_reducible apply ev_State_setPin | with_reducible apply ev_setPin | with_reducible apply ev_rearm)

theorem ev_pinEvtWrite {s0 s : State} {port : Nat} {p : Nat} {v : Word} (hE : Ev s0 s)  : Ev s0 (pinEvtWrite port p v s) := by
  unfold pinEvtWrite
  repeat' (first | with_reducible assumption | with_reducible apply ev_wakeIsl | with_reducible apply ev_checked | with_reducible apply ev_putPinEvt | intro _)

theorem ev_pinArm {s0 s : State} {port : Nat} {p : Nat} (hE : Ev s0 s)  : Ev s0 (pinArm port p s) := by
  unfold pinArm
  repeat' (first | with_reducible assumption | with_reducible apply ev_wakeIsl | with_reducible apply ev_checked | with_reducible apply ev_rearm | intro _)

theorem ev_pendClear {s0 s : State} {port : Nat} {b : Nat} {hi : Bool} {v : Word} (hE : Ev s0 s)  : Ev s0 (pendClear port b hi v s) := by
  unfold pendClear
  repeat' (first | with_reducible assumption | with_reducible apply ev_State_setRegP | with_reducible apply ev_forEach | with_reducible apply ev_wakeIsl | with_reducible apply ev_checked | with_reducible apply ev_rearm | intro _)

theorem ev_putHostOut {s0 s : State} {r : Reg} {b : Nat} {hi : Bool} {v : Word} (hE : Ev s0 s)  : Ev s0 (putHostOut r b hi v s) := by
  unfold putHostOut
  repeat' (first | with_reducible assumption | with_reducible apply ev_State_setRegP)

theorem ev_hostOut {s0 s : State} {r : Reg} {port : Nat} {b : Nat} {hi : Bool} {f : Word → Word} (hE : Ev s0 s)  : Ev s0 (hostOut r port b hi f s) := by
  unfold hostOut
  repeat' (first | with_reducible assumption | with_reducible apply ev_State_stat | with_reducible apply ev_wakeIsl | with_reducible apply ev_putHostOut | intro _ | extract_lets | split)

theorem ev_pinOutWrite {s0 s : State} {port : Nat} {b : Nat} {hi : Bool} {v : Word} (hE : Ev s0 s)  : Ev s0 (pinOutWrite port b hi v s) := by
  unfold pinOutWrite
  repeat' (first | with_reducible assumption | with_reducible apply ev_hostOut)

theorem ev_pinSetBits {s0 s : State} {port : Nat} {b : Nat} {hi : Bool} {v : Word} (hE : Ev s0 s)  : Ev s0 (pinSetBits port b hi v s) := by
  unfold pinSetBits
  repeat' (first | with_reducible assumption | with_reducible apply ev_hostOut)

theorem ev_pinClrBits {s0 s : State} {port : Nat} {b : Nat} {hi : Bool} {v : Word} (hE : Ev s0 s)  : Ev s0 (pinClrBits port b hi v s) := by
  unfold pinClrBits
  repeat' (first | with_reducible assumption | with_reducible apply ev_hostOut)

theorem ev_pinTglBits {s0 s : State} {port : Nat} {b : Nat} {hi : Bool} {v : Word} (hE : Ev s0 s)  : Ev s0 (pinTglBits port b hi v s) := by
  unfold pinTglBits
  repeat' (first | with_reducible assumption | with_reducible apply ev_hostOut)

theorem ev_pinDirWrite {s0 s : State} {port : Nat} {b : Nat} {hi : Bool} {v : Word} (hE : Ev s0 s)  : Ev s0 (pinDirWrite port b hi v s) := by
  unfold pinDirWrite
  repeat' (first | with_reducible assumption | with_reducible apply ev_hostOut)

theorem ev_pinSend {s0 s : State} {p : Nat} (hE : Ev s0 s)  : Ev s0 (pinSend p s) := by
  unfold pinSend
  repeat' (first | with_reducible assumption | with_reducible apply ev_queueOut | with_reducible apply ev_State_setPin | with_reducible apply ev_setPin | intro _ | extract_lets | split)

theorem ev_pulseArrive {s0 s : State} {x : XId} (hE : Ev s0 s)  : Ev s0 (pulseArrive x s) := by
  unfold pulseArrive
  repeat' (first | with_reducible assumption | with_reducible apply ev_pulseIn | intro _ | extract_lets | split)

theorem ev_pulseComplete {s0 s : State} {x : XId} (hE : Ev s0 s)  : Ev s0 (pulseComplete x s) := by
  unfold pulseComplete
  repeat' (first | with_reducible assumption | with_reducible apply ev_pulseDone | intro _ | extract_lets | split)

theorem ev_imageFab {s0 s : State} {p : Nat} (hE : Ev s0 s)  : Ev s0 (imageFab p s) := by
  unfold imageFab
  repeat' (first | with_reducible assumption | with_reducible apply ev_State_setPin)

theorem ev_releasePin {s0 s : State} {d : Bool × Bool} {p : Nat} (hE : Ev s0 s)  : Ev s0 (releasePin d p s) := by
  unfold releasePin
  repeat' (first | with_reducible assumption | with_reducible apply ev_State_setPin | with_reducible apply ev_setPin | with_reducible apply ev_rearm | with_reducible apply ev_startSense | with_reducible apply ev_settleRole | with_reducible apply ev_freshQd | intro _ | with_reducible apply ev_imageFab | intro _ | extract_lets | split)

theorem ev_dropPinEvents {s0 s : State} {p : Nat} (hE : Ev s0 s)  : Ev s0 (dropPinEvents p s) := by
  unfold dropPinEvents
  repeat' (first | with_reducible assumption | with_reducible apply ev_State_setXing | with_reducible apply ev_State_setPin | with_reducible apply ev_setPin | with_reducible apply ev_losePin | intro _ | extract_lets | split)

theorem ev_resetPins {s0 s : State} {inBank : Nat → Bool} {host : Bool} (hE : Ev s0 s)  : Ev s0 (resetPins inBank host s) := by
  unfold resetPins
  repeat' (first | with_reducible assumption | with_reducible apply ev_State_setRegP | with_reducible apply ev_forEach | with_reducible apply ev_rearm | with_reducible apply ev_imageFab | with_reducible apply ev_dropPinEvents | intro _ | extract_lets | split | fail_if_no_progress (with_reducible apply ev_mk) | with_reducible apply ev_ite)

theorem ev_sleepPins {s0 s : State}  (hE : Ev s0 s)  : Ev s0 (sleepPins s) := by
  unfold sleepPins
  repeat' (first | with_reducible assumption | with_reducible apply ev_State_nextFree | with_reducible apply ev_forEach | with_reducible apply ev_State_setPin | with_reducible apply ev_setPin | with_reducible apply ev_State_onPins | intro _)

theorem ev_wakePins {s0 s : State}  (hE : Ev s0 s)  : Ev s0 (wakePins s) := by
  unfold wakePins
  repeat' (first | with_reducible assumption | with_reducible apply ev_forEach | with_reducible apply ev_State_onPins | with_reducible apply ev_levelFire | intro _)

theorem ev_stopSenses {s0 s : State}  (hE : Ev s0 s)  : Ev s0 (stopSenses s) := by
  unfold stopSenses
  repeat' (first | with_reducible assumption | with_reducible apply ev_forEach | with_reducible apply ev_openGap | with_reducible apply ev_State_setSense | intro _)

theorem ev_wakeSenses {s0 s : State}  (hE : Ev s0 s)  : Ev s0 (wakeSenses s) := by
  unfold wakeSenses
  repeat' (first | with_reducible assumption | with_reducible apply ev_forEach | with_reducible apply ev_endCauses | with_reducible apply ev_startSense | intro _)

end Sys2Proof.Machine
end

