-- ==== Sys2Proof/Laws/EvolveUnits.lean ====
section
/-! SUPPORT. Evolve: the operations of Machine/Units.lean keep what Ev says. -/
set_option linter.unusedVariables false
namespace Sys2Proof.Machine
variable {s0 s : State}
theorem ev_State_setPwm {s0 s : State} {c : Nat} {x : PwmSt} (hE : Ev s0 s)  : Ev s0 (State.setPwm s c x) := by
  unfold State.setPwm
  repeat' (first | with_reducible assumption | with_reducible apply ev_State_onPins)

theorem ev_pwmBegin {s0 s : State} {c : Nat} (hE : Ev s0 s)  : Ev s0 (pwmBegin c s) := by
  unfold pwmBegin
  repeat' (first | with_reducible assumption | with_reducible apply ev_State_setPwm)

theorem ev_pwmBoundary {s0 s : State} {c : Nat} (hE : Ev s0 s)  : Ev s0 (pwmBoundary c s) := by
  unfold pwmBoundary
  repeat' (first | with_reducible assumption | with_reducible apply ev_pwmBegin | intro _ | extract_lets | split)

theorem ev_pwmEnable {s0 s : State} {c : Nat} (hE : Ev s0 s)  : Ev s0 (pwmEnable c s) := by
  unfold pwmEnable
  repeat' (first | with_reducible assumption | with_reducible apply ev_State_setPwm | with_reducible apply ev_pwmBegin | intro _ | extract_lets | split)

theorem ev_putPwmCfg {s0 s : State} {c : Nat} {v : Word} (hE : Ev s0 s)  : Ev s0 (putPwmCfg c v s) := by
  unfold putPwmCfg
  repeat' (first | with_reducible assumption | with_reducible apply ev_State_putFields | with_reducible apply ev_State_setPwm | with_reducible apply ev_pwmEnable | intro _ | extract_lets | split)

theorem ev_pwmCfgWrite {s0 s : State} {port : Nat} {c : Nat} {v : Word} (hE : Ev s0 s)  : Ev s0 (pwmCfgWrite port c v s) := by
  unfold pwmCfgWrite
  repeat' (first | with_reducible assumption | with_reducible apply ev_checked | with_reducible apply ev_putPwmCfg | intro _)

theorem ev_pwmShadow {s0 s : State} {r : Reg} {c : Nat} {v : Word} (hE : Ev s0 s)  : Ev s0 (pwmShadow r c v s) := by
  unfold pwmShadow
  repeat' (first | with_reducible assumption | with_reducible apply ev_State_putFields | with_reducible apply ev_State_setPwm)

theorem ev_pwmDutyWrite {s0 s : State} {port : Nat} {c : Nat} {v : Word} (hE : Ev s0 s)  : Ev s0 (pwmDutyWrite port c v s) := by
  unfold pwmDutyWrite
  repeat' (first | with_reducible assumption | with_reducible apply ev_checked | with_reducible apply ev_pwmShadow | intro _)

theorem ev_pwmPeriodWrite {s0 s : State} {port : Nat} {c : Nat} {v : Word} (hE : Ev s0 s)  : Ev s0 (pwmPeriodWrite port c v s) := by
  unfold pwmPeriodWrite
  repeat' (first | with_reducible assumption | with_reducible apply ev_checked | with_reducible apply ev_pwmShadow | intro _)

theorem ev_pwmAlign {s0 s : State}  (hE : Ev s0 s)  : Ev s0 (pwmAlign s) := by
  unfold pwmAlign
  repeat' (first | with_reducible assumption | with_reducible apply ev_forEach | with_reducible apply ev_pwmBegin | intro _)

theorem ev_putData {r : Reg} {u j : Nat} {l : List Word} (h : Ev s0 s) : Ev s0 (putData r u j l s) := by
  induction l generalizing s j with
  | nil => exact h
  | cons w t ih => exact ih (ev_State_setRegP h)

theorem ev_putBytesData {s0 s : State} {r : Reg} {u : Nat} {n : Nat} {bs : List Byte} (hE : Ev s0 s)  : Ev s0 (putBytesData r u n bs s) := by
  unfold putBytesData
  repeat' (first | with_reducible assumption | with_reducible apply ev_putData)

theorem ev_xferDone {s0 s : State} {f : Nat} {kind : Nat} {u : Nat} {st : Status} {cause : Nat} (hE : Ev s0 s)  : Ev s0 (xferDone f kind u st cause s) := by
  unfold xferDone
  repeat' (first | with_reducible assumption | with_reducible apply ev_notify)

theorem ev_unitAnswer {s0 s : State} {req : Packet} {st : Status} (hE : Ev s0 s)  : Ev s0 (unitAnswer req st s) := by
  unfold unitAnswer
  repeat' (first | with_reducible assumption | with_reducible apply ev_answer | with_reducible apply ev_refuseAtExit | intro _ | extract_lets | split)

theorem ev_spiStart {s0 s : State} {u : Nat} {ctl : Word} {fab : Option (Packet × Nat)} (hE : Ev s0 s)  : Ev s0 (spiStart u ctl fab s) := by
  unfold spiStart
  repeat' (first | with_reducible assumption | with_reducible apply ev_State_setReg | with_reducible apply ev_State_onPins)

theorem ev_spiCmd {s0 s : State} {port : Nat} {u : Nat} {v : Word} (hE : Ev s0 s)  : Ev s0 (spiCmd port u v s) := by
  unfold spiCmd
  repeat' (first | with_reducible assumption | with_reducible apply ev_checked | with_reducible apply ev_spiStart | intro _ | extract_lets | split)

theorem ev_spiEnd {s0 s : State} {u : Nat} {rx : List Byte} (hE : Ev s0 s)  : Ev s0 (spiEnd u rx s) := by
  unfold spiEnd
  repeat' (first | with_reducible assumption | with_reducible apply ev_State_setReg | with_reducible apply ev_State_nextFree | with_reducible apply ev_State_onPins | with_reducible apply ev_putBytesData | with_reducible apply ev_xferDone | with_reducible apply ev_unitAnswer | intro _ | extract_lets | split)

theorem ev_spiCfgWrite {s0 s : State} {port : Nat} {u : Nat} {v : Word} (hE : Ev s0 s)  : Ev s0 (spiCfgWrite port u v s) := by
  unfold spiCfgWrite
  repeat' (first | with_reducible assumption | with_reducible apply ev_State_putFields | with_reducible apply ev_checked | intro _)

theorem ev_i2cStart {s0 s : State} {u : Nat} {ctl : Word} {fab : Option (Packet × Nat)} (hE : Ev s0 s)  : Ev s0 (i2cStart u ctl fab s) := by
  unfold i2cStart
  repeat' (first | with_reducible assumption | with_reducible apply ev_State_setReg | with_reducible apply ev_State_onPins)

theorem ev_i2cCmd {s0 s : State} {port : Nat} {u : Nat} {v : Word} (hE : Ev s0 s)  : Ev s0 (i2cCmd port u v s) := by
  unfold i2cCmd
  repeat' (first | with_reducible assumption | with_reducible apply ev_checked | with_reducible apply ev_i2cStart | intro _ | extract_lets | split)

theorem ev_i2cEnd {s0 s : State} {u : Nat} {cause : Nat} {xferred : Nat} {rx : List Byte} (hE : Ev s0 s)  : Ev s0 (i2cEnd u cause xferred rx s) := by
  unfold i2cEnd
  repeat' (first | with_reducible assumption | with_reducible apply ev_State_setReg | with_reducible apply ev_State_nextFree | with_reducible apply ev_State_onPins | with_reducible apply ev_putBytesData | with_reducible apply ev_xferDone | with_reducible apply ev_unitAnswer | intro _ | extract_lets | split | fail_if_no_progress (with_reducible apply ev_mk) | with_reducible apply ev_ite)

theorem ev_i2cFinish {s0 s : State} {u : Nat} {cause : BitVec 4} {xferred : BitVec 6} {rx : List Byte} (hE : Ev s0 s)  : Ev s0 (i2cFinish u cause xferred rx s) := by
  unfold i2cFinish
  repeat' (first | with_reducible assumption | with_reducible apply ev_i2cEnd | intro _ | extract_lets | split)

theorem ev_stretchEnd {s0 s : State} {u : Nat} {xferred : BitVec 6} (hE : Ev s0 s)  : Ev s0 (stretchEnd u xferred s) := by
  unfold stretchEnd
  repeat' (first | with_reducible assumption | with_reducible apply ev_i2cEnd)

theorem ev_i2cCfgWrite {s0 s : State} {port : Nat} {u : Nat} {v : Word} (hE : Ev s0 s)  : Ev s0 (i2cCfgWrite port u v s) := by
  unfold i2cCfgWrite
  repeat' (first | with_reducible assumption | with_reducible apply ev_State_putFields | with_reducible apply ev_checked | intro _)

theorem ev_unitDataWrite {s0 s : State} {r : Reg} {f : Nat} {port : Nat} {u : Nat} {j : Nat} {v : Word} (hE : Ev s0 s)  : Ev s0 (unitDataWrite r f port u j v s) := by
  unfold unitDataWrite
  repeat' (first | with_reducible assumption | with_reducible apply ev_State_setRegP | with_reducible apply ev_checked | intro _)

theorem ev_resetUnits {s0 s : State} {reach : Nat → Nat → Bool} {host : Bool} (hE : Ev s0 s)  : Ev s0 (resetUnits reach host s) := by
  unfold resetUnits
  repeat' (first | with_reducible assumption | with_reducible apply ev_State_setReg | with_reducible apply ev_forEach | with_reducible apply ev_State_onPins | with_reducible apply ev_State_setPwm | intro _)

theorem ev_gateServe {s0 s : State} {b : Nat} {d : Nat} {mine : Packet → Bool} {act : Packet → State → State} (hE : Ev s0 s) (hact : ∀ (a0 : Packet) t, Ev s0 t → Ev s0 (act a0 t)) : Ev s0 (gateServe b d mine act s) := by
  unfold gateServe
  repeat' (first | with_reducible assumption | with_reducible apply hact | with_reducible apply ev_takeHead | intro _ | extract_lets | split)

theorem ev_gateChecked {s0 s : State} {p : Packet} {l : List Status} {act : State → State} (hE : Ev s0 s) (hact : ∀  t, Ev s0 t → Ev s0 (act  t)) : Ev s0 (gateChecked p l act s) := by
  unfold gateChecked
  repeat' (first | with_reducible assumption | with_reducible apply hact | with_reducible apply ev_refuseAtExit | intro _ | extract_lets | split)

theorem ev_gwPinsRead {s0 s : State} {b : Nat} {d : Nat} (hE : Ev s0 s)  : Ev s0 (gwPinsRead b d s) := by
  unfold gwPinsRead
  repeat' (first | with_reducible assumption | with_reducible apply ev_State_nextFree | with_reducible apply ev_answer | with_reducible apply ev_gateServe | with_reducible apply ev_gateChecked | intro _)

theorem ev_gwPut {s0 s : State} {f : Nat → Bool → State → State} {b : Nat} {p : Packet} (hE : Ev s0 s) (hf : ∀ (a0 : Nat) (a1 : Bool) t, Ev s0 t → Ev s0 (f a0 a1 t)) : Ev s0 (gwPut f b p s) := by
  unfold gwPut
  repeat' (first | with_reducible assumption | with_reducible apply hf | with_reducible apply ev_State_bump | with_reducible apply ev_forEach | intro _ | extract_lets | split)

theorem ev_gwPinsWrite {s0 s : State} {b : Nat} {d : Nat} (hE : Ev s0 s)  : Ev s0 (gwPinsWrite b d s) := by
  unfold gwPinsWrite
  repeat' (first | with_reducible assumption | with_reducible apply ev_answer | with_reducible apply ev_State_setPin | with_reducible apply ev_setPin | with_reducible apply ev_gateServe | with_reducible apply ev_gateChecked | with_reducible apply ev_gwPut | intro _)

theorem ev_gwOeRead {s0 s : State} {b : Nat} {d : Nat} (hE : Ev s0 s)  : Ev s0 (gwOeRead b d s) := by
  unfold gwOeRead
  repeat' (first | with_reducible assumption | with_reducible apply ev_State_nextFree | with_reducible apply ev_answer | with_reducible apply ev_gateServe | with_reducible apply ev_gateChecked | intro _)

theorem ev_gwOeWrite {s0 s : State} {b : Nat} {d : Nat} (hE : Ev s0 s)  : Ev s0 (gwOeWrite b d s) := by
  unfold gwOeWrite
  repeat' (first | with_reducible assumption | with_reducible apply ev_answer | with_reducible apply ev_State_setPin | with_reducible apply ev_setPin | with_reducible apply ev_gateServe | with_reducible apply ev_gateChecked | with_reducible apply ev_gwPut | intro _)

theorem ev_gwRearm {s0 s : State} {b : Nat} {d : Nat} (hE : Ev s0 s)  : Ev s0 (gwRearm b d s) := by
  unfold gwRearm
  repeat' (first | with_reducible assumption | with_reducible apply ev_answer | with_reducible apply ev_rearm | with_reducible apply ev_gateServe | with_reducible apply ev_gateChecked | with_reducible apply ev_gwPut | intro _)

theorem ev_gwPwmRead {s0 s : State} {b : Nat} {d : Nat} (hE : Ev s0 s)  : Ev s0 (gwPwmRead b d s) := by
  unfold gwPwmRead
  repeat' (first | with_reducible assumption | with_reducible apply ev_answer | with_reducible apply ev_gateServe | with_reducible apply ev_gateChecked | intro _)

theorem ev_gwPwmWrite {s0 s : State} {b : Nat} {d : Nat} (hE : Ev s0 s)  : Ev s0 (gwPwmWrite b d s) := by
  unfold gwPwmWrite
  repeat' (first | with_reducible assumption | with_reducible apply ev_answer | with_reducible apply ev_pwmShadow | with_reducible apply ev_gateServe | with_reducible apply ev_gateChecked | intro _)

theorem ev_gwSpiRead {s0 s : State} {b : Nat} {d : Nat} (hE : Ev s0 s)  : Ev s0 (gwSpiRead b d s) := by
  unfold gwSpiRead
  repeat' (first | with_reducible assumption | with_reducible apply ev_answer | with_reducible apply ev_gateServe | with_reducible apply ev_gateChecked | intro _)

theorem ev_gwSpiWrite {s0 s : State} {b : Nat} {d : Nat} (hE : Ev s0 s)  : Ev s0 (gwSpiWrite b d s) := by
  unfold gwSpiWrite
  repeat' (first | with_reducible assumption | with_reducible apply ev_putData | with_reducible apply ev_spiStart | with_reducible apply ev_gateServe | with_reducible apply ev_gateChecked | intro _)

theorem ev_gwI2cRead {s0 s : State} {b : Nat} {d : Nat} (hE : Ev s0 s)  : Ev s0 (gwI2cRead b d s) := by
  unfold gwI2cRead
  repeat' (first | with_reducible assumption | with_reducible apply ev_answer | with_reducible apply ev_gateServe | with_reducible apply ev_gateChecked | intro _)

theorem ev_gwI2cWrite {s0 s : State} {b : Nat} {d : Nat} (hE : Ev s0 s)  : Ev s0 (gwI2cWrite b d s) := by
  unfold gwI2cWrite
  repeat' (first | with_reducible assumption | with_reducible apply ev_putData | with_reducible apply ev_i2cStart | with_reducible apply ev_gateServe | with_reducible apply ev_gateChecked | intro _)

end Sys2Proof.Machine
end

