-- ==== Sys2Proof/Laws/EvolveTime.lean ====
section
/-! SUPPORT. Evolve: the operations of Machine/Time.lean keep what Ev says. -/
set_option linter.unusedVariables false
namespace Sys2Proof.Machine
variable {s0 s : State}
theorem ev_State_onTime {s0 s : State} {f : TimeSt → TimeSt} (hE : Ev s0 s)  : Ev s0 (State.onTime s f) := by
  unfold State.onTime
  repeat' (first | with_reducible assumption | intro _ | extract_lets | split | fail_if_no_progress (with_reducible apply ev_mk))

theorem ev_timeStart {s0 s : State}  (hE : Ev s0 s)  : Ev s0 (timeStart s) := by
  unfold timeStart
  repeat' (first | with_reducible assumption | with_reducible apply ev_State_onTime | intro _ | extract_lets | split)

theorem ev_refGone {s0 s : State}  (hE : Ev s0 s)  : Ev s0 (refGone s) := by
  unfold refGone
  repeat' (first | with_reducible assumption | with_reducible apply ev_State_onTime)

theorem ev_startTimeout {s0 s : State}  (hE : Ev s0 s)  : Ev s0 (startTimeout s) := by
  unfold startTimeout
  repeat' (first | with_reducible assumption | with_reducible apply ev_notifyOwner | with_reducible apply ev_timeStart | with_reducible apply ev_refGone | intro _ | extract_lets | split)

theorem ev_tbrefGone {s0 s : State}  (hE : Ev s0 s)  : Ev s0 (tbrefGone s) := by
  unfold tbrefGone
  repeat' (first | with_reducible assumption | with_reducible apply ev_State_bump | with_reducible apply ev_notifyOwner | with_reducible apply ev_refGone | intro _ | extract_lets | split)

theorem ev_tbrefFound {s0 s : State}  (hE : Ev s0 s)  : Ev s0 (tbrefFound s) := by
  unfold tbrefFound
  repeat' (first | with_reducible assumption | with_reducible apply ev_State_onTime | intro _ | extract_lets | split)

theorem ev_holdEnd {s0 s : State}  (hE : Ev s0 s)  : Ev s0 (holdEnd s) := by
  unfold holdEnd
  repeat' (first | with_reducible assumption | with_reducible apply ev_notifyOwner | with_reducible apply ev_State_onTime | intro _ | extract_lets | split)

theorem ev_nearWrap {s0 s : State}  (hE : Ev s0 s)  : Ev s0 (nearWrap s) := by
  unfold nearWrap
  repeat' (first | with_reducible assumption | with_reducible apply ev_notifyOwner | with_reducible apply ev_State_onTime | intro _ | extract_lets | split)

theorem ev_wrap {s0 s : State}  (hE : Ev s0 s)  : Ev s0 (wrap s) := by
  unfold wrap
  repeat' (first | with_reducible assumption | with_reducible apply ev_State_onTime | intro _ | extract_lets | split)

theorem ev_advanceTo {s0 s : State} {t : Tick} (hE : Ev s0 s)  : Ev s0 (advanceTo t s) := by
  unfold advanceTo
  repeat' (first | with_reducible assumption | with_reducible apply ev_State_onTime)

theorem ev_snapshot {s0 s : State}  (hE : Ev s0 s)  : Ev s0 (snapshot s) := by
  unfold snapshot
  repeat' (first | with_reducible assumption | with_reducible apply ev_agree | with_reducible apply ev_State_onTime | with_reducible apply ev_advanceTo | intro _ | extract_lets | split)

theorem ev_tbsyncWrite {s0 s : State} {p : Nat} {v : Word} (hE : Ev s0 s)  : Ev s0 (tbsyncWrite p v s) := by
  unfold tbsyncWrite
  repeat' (first | with_reducible assumption | with_reducible apply ev_State_putFields | with_reducible apply ev_ownerOnly | with_reducible apply ev_okAfter | intro _)

theorem ev_nowRead {s0 s : State} {p : Nat} (hE : Ev s0 s)  : Ev s0 (nowRead p s) := by
  unfold nowRead
  repeat' (first | with_reducible assumption | with_reducible apply ev_State_setRegP | with_reducible apply ev_readFrom)

theorem ev_missSample {s0 s : State} {q : Nat} (hE : Ev s0 s)  : Ev s0 (missSample q s) := by
  unfold missSample
  repeat' (first | with_reducible assumption | with_reducible apply ev_notifyOnce | with_reducible apply ev_sampleMissed)

theorem ev_setCount {s0 s : State} {q : Nat} {c : Word} (hE : Ev s0 s)  : Ev s0 (setCount q c s) := by
  unfold setCount
  repeat' (first | with_reducible assumption | with_reducible apply ev_State_setQd)

theorem ev_sample {s0 s : State} {q : Nat} {cause : Nat} {t : Tick} (hE : Ev s0 s)  : Ev s0 (sample q cause t s) := by
  unfold sample
  repeat' (first | with_reducible assumption | with_reducible apply ev_queueFault | with_reducible apply ev_State_setQd | with_reducible apply ev_sampleMissed | with_reducible apply ev_missSample | intro _ | extract_lets | split)

theorem ev_quadrature {s0 s : State} {q : Nat} {a : Bool} {b : Bool} (hE : Ev s0 s)  : Ev s0 (quadrature q a b s) := by
  unfold quadrature
  repeat' (first | with_reducible assumption | with_reducible apply ev_State_setReg | with_reducible apply ev_notifyOnce | with_reducible apply ev_State_setQd | with_reducible apply ev_setCount | intro _ | extract_lets | split)

theorem ev_qdZero {s0 s : State} {q : Nat} (hE : Ev s0 s)  : Ev s0 (qdZero q s) := by
  unfold qdZero
  repeat' (first | with_reducible assumption | with_reducible apply ev_setCount)

theorem ev_indexEdge {s0 s : State} {q : Nat} (hE : Ev s0 s)  : Ev s0 (indexEdge q s) := by
  unfold indexEdge
  repeat' (first | with_reducible assumption | with_reducible apply ev_State_setQd | with_reducible apply ev_sample | with_reducible apply ev_qdZero | intro _ | extract_lets | split | fail_if_no_progress (with_reducible apply ev_mk) | with_reducible apply ev_ite)

theorem ev_qdSample {s0 s : State} {p : Nat} {q : Nat} (hE : Ev s0 s)  : Ev s0 (qdSample p q s) := by
  unfold qdSample
  repeat' (first | with_reducible assumption | with_reducible apply ev_checked | with_reducible apply ev_sample | intro _)

theorem ev_qdClear {s0 s : State} {p : Nat} {q : Nat} (hE : Ev s0 s)  : Ev s0 (qdClear p q s) := by
  unfold qdClear
  repeat' (first | with_reducible assumption | with_reducible apply ev_checked | with_reducible apply ev_qdZero | intro _)

theorem ev_qdSend {s0 s : State} {q : Nat} (hE : Ev s0 s)  : Ev s0 (qdSend q s) := by
  unfold qdSend
  repeat' (first | with_reducible assumption | with_reducible apply ev_queueFault | with_reducible apply ev_queueOut | with_reducible apply ev_State_setQd | intro _ | extract_lets | split)

theorem ev_putQdCfg {s0 s : State} {q : Nat} {v : Word} (hE : Ev s0 s)  : Ev s0 (putQdCfg q v s) := by
  unfold putQdCfg
  repeat' (first | with_reducible assumption | with_reducible apply ev_State_putFields)

theorem ev_qdCfgWrite {s0 s : State} {p : Nat} {q : Nat} {v : Word} (hE : Ev s0 s)  : Ev s0 (qdCfgWrite p q v s) := by
  unfold qdCfgWrite
  repeat' (first | with_reducible assumption | with_reducible apply ev_checked | with_reducible apply ev_putQdCfg | intro _)

theorem ev_qdSubWrite {s0 s : State} {p : Nat} {q : Nat} {v : Word} (hE : Ev s0 s)  : Ev s0 (qdSubWrite p q v s) := by
  unfold qdSubWrite
  repeat' (first | with_reducible assumption | with_reducible apply ev_State_putFields | with_reducible apply ev_checked | intro _)

theorem ev_qdLastRead {s0 s : State} {p : Nat} {q : Nat} (hE : Ev s0 s)  : Ev s0 (qdLastRead p q s) := by
  unfold qdLastRead
  repeat' (first | with_reducible assumption | with_reducible apply ev_State_setRegP | with_reducible apply ev_State_finish | intro _ | extract_lets | split)

theorem ev_sampleTick {s0 s : State} {t : Tick} {done : Bool} (hE : Ev s0 s)  : Ev s0 (sampleTick t done s) := by
  unfold sampleTick
  repeat' (first | with_reducible assumption | with_reducible apply ev_forEach | with_reducible apply ev_sample | intro _ | extract_lets | split)

theorem ev_senseEvent {s0 s : State} {k : Nat} {t : Tick} {rise : Bool} (hE : Ev s0 s)  : Ev s0 (senseEvent k t rise s) := by
  unfold senseEvent
  repeat' (first | with_reducible assumption | with_reducible apply ev_forEach | with_reducible apply ev_notifyOnce | with_reducible apply ev_State_setChan | with_reducible apply ev_acceptEvent | with_reducible apply ev_chanPush | with_reducible apply ev_sample | intro _ | extract_lets | split)

theorem ev_senseEdge {s0 s : State} {k : Nat} {rise : Bool} {time : Tick} (hE : Ev s0 s)  : Ev s0 (senseEdge k rise time s) := by
  unfold senseEdge
  repeat' (first | with_reducible assumption | with_reducible apply ev_State_setSense | with_reducible apply ev_glitch | with_reducible apply ev_senseEvent | intro _ | extract_lets | split)

theorem ev_windowClosed {s0 s : State} {k : Nat} (hE : Ev s0 s)  : Ev s0 (windowClosed k s) := by
  unfold windowClosed
  repeat' (first | with_reducible assumption | with_reducible apply ev_State_setSense | with_reducible apply ev_senseEvent | intro _ | extract_lets | split)

theorem ev_senseSend {s0 s : State} {k : Nat} (hE : Ev s0 s)  : Ev s0 (senseSend k s) := by
  unfold senseSend
  repeat' (first | with_reducible assumption | with_reducible apply ev_chanSend | intro _ | extract_lets | split)

theorem ev_senseSubWrite {s0 s : State} {p : Nat} {k : Nat} {v : Word} (hE : Ev s0 s)  : Ev s0 (senseSubWrite p k v s) := by
  unfold senseSubWrite
  repeat' (first | with_reducible assumption | with_reducible apply ev_checked | with_reducible apply ev_putSub | intro _)

theorem ev_senseCfgWrite {s0 s : State} {p : Nat} {k : Nat} {v : Word} (hE : Ev s0 s)  : Ev s0 (senseCfgWrite p k v s) := by
  unfold senseCfgWrite
  repeat' (first | with_reducible assumption | with_reducible apply ev_State_putFields | with_reducible apply ev_checked | intro _)

end Sys2Proof.Machine
end

