-- ==== Sys2Proof/Laws/EvolveCrossings.lean ====
section
/-! SUPPORT. Evolve: the operations of Machine/Crossings.lean keep what Ev says. -/
set_option linter.unusedVariables false
namespace Sys2Proof.Machine
variable {s0 s : State}
theorem ev_xingUnstable {s0 s : State} {k : Nat} (hE : Ev s0 s)  : Ev s0 (xingUnstable k s) := by
  unfold xingUnstable
  repeat' (first | with_reducible assumption | with_reducible apply ev_State_bump | with_reducible apply ev_notifyOwner | with_reducible apply ev_State_setXing | with_reducible apply ev_xingLast | intro _ | extract_lets | split)

theorem ev_clockStop {s0 s : State} {i : Isl} (hE : Ev s0 s)  : Ev s0 (clockStop i s) := by
  unfold clockStop
  repeat' (first | with_reducible assumption | intro _ | extract_lets | split | fail_if_no_progress (with_reducible apply ev_mk))

theorem ev_wakeIsland {s0 s : State} {i : Isl} (hE : Ev s0 s)  : Ev s0 (wakeIsland i s) := by
  unfold wakeIsland
  repeat' (first | with_reducible assumption | intro _ | extract_lets | split | fail_if_no_progress (with_reducible apply ev_mk))

theorem ev_crossingPresent {s0 s : State} {i : Isl} (hE : Ev s0 s)  : Ev s0 (crossingPresent i s) := by
  unfold crossingPresent
  repeat' (first | with_reducible assumption | with_reducible apply ev_forEach | with_reducible apply ev_State_setXing | intro _ | extract_lets | split)

theorem ev_testStart {s0 s : State} {p : Nat} {g : Nat} {b : Nat} (hE : Ev s0 s)  : Ev s0 (testStart p g b s) := by
  unfold testStart
  repeat' (first | with_reducible assumption | with_reducible apply ev_ownerOnly | with_reducible apply ev_bankTestStart | intro _)

theorem ev_testStop {s0 s : State} {p : Nat} (hE : Ev s0 s)  : Ev s0 (testStop p s) := by
  unfold testStop
  repeat' (first | with_reducible assumption | with_reducible apply ev_wakeIsl | with_reducible apply ev_ownerOnly | with_reducible apply ev_bankTestStop | intro _)

theorem ev_memCtlWrite {s0 s : State} {p : Nat} {v : Word} (hE : Ev s0 s)  : Ev s0 (memCtlWrite p v s) := by
  unfold memCtlWrite
  repeat' (first | with_reducible assumption | with_reducible apply ev_ownerOnly | with_reducible apply ev_memCtl | intro _)

theorem ev_confRead {s0 s : State} {p : Nat} {m : Nat} (hE : Ev s0 s)  : Ev s0 (confRead p m s) := by
  unfold confRead
  repeat' (first | with_reducible assumption | with_reducible apply ev_State_setRegP | with_reducible apply ev_State_finish | with_reducible apply ev_wakeIsl | with_reducible apply ev_readFrom | intro _ | extract_lets | split)

end Sys2Proof.Machine
end

