-- ==== Sys2Proof/Laws/EvolveLink.lean ====
section
/-! SUPPORT. Evolve: the operations of Machine/Link.lean keep what Ev says. -/
set_option linter.unusedVariables false
namespace Sys2Proof.Machine
variable {s0 s : State}
theorem ev_State_onPort {s0 s : State} {p : Nat} {f : PortSt → PortSt} (hE : Ev s0 s)  : Ev s0 (State.onPort s p f) := by
  unfold State.onPort
  repeat' (first | with_reducible assumption | with_reducible apply ev_State_setPort)

theorem ev_bumpLink {s0 s : State} {r : Reg} {p : Nat} (hE : Ev s0 s)  : Ev s0 (bumpLink r p s) := by
  unfold bumpLink
  repeat' (first | with_reducible assumption | with_reducible apply ev_State_bump)

theorem ev_portDetect {s0 s : State} {p : Nat} (hE : Ev s0 s)  : Ev s0 (portDetect p s) := by
  unfold portDetect
  repeat' (first | with_reducible assumption | with_reducible apply ev_State_onPort)

theorem ev_loseLock {s0 s : State} {p : Nat} (hE : Ev s0 s)  : Ev s0 (loseLock p s) := by
  unfold loseLock
  repeat' (first | with_reducible assumption | with_reducible apply ev_State_nextFree | with_reducible apply ev_State_onPort)

theorem ev_leaveActive {s0 s : State} {p : Nat} {cause : BitVec 4} (hE : Ev s0 s)  : Ev s0 (leaveActive p cause s) := by
  unfold leaveActive
  repeat' (first | with_reducible assumption | with_reducible apply ev_notifyOwner | with_reducible apply ev_State_onPort | with_reducible apply ev_bumpLink | with_reducible apply ev_portDetect | intro _ | extract_lets | split)

theorem ev_replayFrom {s0 s : State} {p : Nat} {which : HPkt → Bool} (hE : Ev s0 s)  : Ev s0 (replayFrom p which s) := by
  unfold replayFrom
  repeat' (first | with_reducible assumption | with_reducible apply ev_tally | with_reducible apply ev_State_setPort | with_reducible apply ev_notifyOnce | with_reducible apply ev_bumpLink | intro _ | extract_lets | split)

theorem ev_replayLimit {s0 s : State} {p : Nat} (hE : Ev s0 s)  : Ev s0 (replayLimit p s) := by
  unfold replayLimit
  repeat' (first | with_reducible assumption | with_reducible apply ev_State_onPort | with_reducible apply ev_leaveActive | intro _ | extract_lets | split)

theorem ev_portActive {s0 s : State} {p : Nat} (hE : Ev s0 s)  : Ev s0 (portActive p s) := by
  unfold portActive
  repeat' (first | with_reducible assumption | with_reducible apply ev_State_setPort | with_reducible apply ev_notify | with_reducible apply ev_replayFrom | with_reducible apply ev_replayLimit)

theorem ev_linkStep {s0 s : State} {p : Nat} (hE : Ev s0 s)  : Ev s0 (linkStep p s) := by
  unfold linkStep
  repeat' (first | with_reducible assumption | with_reducible apply ev_State_nextFree | with_reducible apply ev_State_setPort | with_reducible apply ev_portActive | intro _ | extract_lets | split)

theorem ev_alignBlk {s0 s : State} {p : Nat} {l : Nat} (hE : Ev s0 s)  : Ev s0 (alignBlk p l s) := by
  unfold alignBlk
  repeat' (first | with_reducible assumption | with_reducible apply ev_State_onPort | intro _ | extract_lets | split)

theorem ev_trainTimeout {s0 s : State} {p : Nat} (hE : Ev s0 s)  : Ev s0 (trainTimeout p s) := by
  unfold trainTimeout
  repeat' (first | with_reducible assumption | with_reducible apply ev_State_setPort | intro _ | extract_lets | split)

theorem ev_trainRetry {s0 s : State} {p : Nat} (hE : Ev s0 s)  : Ev s0 (trainRetry p s) := by
  unfold trainRetry
  repeat' (first | with_reducible assumption | with_reducible apply ev_portDetect | intro _ | extract_lets | split)

theorem ev_linkGone {s0 s : State} {p : Nat} {c : LossCause} (hE : Ev s0 s)  : Ev s0 (linkGone p c s) := by
  unfold linkGone
  repeat' (first | with_reducible assumption | with_reducible apply ev_loseLock | with_reducible apply ev_leaveActive | intro _ | extract_lets | split)

theorem ev_trainBlock {s0 s : State} {p : Nat} {ack : Bool} (hE : Ev s0 s)  : Ev s0 (trainBlock p ack s) := by
  unfold trainBlock
  repeat' (first | with_reducible assumption | with_reducible apply ev_leaveActive | intro _ | extract_lets | split)

theorem ev_silence {s0 s : State} {p : Nat} (hE : Ev s0 s)  : Ev s0 (silence p s) := by
  unfold silence
  repeat' (first | with_reducible assumption | with_reducible apply ev_State_onMem | with_reducible apply ev_State_onPort)

theorem ev_dropPortExports {s0 s : State} {p : Nat} (hE : Ev s0 s)  : Ev s0 (dropPortExports p s) := by
  unfold dropPortExports
  repeat' (first | with_reducible assumption | with_reducible apply ev_forEach | with_reducible apply ev_dropExport | intro _ | extract_lets | split)

theorem ev_clearLayer {s0 s : State} {p : Nat} (hE : Ev s0 s)  : Ev s0 (clearLayer p s) := by
  unfold clearLayer
  repeat' (first | with_reducible assumption | with_reducible apply ev_forEach | with_reducible apply ev_State_setPort | with_reducible apply ev_State_setMbox | with_reducible apply ev_silence | with_reducible apply ev_dropPortExports | intro _)

theorem ev_resetPort {s0 s : State} {p : Nat} (hE : Ev s0 s)  : Ev s0 (resetPort p s) := by
  unfold resetPort
  repeat' (first | with_reducible assumption | with_reducible apply ev_forEach | with_reducible apply ev_wakeIsl | with_reducible apply ev_peerReset | with_reducible apply ev_State_onPort | with_reducible apply ev_leaveActive | with_reducible apply ev_clearLayer | intro _ | extract_lets | split)

theorem ev_portRetrain {s0 s : State} {p : Nat} {t : Nat} (hE : Ev s0 s)  : Ev s0 (portRetrain p t s) := by
  unfold portRetrain
  repeat' (first | with_reducible assumption | with_reducible apply ev_checked | with_reducible apply ev_leaveActive | intro _)

theorem ev_portReset {s0 s : State} {p : Nat} {t : Nat} (hE : Ev s0 s)  : Ev s0 (portReset p t s) := by
  unfold portReset
  repeat' (first | with_reducible assumption | with_reducible apply ev_checked | with_reducible apply ev_resetPort | intro _)

theorem ev_portResetEnd {s0 s : State} {p : Nat} (hE : Ev s0 s)  : Ev s0 (portResetEnd p s) := by
  unfold portResetEnd
  repeat' (first | with_reducible assumption | with_reducible apply ev_portDetect | intro _ | extract_lets | split)

theorem ev_layerTimeout {s0 s : State} {p : Nat} (hE : Ev s0 s)  : Ev s0 (layerTimeout p s) := by
  unfold layerTimeout
  repeat' (first | with_reducible assumption | with_reducible apply ev_State_setPort | with_reducible apply ev_clearLayer | intro _ | extract_lets | split)

theorem ev_portQFault {s0 s : State} {p : Nat} {k : Nat} (hE : Ev s0 s)  : Ev s0 (portQFault p k s) := by
  unfold portQFault
  repeat' (first | with_reducible assumption | with_reducible apply ev_queueFault | with_reducible apply ev_State_onPort | intro _ | extract_lets | split)

theorem ev_reqFault {s0 s : State} {p : Nat} {more : List HReq} (hE : Ev s0 s)  : Ev s0 (reqFault p more s) := by
  unfold reqFault
  repeat' (first | with_reducible assumption | with_reducible apply ev_forEach | with_reducible apply ev_State_setPort | with_reducible apply ev_queueFault | with_reducible apply ev_formRsp | intro _)

theorem ev_takeRequest {s0 s : State} {p : Nat} {r : HReq} (hE : Ev s0 s)  : Ev s0 (takeRequest p r s) := by
  unfold takeRequest
  repeat' (first | with_reducible assumption | with_reducible apply ev_State_setPort | with_reducible apply ev_reqFault | intro _ | extract_lets | split)

theorem ev_onPacket {s0 s : State} {p : Nat} {seq : BitVec 12} {r : HReq} (hE : Ev s0 s)  : Ev s0 (onPacket p seq r s) := by
  unfold onPacket
  repeat' (first | with_reducible assumption | with_reducible apply ev_tally | with_reducible apply ev_wakeIsl | with_reducible apply ev_State_setPort | with_reducible apply ev_takeRequest | intro _ | extract_lets | split)

theorem ev_crcError {s0 s : State} {p : Nat} (hE : Ev s0 s)  : Ev s0 (crcError p s) := by
  unfold crcError
  repeat' (first | with_reducible assumption | with_reducible apply ev_State_onPort | with_reducible apply ev_bumpLink | intro _ | extract_lets | split)

theorem ev_linkCredit {s0 s : State} {p : Nat} {cls : Nat} {count : Nat} (hE : Ev s0 s)  : Ev s0 (linkCredit p cls count s) := by
  unfold linkCredit
  repeat' (first | with_reducible assumption | with_reducible apply ev_State_setPort | intro _ | extract_lets | split)

theorem ev_sendPkt {s0 s : State} {p : Nat} {cls : Nat} {typ : BitVec 4} {tag : Byte} {st : Status} {arg : Nat} {words : List DWord} (hE : Ev s0 s)  : Ev s0 (sendPkt p cls typ tag st arg words s) := by
  unfold sendPkt
  repeat' (first | with_reducible assumption | with_reducible apply ev_tally | with_reducible apply ev_State_setPort)

theorem ev_freeEntries {s0 s : State} {p : Nat} {seqs : List (BitVec 12)} {m : Nat} (hE : Ev s0 s)  : Ev s0 (freeEntries p seqs m s) := by
  unfold freeEntries
  repeat' (first | with_reducible assumption | with_reducible apply ev_foldl | with_reducible apply ev_foldl_snd | with_reducible apply ev_forEach | with_reducible apply ev_answer | with_reducible apply ev_State_setMbox | with_reducible apply ev_portQFault | intro _ | extract_lets | split)

theorem ev_linkAck {s0 s : State} {p : Nat} {seq : BitVec 12} (hE : Ev s0 s)  : Ev s0 (linkAck p seq s) := by
  unfold linkAck
  repeat' (first | with_reducible assumption | with_reducible apply ev_forEach | with_reducible apply ev_State_setPort | with_reducible apply ev_freeEntries | intro _ | extract_lets | split)

theorem ev_linkNak {s0 s : State} {p : Nat} {seq : BitVec 12} (hE : Ev s0 s)  : Ev s0 (linkNak p seq s) := by
  unfold linkNak
  repeat' (first | with_reducible assumption | with_reducible apply ev_replayFrom | with_reducible apply ev_replayLimit | intro _ | extract_lets | split)

theorem ev_replayTimeout {s0 s : State} {p : Nat} (hE : Ev s0 s)  : Ev s0 (replayTimeout p s) := by
  unfold replayTimeout
  repeat' (first | with_reducible assumption | with_reducible apply ev_replayFrom | with_reducible apply ev_replayLimit | intro _ | extract_lets | split)

theorem ev_hostMem {s0 s : State} {p : Fin 4} {tag : Option Byte} {wr : Bool} {addr : Nat} {n : Nat} {bs : List Byte} (hE : Ev s0 s)  : Ev s0 (hostMem p tag wr addr n bs s) := by
  unfold hostMem
  repeat' (first | with_reducible assumption | with_reducible apply ev_wakeIsl | with_reducible apply ev_formRsp | with_reducible apply ev_memDenied | with_reducible apply ev_startOp | intro _ | extract_lets | split)

theorem ev_winIssue {s0 s : State} {p : Fin 4} {w : WinAcc} (hE : Ev s0 s)  : Ev s0 (winIssue p w s).2 := by
  unfold winIssue
  repeat' (first | with_reducible assumption | with_reducible apply ev_send | with_reducible apply ev_State_setMbox | intro _ | extract_lets | split)

theorem ev_winTake {s0 s : State} {p : Nat} {e : MbxEnt} (hE : Ev s0 s)  : Ev s0 (winTake p e s) := by
  unfold winTake
  repeat' (first | with_reducible assumption | with_reducible apply ev_State_setMbox)

theorem ev_winRsp {s0 s : State} {p : Nat} {w : WinAcc} {st : Status} (hE : Ev s0 s)  : Ev s0 (winRsp p w st s) := by
  unfold winRsp
  repeat' (first | with_reducible assumption | with_reducible apply ev_formRsp)

theorem ev_winNext {s0 s : State} {p : Fin 4} {w : WinAcc} (hE : Ev s0 s)  : Ev s0 (winNext p w s).2 := by
  unfold winNext
  repeat' (first | with_reducible assumption | with_reducible apply ev_winIssue | with_reducible apply ev_winRsp | intro _ | extract_lets | split)

theorem ev_winServe {s0 s : State} {p : Fin 4} {w : WinAcc} (hE : Ev s0 s)  : Ev s0 (winServe p w s).2 := by
  unfold winServe
  repeat' (first | with_reducible assumption | with_reducible apply ev_winTake | with_reducible apply ev_winRsp | with_reducible apply ev_winNext | intro _ | extract_lets | split)

theorem ev_serveWins {s0 s : State} {p : Fin 4} (hE : Ev s0 s)  : Ev s0 (serveWins p s) := by
  unfold serveWins
  repeat' (first | with_reducible assumption | with_reducible apply ev_foldl | with_reducible apply ev_foldl_snd | with_reducible apply ev_State_onPort | with_reducible apply ev_winServe | intro _ | extract_lets | split | fail_if_no_progress (with_reducible apply ev_mk) | with_reducible apply ev_ite | with_reducible apply ev_id | dsimp only | with_reducible refine ev_of_pair (by assumption) ?_)

theorem ev_hostWin {s0 s : State} {p : Fin 4} {tag : Option Byte} {wr : Bool} {addr : Nat} {n : Nat} {bs : List Byte} (hE : Ev s0 s)  : Ev s0 (hostWin p tag wr addr n bs s) := by
  unfold hostWin
  repeat' (first | with_reducible assumption | with_reducible apply ev_formRsp | with_reducible apply ev_State_onPort | with_reducible apply ev_serveWins | intro _ | extract_lets | split)

theorem ev_refusePly {s0 s : State} {p : Nat} {tag : Option Byte} {k : Packet} {st : Status} (hE : Ev s0 s)  : Ev s0 (refusePly p tag k st s) := by
  unfold refusePly
  repeat' (first | with_reducible assumption | with_reducible apply ev_recordRefusal | with_reducible apply ev_formRsp)

theorem ev_hostPly {s0 s : State} {p : Fin 4} {tag : Option Byte} {arg : BitVec 16} {words : List Word} (hE : Ev s0 s)  : Ev s0 (hostPly p tag arg words s) := by
  unfold hostPly
  repeat' (first | with_reducible assumption | with_reducible apply ev_send | with_reducible apply ev_State_setMbox | with_reducible apply ev_formRsp | with_reducible apply ev_State_onPort | with_reducible apply ev_refusePly | intro _ | extract_lets | split | fail_if_no_progress (with_reducible apply ev_mk) | with_reducible apply ev_ite)

theorem ev_mboxArrive {s0 s : State} {p : Fin 4} {k : Nat} (hE : Ev s0 s)  : Ev s0 (mboxArrive p k s) := by
  unfold mboxArrive
  repeat' (first | with_reducible assumption | with_reducible apply ev_State_setInbox | with_reducible apply ev_State_setMbox | with_reducible apply ev_respToMbox | with_reducible apply ev_refuseAtExit | with_reducible apply ev_takeReq | with_reducible apply ev_portQFault | intro _ | with_reducible apply ev_serveWins | intro _ | extract_lets | split)

theorem ev_rspSend {s0 s : State} {p : Fin 4} {act : Nat → Word → State → State} (hE : Ev s0 s) (hact : ∀ (a0 : Nat) (a1 : Word) t, Ev s0 t → Ev s0 (act a0 a1 t)) : Ev s0 (rspSend p act s) := by
  unfold rspSend
  repeat' (first | with_reducible assumption | with_reducible apply hact | with_reducible apply ev_State_setPort | with_reducible apply ev_queueFault | with_reducible apply ev_sendPkt | with_reducible apply ev_serveWins | intro _ | extract_lets | split)

theorem ev_mbxSend {s0 s : State} {p : Fin 4} (hE : Ev s0 s)  : Ev s0 (mbxSend p s) := by
  unfold mbxSend
  repeat' (first | with_reducible assumption | with_reducible apply ev_State_setMbox | with_reducible apply ev_State_onPort | with_reducible apply ev_portQFault | with_reducible apply ev_sendPkt | with_reducible apply ev_serveWins | intro _ | extract_lets | split)

theorem ev_ntfWords {p w n : Nat} (h : Ev s0 s) : Ev s0 (ntfWords p w n s).2 := by
  induction n generalizing s w with
  | zero => exact h
  | succ n ih =>
    unfold ntfWords
    have h1 : Ev s0 (readReel (1 + p) (80 + p) p w s).2 := ev_readReel h
    dsimp only
    split
    · exact ih h1
    · exact ih (ev_State_nextFree h1)

theorem ev_ntfFault {s0 s : State} {p : Nat} (hE : Ev s0 s)  : Ev s0 (ntfFault p s) := by
  unfold ntfFault
  repeat' (first | with_reducible assumption | with_reducible apply ev_queueFault | with_reducible apply ev_State_onPort)

theorem ev_ntfSend {s0 s : State} {p : Nat} (hE : Ev s0 s)  : Ev s0 (ntfSend p s) := by
  unfold ntfSend
  repeat' (first | with_reducible assumption | with_reducible apply ev_foldl | with_reducible apply ev_foldl_snd | with_reducible apply ev_State_setPort | with_reducible apply ev_State_onPort | with_reducible apply ev_sendPkt | with_reducible apply ev_ntfWords | intro _ | with_reducible apply ev_ntfFault | intro _ | extract_lets | split)

theorem ev_rptrWrite {s0 s : State} {p : Nat} {v : Word} (hE : Ev s0 s)  : Ev s0 (rptrWrite p v s) := by
  unfold rptrWrite
  repeat' (first | with_reducible assumption | with_reducible apply ev_State_setRegP | with_reducible apply ev_State_stat | with_reducible apply ev_notifyPorts | intro _ | extract_lets | split | fail_if_no_progress (with_reducible apply ev_mk) | with_reducible apply ev_ite)

theorem ev_sendExp {s0 s : State} {n : Nat} {e : ExpSt} {off : Nat} {flags : DWord} {rest : List DWord} (hE : Ev s0 s)  : Ev s0 (sendExp n e off flags rest s) := by
  unfold sendExp
  repeat' (first | with_reducible assumption | with_reducible apply ev_sendPkt)

theorem ev_exportState {s0 s : State} {n : Nat} {e : ExpSt} {st : BitVec 4} (hE : Ev s0 s)  : Ev s0 (exportState n e st s) := by
  unfold exportState
  repeat' (first | with_reducible assumption | with_reducible apply ev_State_setSlot | intro _ | extract_lets | split)

theorem ev_exportMoved {s0 s : State} {n : Nat} {k : Nat} {e : ExpSt} (hE : Ev s0 s)  : Ev s0 (exportMoved n k e s) := by
  unfold exportMoved
  repeat' (first | with_reducible assumption | with_reducible apply ev_State_setSlot | with_reducible apply ev_State_setExp | with_reducible apply ev_closeEntry | with_reducible apply ev_sendExp | intro _ | extract_lets | split | fail_if_no_progress (with_reducible apply ev_mk) | with_reducible apply ev_ite)

theorem ev_exportBytes {s0 s : State} {n : Nat} {e : ExpSt} (hE : Ev s0 s)  : Ev s0 (exportBytes n e s) := by
  unfold exportBytes
  repeat' (first | with_reducible assumption | with_reducible apply ev_readOk | with_reducible apply ev_endExport | with_reducible apply ev_exportState | with_reducible apply ev_exportMoved | intro _ | extract_lets | split | fail_if_no_progress (with_reducible apply ev_mk) | with_reducible apply ev_ite | with_reducible apply ev_id | dsimp only | with_reducible refine ev_of_pair (by assumption) ?_)

theorem ev_exportSend {s0 s : State} {n : Nat} (hE : Ev s0 s)  : Ev s0 (exportSend n s) := by
  unfold exportSend
  repeat' (first | with_reducible assumption | with_reducible apply ev_whenAwake | with_reducible apply ev_notify | with_reducible apply ev_State_setExp | with_reducible apply ev_tryClose | with_reducible apply ev_portQFault | with_reducible apply ev_sendExp | intro _ | with_reducible apply ev_exportState | with_reducible apply ev_exportBytes | intro _ | extract_lets | split)

end Sys2Proof.Machine
end

