-- ==== Sys2Proof/Laws/EvolveObserve.lean ====
section
/-! SUPPORT. Evolve: the operations of Machine/Observe.lean keep what Ev says. -/
set_option linter.unusedVariables false
namespace Sys2Proof.Machine
variable {s0 s : State}
theorem ev_State_onObs {s0 s : State} {f : ObsSt → ObsSt} (hE : Ev s0 s)  : Ev s0 (State.onObs s f) := by
  unfold State.onObs
  repeat' (first | with_reducible assumption | intro _ | extract_lets | split | fail_if_no_progress (with_reducible apply ev_mk))

theorem ev_State_setCnt {s0 s : State} {k : Nat} {x : ObsCnt} (hE : Ev s0 s)  : Ev s0 (State.setCnt s k x) := by
  unfold State.setCnt
  repeat' (first | with_reducible assumption | with_reducible apply ev_State_onObs)

theorem ev_putCntSrc {s0 s : State} {k : Nat} {v : Word} (hE : Ev s0 s)  : Ev s0 (putCntSrc k v s) := by
  unfold putCntSrc
  repeat' (first | with_reducible assumption | with_reducible apply ev_State_setReg | with_reducible apply ev_wakeIsl | with_reducible apply ev_State_setCnt)

theorem ev_cntSrcWrite {s0 s : State} {p : Nat} {k : Nat} {v : Word} (hE : Ev s0 s)  : Ev s0 (cntSrcWrite p k v s) := by
  unfold cntSrcWrite
  repeat' (first | with_reducible assumption | with_reducible apply ev_checked | with_reducible apply ev_putCntSrc | intro _)

theorem ev_readCnt {s0 s : State} {k : Nat} (hE : Ev s0 s)  : Ev s0 (readCnt k s) := by
  unfold readCnt
  repeat' (first | with_reducible assumption | with_reducible apply ev_tally | with_reducible apply ev_notify | with_reducible apply ev_State_setCnt | intro _ | extract_lets | split)

theorem ev_tallyRound {s0 s : State}  (hE : Ev s0 s)  : Ev s0 (tallyRound s) := by
  unfold tallyRound
  repeat' (first | with_reducible assumption | with_reducible apply ev_forEach | with_reducible apply ev_agree | with_reducible apply ev_readCnt | intro _)

theorem ev_snapAll {s0 s : State}  (hE : Ev s0 s)  : Ev s0 (snapAll s) := by
  unfold snapAll
  repeat' (first | with_reducible assumption | with_reducible apply ev_State_stat | with_reducible apply ev_wakeIsl | with_reducible apply ev_State_onObs | with_reducible apply ev_tallyRound)

theorem ev_cntLoRead {s0 s : State} {p : Nat} {k : Nat} (hE : Ev s0 s)  : Ev s0 (cntLoRead p k s) := by
  unfold cntLoRead
  repeat' (first | with_reducible assumption | with_reducible apply ev_State_setRegP | with_reducible apply ev_State_finish | with_reducible apply ev_wakeIsl | intro _ | extract_lets | split)

theorem ev_plyCntRead {s0 s : State} {dom : Nat} (hE : Ev s0 s)  : Ev s0 (plyCntRead dom s) := by
  unfold plyCntRead
  repeat' (first | with_reducible assumption | with_reducible apply ev_answer | with_reducible apply ev_refuseAtExit | with_reducible apply ev_takeReq | intro _ | extract_lets | split)

theorem ev_State_setProbe {s0 s : State} {j : Nat} {x : ProbeSt} (hE : Ev s0 s)  : Ev s0 (State.setProbe s j x) := by
  unfold State.setProbe
  repeat' (first | with_reducible assumption | with_reducible apply ev_State_onObs)

theorem ev_putProbeSrc {s0 s : State} {j : Nat} {v : Word} (hE : Ev s0 s)  : Ev s0 (putProbeSrc j v s) := by
  unfold putProbeSrc
  repeat' (first | with_reducible assumption | with_reducible apply ev_State_setReg | with_reducible apply ev_wakeIsl)

theorem ev_probeSrcWrite {s0 s : State} {p : Nat} {j : Nat} {v : Word} (hE : Ev s0 s)  : Ev s0 (probeSrcWrite p j v s) := by
  unfold probeSrcWrite
  repeat' (first | with_reducible assumption | with_reducible apply ev_checked | with_reducible apply ev_putProbeSrc | intro _)

theorem ev_loseProbe {s0 s : State} {j : Nat} (hE : Ev s0 s)  : Ev s0 (loseProbe j s) := by
  unfold loseProbe
  repeat' (first | with_reducible assumption | with_reducible apply ev_State_bump | with_reducible apply ev_notifyOnce | with_reducible apply ev_State_setProbe)

theorem ev_probeOccurs {s0 s : State} {j : Nat} {data : Word} {time : Tick} (hE : Ev s0 s)  : Ev s0 (probeOccurs j data time s) := by
  unfold probeOccurs
  repeat' (first | with_reducible assumption | with_reducible apply ev_State_onObs | with_reducible apply ev_State_setProbe | with_reducible apply ev_loseProbe | intro _ | extract_lets | split)

theorem ev_bufferRecord {s0 s : State} {j : Nat} {w : List Word} (hE : Ev s0 s)  : Ev s0 (bufferRecord j w s) := by
  unfold bufferRecord
  repeat' (first | with_reducible assumption | with_reducible apply ev_State_setReg | with_reducible apply ev_notifyOwner | with_reducible apply ev_writeWordsAs | with_reducible apply ev_State_onObs | with_reducible apply ev_loseProbe | intro _ | extract_lets | split)

theorem ev_drainTrc {s0 s : State}  (hE : Ev s0 s)  : Ev s0 (drainTrc s) := by
  unfold drainTrc
  repeat' (first | with_reducible assumption | with_reducible apply ev_State_onObs)

theorem ev_trcRecord {s0 s : State} {w : List Word} (hE : Ev s0 s)  : Ev s0 (trcRecord w s) := by
  unfold trcRecord
  repeat' (first | with_reducible assumption | with_reducible apply ev_State_bump | with_reducible apply ev_notifyOnce | with_reducible apply ev_State_onObs | with_reducible apply ev_drainTrc | intro _ | extract_lets | split)

theorem ev_traceWriter {s0 s : State}  (hE : Ev s0 s)  : Ev s0 (traceWriter s) := by
  unfold traceWriter
  repeat' (first | with_reducible assumption | with_reducible apply ev_State_onObs | with_reducible apply ev_State_setProbe | with_reducible apply ev_bufferRecord | with_reducible apply ev_trcRecord | intro _ | extract_lets | split)

theorem ev_putTraceCfg {s0 s : State} {v : Word} (hE : Ev s0 s)  : Ev s0 (putTraceCfg v s) := by
  unfold putTraceCfg
  repeat' (first | with_reducible assumption | with_reducible apply ev_State_putFields | with_reducible apply ev_State_onObs | intro _ | extract_lets | split)

theorem ev_tapSelect {s0 s : State} {ir : BitVec 4} (hE : Ev s0 s)  : Ev s0 (tapSelect ir s) := by
  unfold tapSelect
  repeat' (first | with_reducible assumption | with_reducible apply ev_State_onObs)

theorem ev_sampleBalls {s0 s : State} {balls : BitVec 1263} (hE : Ev s0 s)  : Ev s0 (sampleBalls balls s) := by
  unfold sampleBalls
  repeat' (first | with_reducible assumption | with_reducible apply ev_State_onObs | with_reducible apply ev_tapSelect)

end Sys2Proof.Machine
end

