-- ==== Sys2Proof/Laws/EvolveSecurity.lean ====
section
/-! SUPPORT. Evolve: the operations of Machine/Security.lean keep what Ev says. -/
set_option linter.unusedVariables false
namespace Sys2Proof.Machine
variable {s0 s : State}
theorem ev_secDone {s0 s : State} {p : Nat} {op : Nat} {st : Status} (hE : Ev s0 s)  : Ev s0 (secDone p op st s) := by
  unfold secDone
  repeat' (first | with_reducible assumption | with_reducible apply ev_State_setRegP | with_reducible apply ev_State_stat)

theorem ev_secCommand {p op : Nat} {l : List Status} {act : State → State} (h : Ev s0 s)
    (ha : firstBad l = stOk → Ev s0 (act s)) : Ev s0 (secCommand p op l act s) := by
  unfold secCommand
  split
  · exact ev_State_stat h
  · split
    · exact ev_State_stat h
    · split
      · exact ha ‹_›
      · exact ev_secDone h

theorem FuseSt.Ext.trans {f g k : FuseSt} (a : f.Ext g) (b : g.Ext k) : f.Ext k :=
  ⟨fun i h c e => b.slots i h (c.imp id a.owned) (a.slots i h c e), fun i e => b.revoked i (a.revoked i e), Nat.le_trans a.rollback b.rollback,
   fun e => b.owned (a.owned e), fun e => b.sealed (a.sealed e), fun i e => b.retired i (a.retired i e)⟩
theorem ev_op (h : Ev s0 s) {x : Option FuseOp} (hx : s.sec.Good → ∀ f, x = some f → f.fits s.sec.fuses) :
    Ev s0 (s.onSec (fun y => { y with fuseOp := x })) :=
  h.trans ⟨rfl, id, id, fun a => ⟨⟨hx a⟩, FuseSt.Ext.refl _⟩⟩
theorem ev_startFuse {p op : Nat} {f : FuseOp} (h : Ev s0 s) (hf : s.sec.Good → f.fits s.sec.fuses) : Ev s0 (startFuse p op f s) := by
  unfold startFuse
  apply ev_State_stat
  apply ev_State_setRegP
  apply ev_op h
  intro a g e; cases e; exact hf a

theorem firstBad_ok {l : List Status} (h : firstBad l = stOk) : ∀ x ∈ l, x = stOk := by
  induction l with
  | nil => intro x hx; cases hx
  | cons a t ih =>
    unfold firstBad at h
    split at h
    · intro x hx
      rcases List.mem_cons.1 hx with rfl | hx
      · assumption
      · exact ih h x hx
    · exact absurd h ‹_›
theorem ev_fuseCommand {p : Fin 4} {op : Nat} {l : List Status} {f : FuseOp} (h : Ev s0 s)
    (hf : (∀ x ∈ l, x = stOk) → s.sec.Good → f.fits s.sec.fuses) : Ev s0 (fuseCommand p op l f s) := by
  have hl : firstBad (allow (p.val == 0) :: (l ++ fuseStatus s)) = stOk → ∀ x ∈ l, x = stOk := fun e x hx =>
    firstBad_ok e x (List.mem_cons_of_mem _ (List.mem_append_left _ hx))
  have h1 : Ev s0 (secCommand p op (allow (p.val == 0) :: (l ++ fuseStatus s)) (startFuse p op f) s) :=
    ev_secCommand h (fun e => ev_startFuse h (hf (hl e)))
  unfold fuseCommand
  dsimp only
  split
  · exact ev_notifyOwner h1
  · exact h1

theorem supported_ok {b : Bool} (h : supported b = stOk) : b = true := by cases b <;> simp_all [supported, stOk, stUnsupported]
theorem within_ok {b : Bool} (h : within b = stOk) : b = true := by cases b <;> simp_all [within, stOk, stRange]
theorem ev_takeOwnership {p : Fin 4} {v : Word} (h : Ev s0 s) : Ev s0 (takeOwnership p v s) := by
  unfold takeOwnership
  apply ev_fuseCommand h
  intro e a
  have := supported_ok (e _ (List.mem_cons_self))
  show s.sec.fuses.owned = false
  simp only [secState] at this
  cases ho : s.sec.fuses.owned <;> simp_all
  split at this <;> simp_all

theorem ev_programSlot {p : Fin 4} {v : Word} (h : Ev s0 s) : Ev s0 (programSlot p v s) := by
  unfold programSlot
  apply ev_fuseCommand h
  intro e a
  have := within_ok (e _ (List.mem_cons_of_mem _ List.mem_cons_self))
  simp at this
  exact fun _ => this.2

theorem ev_revokeSlot {p : Fin 4} {v : Word} (h : Ev s0 s) : Ev s0 (revokeSlot p v s) :=
  ev_fuseCommand h (fun _ _ => trivial)

theorem ev_sealPart {p : Fin 4} {v : Word} (h : Ev s0 s) : Ev s0 (sealPart p v s) :=
  ev_fuseCommand h (fun _ _ => trivial)

theorem ev_advanceRollback {p : Fin 4} {v : Word} (h : Ev s0 s) : Ev s0 (advanceRollback p v s) := by
  unfold advanceRollback
  split
  · exact ev_secCommand h (fun _ => ev_secDone h)
  · exact ev_fuseCommand h (fun _ _ => by simp only [FuseOp.fits]; omega)

theorem ev_fuseRetire {p : Fin 4} {v : Word} (h : Ev s0 s) : Ev s0 (fuseRetire p v s) := by
  unfold fuseRetire
  repeat' (first | with_reducible assumption | with_reducible apply ev_State_stat | with_reducible apply ev_State_setReg | extract_lets | split)
  apply ev_op h
  intro a g e; cases e; trivial

theorem ev_onFuses {f : FuseSt → FuseSt} (h : Ev s0 s) (hn : s.sec.fuseOp = none) (he : s0.sec.Good → s.sec.fuses.Ext (f s.sec.fuses)) :
    Ev s0 (s.onFuses f) where
  pending := h.pending
  mem := h.mem
  regs := h.regs
  fuse a := ⟨⟨fun g e => by simp [State.onFuses, State.onSec, hn] at e⟩, (h.fuse a).2.trans (he a)⟩

theorem ev_sealProbes {s0 s : State}  (hE : Ev s0 s)  : Ev s0 (sealProbes s) := by
  unfold sealProbes
  repeat' (first | with_reducible assumption | with_reducible apply ev_State_setReg | with_reducible apply ev_forEach | intro _ | extract_lets | split)

theorem insertNat_mem (k i : Nat) (l : List Nat) (h : i ∈ l) : i ∈ insertNat k l := by
  induction l with
  | nil => cases h
  | cons a t ih =>
    unfold insertNat
    split
    · exact h
    · split
      · exact List.mem_cons_of_mem _ h
      · rcases List.mem_cons.1 h with rfl | h
        · exact List.mem_cons_self
        · exact List.mem_cons_of_mem _ (ih h)
/-- A fuse program's item comes into force over the fuses as they stand, when no program is in progress any more. -/
theorem ev_fuseForce {f : FuseOp} {n : Nat} (h : Ev s0 s) (hn : s.sec.fuseOp = none)
    (hf : s0.sec.Good → f.fits s.sec.fuses) (hr : s0.sec.Good → (∃ p m, f = .rollback p m) → s.sec.fuses.rollback ≤ n) :
    Ev s0 (fuseForce f n s) := by
  unfold fuseForce
  split
  · rename_i p x
    refine ev_onFuses h hn (fun a => ⟨fun i y c e => ?_, fun i e => e, Nat.le_refl _, fun _ => rfl, id, fun i e => e⟩)
    have ho : s.sec.fuses.owned = false := hf a
    simp only [NMap.find_put]
    rcases c with c | c
    · rw [if_neg c]; exact e
    · rw [ho] at c; cases c
  · rename_i p i x
    refine ev_onFuses h hn (fun a => ⟨fun j y c e => ?_, fun i e => e, Nat.le_refl _, id, id, fun i e => e⟩)
    simp only [NMap.find_put]
    split
    · subst_vars; have hz := hf a c; rw [hz] at e; cases e
    · exact e
  · exact ev_onFuses h hn (fun a => ⟨fun _ _ _ e => e, fun j e => insertNat_mem _ _ _ e, Nat.le_refl _, id, id, fun _ e => e⟩)
  · exact ev_sealProbes (ev_onFuses h hn (fun a => ⟨fun _ _ _ e => e, fun _ e => e, Nat.le_refl _, id, fun _ => rfl, fun _ e => e⟩))
  · rename_i p m
    exact ev_onFuses h hn (fun a => ⟨fun _ _ _ e => e, fun _ e => e, hr a ⟨p, m, rfl⟩, id, id, fun _ e => e⟩)
  · exact ev_onFuses (s := { s with dst := _ }) (ev_mk h) hn
      (fun a => ⟨fun _ _ _ e => e, fun _ e => e, Nat.le_refl _, id, id, fun _ e => List.mem_append_left _ e⟩)

theorem ev_fuseEnd {f : FuseOp} {st : Status} (h : Ev s0 s) : Ev s0 (fuseEnd f st s) := by
  have h1 : Ev s0 (s.onSec (fun x => { x with fuseOp := none })) := ev_op h (fun _ f e => by cases e)
  unfold fuseEnd
  extract_lets
  split <;> first | exact ev_State_setRegP h1 | exact ev_State_setReg h1

theorem ev_fuseNotice {s0 s : State} {f : FuseOp} (hE : Ev s0 s)  : Ev s0 (fuseNotice f s) := by
  unfold fuseNotice
  repeat' (first | with_reducible assumption | with_reducible apply ev_notifyOwner | intro _ | extract_lets | split)

theorem fuseEnd_sec {f : FuseOp} {st : Status} : (fuseEnd f st s).sec = { s.sec with fuseOp := none } := by
  cases f <;> simp only [fuseEnd, State.setRegP_sec, State.setReg_sec, State.onSec_sec]
theorem ev_fuseDone (h : Ev s0 s) : Ev s0 (fuseDone s) := by
  unfold fuseDone
  split
  · rename_i f hf
    apply ev_fuseNotice
    refine ev_fuseForce (ev_fuseEnd h) (by rw [fuseEnd_sec]) (fun a => ?_) (fun a => ?_)
    · rw [fuseEnd_sec]; exact (h.fuse a).1.op f hf
    · rw [fuseEnd_sec]
      rintro ⟨p, m, rfl⟩
      exact (h.fuse a).1.op _ hf
  · exact h

theorem ev_fuseCut {f : FuseOp} (h : Ev s0 s) (hs : s.sec.fuseOp = some f) : Ev s0 (fuseCut f s) := by
  have h1 : Ev s0 (s.nextFree.onSec (fun x => { x with fuseOp := none })) := ev_op (ev_State_nextFree h) (fun _ f e => by cases e)
  have hf : s0.sec.Good → f.fits s.sec.fuses := fun a => (h.fuse a).1.op f hs
  unfold fuseCut
  extract_lets
  split
  · split
    · exact h1
    · split
      · refine ev_fuseForce h1 rfl (fun a c => ?_) (fun a c => ?_)
        · have ho : s.sec.fuses.owned = false := hf a
          rcases c with c | c
          · exact absurd rfl c
          · exact absurd (ho.symm.trans c) (by decide)
        · obtain ⟨_, _, c⟩ := c; cases c
      · exact ev_fuseForce h1 rfl hf (fun _ _ => Nat.le_add_right _ _)
  · split
    · exact ev_fuseForce h1 rfl hf (fun _ _ => Nat.le_add_right _ _)
    · exact h1

theorem ev_vfuseLost (h : Ev s0 s) : Ev s0 (vfuseLost s) := by
  have h1 : Ev s0 (s.onSec (fun x => { x with vfuseOk := false })) := ev_State_onSec h rfl rfl
  unfold vfuseLost
  split
  · rename_i f hf
    have h2 := ev_fuseEnd (f := f) (st := stFault) (ev_fuseCut h1 hf)
    extract_lets
    split
    · exact ev_notifyOwner h2
    · exact h2
  · exact h1

theorem ev_startReport {s0 s : State} {p : Fin 4} {op : Nat} {kind : Nat} (hE : Ev s0 s)  : Ev s0 (startReport p op kind s) := by
  unfold startReport
  repeat' (first | with_reducible assumption | with_reducible apply ev_State_setRegP | with_reducible apply ev_State_stat | with_reducible refine ev_State_onSec ?_ rfl rfl)

theorem ev_attest {s0 s : State} {p : Fin 4} (hE : Ev s0 s)  : Ev s0 (attest p s) := by
  unfold attest
  repeat' (first | with_reducible assumption | with_reducible apply ev_secCommand | with_reducible apply ev_startReport | intro _)

theorem ev_signHead {s0 s : State} {p : Fin 4} (hE : Ev s0 s)  : Ev s0 (signHead p s) := by
  unfold signHead
  repeat' (first | with_reducible assumption | with_reducible apply ev_secCommand | with_reducible apply ev_startReport | intro _)

theorem ev_reportNotice {s0 s : State} {p : Fin 4} {kind : BitVec 8} {st : Status} {seq : Word} (hE : Ev s0 s)  : Ev s0 (reportNotice p kind st seq s) := by
  unfold reportNotice
  repeat' (first | with_reducible assumption | with_reducible apply ev_notifyPorts)

theorem ev_putPortRegs {p : Nat} {r : Reg} {k : Nat} {l : List Word} (h : Ev s0 s) : Ev s0 (putPortRegs p r k l s) := by
  induction l generalizing s k with
  | nil => exact h
  | cons w t ih => exact ih (ev_State_setRegP h)

theorem ev_reportDone {s0 s : State}  (hE : Ev s0 s)  : Ev s0 (reportDone s) := by
  unfold reportDone
  repeat' (first | with_reducible assumption | with_reducible apply ev_State_setRegP | with_reducible apply ev_State_nextFree | with_reducible refine ev_State_onSec ?_ rfl rfl | with_reducible apply ev_ledgerRecord | with_reducible apply ev_reportNotice | with_reducible apply ev_putPortRegs | intro _ | extract_lets | split)

theorem ev_dropReport {s0 s : State} {p : Nat} (hE : Ev s0 s)  : Ev s0 (dropReport p s) := by
  unfold dropReport
  repeat' (first | with_reducible assumption | with_reducible apply ev_State_setRegP | with_reducible refine ev_State_onSec ?_ rfl rfl | with_reducible apply ev_reportNotice | intro _ | extract_lets | split)

theorem ev_ledgerAck {s0 s : State} {p : Nat} {v : Word} (hE : Ev s0 s)  : Ev s0 (ledgerAck p v s) := by
  unfold ledgerAck
  repeat' (first | with_reducible assumption | with_reducible apply ev_State_setReg | with_reducible apply ev_checked | with_reducible refine ev_State_onSec ?_ rfl rfl | with_reducible apply ev_waitOver | intro _)

theorem ev_selectRecord {s0 s : State} {p : Nat} {q : Nat} (hE : Ev s0 s)  : Ev s0 (selectRecord p q s).2 := by
  unfold selectRecord
  repeat' (first | with_reducible assumption | with_reducible apply ev_readReels | with_reducible apply ev_putPortRegs | intro _ | extract_lets | split | fail_if_no_progress (with_reducible apply ev_mk) | with_reducible apply ev_ite | with_reducible apply ev_id | dsimp only | with_reducible refine ev_of_pair (by assumption) ?_)

theorem ev_recSel {s0 s : State} {p : Nat} {v : Word} (hE : Ev s0 s)  : Ev s0 (recSel p v s) := by
  unfold recSel
  repeat' (first | with_reducible assumption | with_reducible apply ev_State_setRegP | with_reducible apply ev_State_stat | with_reducible apply ev_selectRecord | intro _ | extract_lets | split)

theorem ev_seqRead {s0 s : State} {p : Nat} (hE : Ev s0 s)  : Ev s0 (seqRead p s) := by
  unfold seqRead
  repeat' (first | with_reducible assumption | with_reducible apply ev_State_setRegP | with_reducible apply ev_State_finish | with_reducible apply ev_putPortRegs | intro _ | extract_lets | split)

theorem ev_putSecCtl {s0 s : State} {v : Word} (hE : Ev s0 s)  : Ev s0 (putSecCtl v s) := by
  unfold putSecCtl
  repeat' (first | with_reducible assumption | with_reducible apply ev_State_putFields | with_reducible refine ev_State_onSec ?_ rfl rfl | with_reducible apply ev_waitOver | intro _ | extract_lets | split)

end Sys2Proof.Machine
end

