-- ==== Sys2Proof/Laws/EvolveSettings.lean ====
section
/-! SUPPORT. Evolve: the operations of Machine/Settings.lean keep what Ev says. -/
set_option linter.unusedVariables false
namespace Sys2Proof.Machine
variable {s0 s : State}
theorem ev_putWakeAt {s0 s : State} {v : Word} (hE : Ev s0 s)  : Ev s0 (putWakeAt v s) := by
  unfold putWakeAt
  repeat' (first | with_reducible assumption | with_reducible apply ev_State_putFields)

theorem ev_pwrVlimWrite {s0 s : State} {p : Nat} {v : Word} (hE : Ev s0 s)  : Ev s0 (pwrVlimWrite p v s) := by
  unfold pwrVlimWrite
  repeat' (first | with_reducible assumption | with_reducible apply ev_State_putFields | with_reducible apply ev_checked | intro _)

theorem ev_pwrThermWrite {s0 s : State} {p : Nat} {v : Word} (hE : Ev s0 s)  : Ev s0 (pwrThermWrite p v s) := by
  unfold pwrThermWrite
  repeat' (first | with_reducible assumption | with_reducible apply ev_State_putFields | with_reducible apply ev_checked | intro _)

theorem ev_pwrWakeAtWrite {s0 s : State} {p : Nat} {v : Word} (hE : Ev s0 s)  : Ev s0 (pwrWakeAtWrite p v s) := by
  unfold pwrWakeAtWrite
  repeat' (first | with_reducible assumption | with_reducible apply ev_State_stat | with_reducible apply ev_ownerOnly | with_reducible apply ev_putWakeAt | intro _)

theorem ev_sysLockWrite {s0 s : State} {p : Nat} {v : Word} (hE : Ev s0 s)  : Ev s0 (sysLockWrite p v s) := by
  unfold sysLockWrite
  repeat' (first | with_reducible assumption | with_reducible apply ev_State_setReg | with_reducible apply ev_ownerOnly | with_reducible apply ev_okAfter | intro _)

theorem ev_putSetting {s0 s : State} {p : Nat} {r : Reg} {i : Nat} {j : Nat} {v : Word} (hE : Ev s0 s)  : Ev s0 (putSetting p r i j v s) := by
  unfold putSetting
  repeat' (first | with_reducible assumption | with_reducible apply ev_State_putFields | with_reducible apply ev_memCtl | with_reducible apply ev_putSub | with_reducible apply ev_putLaneCfg | with_reducible apply ev_putChEn | with_reducible apply ev_putPinCfg | intro _ | with_reducible apply ev_putBankCfg | with_reducible apply ev_putPinEvt | with_reducible apply ev_putHostOut | with_reducible apply ev_putPwmCfg | with_reducible apply ev_pwmShadow | with_reducible apply ev_putQdCfg | with_reducible apply ev_rptrWrite | with_reducible apply ev_putCntSrc | extract_lets | with_reducible apply ev_putProbeSrc | with_reducible apply ev_putTraceCfg | with_reducible apply ev_ledgerAck | with_reducible apply ev_recSel | with_reducible apply ev_putSecCtl | with_reducible apply ev_putWakeAt | intro _ | extract_lets | split)

theorem ev_settingWrite {s0 s : State} {p : Nat} {r : Reg} {i : Nat} {j : Nat} {v : Word} (hE : Ev s0 s)  : Ev s0 (settingWrite p r i j v s) := by
  unfold settingWrite
  repeat' (first | with_reducible assumption | with_reducible apply ev_checked | with_reducible apply ev_putSetting | intro _)

end Sys2Proof.Machine
end

