-- ==== Sys2Proof/Laws/EvolveDomains.lean ====
section
/-! SUPPORT. Evolve: the operations of Machine/Domains.lean keep what Ev says. -/
set_option linter.unusedVariables false
namespace Sys2Proof.Machine
variable {s0 s : State}
theorem ev_putDesc {s0 s : State} {r : Reg} {i : Nat} {j : Nat} {v : Word} (hE : Ev s0 s)  : Ev s0 (putDesc r i j v s) := by
  unfold putDesc
  repeat' (first | with_reducible assumption | with_reducible apply ev_State_setRegP | with_reducible apply ev_State_setReg | intro _ | extract_lets | split)

end Sys2Proof.Machine
end

