-- ==== Sys2Proof/Laws/EvolveResets.lean ====
section
/-! SUPPORT. Evolve: the operations of Machine/Resets.lean keep what Ev says. -/
set_option linter.unusedVariables false
namespace Sys2Proof.Machine
variable {s0 s : State}
theorem ev_startTiles {s0 s : State} {sel : Nat → Bool} (hE : Ev s0 s)  : Ev s0 (startTiles sel s) := by
  unfold startTiles
  repeat' (first | with_reducible assumption | with_reducible apply ev_forEach | with_reducible apply ev_State_setTile | with_reducible apply ev_raiseAcks | with_reducible apply ev_settle | intro _)

theorem ev_sweepLanes {s0 s : State} {w : Sweep} (hE : Ev s0 s)  : Ev s0 (sweepLanes w s) := by
  unfold sweepLanes
  repeat' (first | with_reducible assumption | with_reducible apply ev_forEach | with_reducible apply ev_State_setPlane | with_reducible apply ev_missFlits | with_reducible apply ev_missPackets | intro _)

theorem ev_sweepHold {s0 s : State} {w : Sweep} (hE : Ev s0 s)  : Ev s0 (sweepHold w s) := by
  unfold sweepHold
  repeat' (first | with_reducible assumption | with_reducible apply ev_forEach | with_reducible apply ev_missPackets | intro _ | extract_lets | split | fail_if_no_progress (with_reducible apply ev_mk))

theorem ev_sweepIfcs {s0 s : State} {w : Sweep} (hE : Ev s0 s)  : Ev s0 (sweepIfcs w s) := by
  unfold sweepIfcs
  repeat' (first | with_reducible assumption | with_reducible apply ev_forEach | with_reducible apply ev_State_onIfc | with_reducible apply ev_missPackets | intro _)

theorem ev_sweepPorts {s0 s : State} {w : Sweep} (hE : Ev s0 s)  : Ev s0 (sweepPorts w s) := by
  unfold sweepPorts
  repeat' (first | with_reducible assumption | with_reducible apply ev_missFlits | intro _ | extract_lets | split | fail_if_no_progress (with_reducible apply ev_mk))

theorem ev_sweepOps {s0 s : State} {w : Sweep} (hE : Ev s0 s)  : Ev s0 (sweepOps w s) := by
  unfold sweepOps
  repeat' (first | with_reducible assumption | with_reducible apply ev_State_onMem)

theorem ev_staleReq {s0 s : State} {flies : Bool} {d : Nat} {m : Nat} {r : Resv} (hE : Ev s0 s)  : Ev s0 (staleReq flies d m r s) := by
  unfold staleReq
  repeat' (first | with_reducible assumption | with_reducible apply ev_State_setMbox | with_reducible apply ev_respToMbox | intro _ | extract_lets | split | fail_if_no_progress (with_reducible apply ev_mk) | with_reducible apply ev_ite)

theorem ev_sweepWaiting {s0 s : State} {w : Sweep} {p : Fin 4} (hE : Ev s0 s)  : Ev s0 (sweepWaiting w p s) := by
  unfold sweepWaiting
  repeat' (first | with_reducible assumption | with_reducible apply ev_forEach | with_reducible apply ev_State_setPort | with_reducible apply ev_formRsp | intro _)

theorem ev_sweepHosts {s0 s : State} {w : Sweep} (hE : Ev s0 s)  : Ev s0 (sweepHosts w s) := by
  unfold sweepHosts
  repeat' (first | with_reducible assumption | with_reducible apply ev_forEach | with_reducible apply ev_State_setMbox | with_reducible apply ev_serveWins | with_reducible apply ev_staleReq | with_reducible apply ev_sweepWaiting | intro _ | extract_lets | split)

theorem ev_sweepPackets {s0 s : State} {w : Sweep} (hE : Ev s0 s)  : Ev s0 (sweepPackets w s) := by
  unfold sweepPackets
  repeat' (first | with_reducible assumption | with_reducible apply ev_sweepLanes | with_reducible apply ev_sweepHold | with_reducible apply ev_sweepIfcs | with_reducible apply ev_sweepPorts | with_reducible apply ev_sweepOps | with_reducible apply ev_sweepHosts)

theorem ev_dropChannels {s0 s : State} {sel : Nat → Bool} (hE : Ev s0 s)  : Ev s0 (dropChannels sel s) := by
  unfold dropChannels
  repeat' (first | with_reducible assumption | with_reducible apply ev_forEach | with_reducible apply ev_chanDrop | intro _ | extract_lets | split)

theorem ev_dropSamples {s0 s : State} {sel : Nat → Bool} (hE : Ev s0 s)  : Ev s0 (dropSamples sel s) := by
  unfold dropSamples
  repeat' (first | with_reducible assumption | with_reducible apply ev_State_setReg | with_reducible apply ev_forEach | with_reducible apply ev_State_setQd | intro _ | extract_lets | split)

theorem ev_resetTiles {s0 s : State} {sel : Nat → Bool} (hE : Ev s0 s)  : Ev s0 (resetTiles sel s) := by
  unfold resetTiles
  repeat' (first | with_reducible assumption | with_reducible apply ev_forEach | with_reducible apply ev_State_onTile | with_reducible apply ev_startTiles | intro _)

theorem ev_staleTowards {s0 s : State} {sel : Nat → Bool} {n : Nat} (hE : Ev s0 s)  : Ev s0 (staleTowards sel n s) := by
  unfold staleTowards
  repeat' (first | with_reducible assumption | with_reducible apply ev_forEach | with_reducible apply ev_endRun | with_reducible apply ev_endStop | intro _ | extract_lets | split)

theorem ev_settleMig {s0 s : State} {own : Nat → Bool} (hE : Ev s0 s)  : Ev s0 (settleMig own s) := by
  unfold settleMig
  repeat' (first | with_reducible assumption | with_reducible apply ev_abortMig | with_reducible apply ev_sourcesCleared | intro _ | extract_lets | split)

theorem ev_fabricReset {s0 s : State}  (hE : Ev s0 s)  : Ev s0 (fabricReset s) := by
  unfold fabricReset
  repeat' (first | with_reducible assumption | with_reducible apply ev_forEach | with_reducible apply ev_staleRuns | with_reducible apply ev_resetPins | with_reducible apply ev_resetUnits | with_reducible apply ev_sweepPackets | with_reducible apply ev_dropChannels | intro _ | with_reducible apply ev_dropSamples | with_reducible apply ev_resetTiles | with_reducible apply ev_settleMig | intro _)

theorem ev_domainTiles {s0 s : State} {d : Nat} (hE : Ev s0 s)  : Ev s0 (domainTiles d s) := by
  unfold domainTiles
  repeat' (first | with_reducible assumption | with_reducible apply ev_forEach | with_reducible apply ev_dropExport | with_reducible apply ev_staleRuns | with_reducible apply ev_resetPins | with_reducible apply ev_resetUnits | with_reducible apply ev_sweepPackets | intro _ | with_reducible apply ev_dropChannels | with_reducible apply ev_dropSamples | with_reducible apply ev_resetTiles | with_reducible apply ev_staleTowards | with_reducible apply ev_settleMig | intro _ | extract_lets | split)

end Sys2Proof.Machine
end

