-- ==== Sys2Proof/Laws/EvolveLoader.lean ====
section
/-! SUPPORT. Evolve: the operations of Machine/Loader.lean keep what Ev says. -/
set_option linter.unusedVariables false
namespace Sys2Proof.Machine
variable {s0 s : State}
theorem ev_State_onLdr {s0 s : State} {f : LdrSt → LdrSt} (hE : Ev s0 s)  : Ev s0 (State.onLdr s f) := by
  unfold State.onLdr
  repeat' (first | with_reducible assumption | intro _ | extract_lets | split | fail_if_no_progress (with_reducible apply ev_mk))

theorem ev_State_onLoad {s0 s : State} {f : Load → Load} (hE : Ev s0 s)  : Ev s0 (State.onLoad s f) := by
  unfold State.onLoad
  repeat' (first | with_reducible assumption | with_reducible apply ev_State_onLdr)

theorem ev_clearReel {a n : Nat} (h : Ev s0 s) : Ev s0 (clearReel a n s) :=
  h.trans ⟨rfl, fun a => NMap.wf_filter _ _ _ a, id, fun a => ⟨a, FuseSt.Ext.refl _⟩⟩

theorem ev_clearStaging {s0 s : State}  (hE : Ev s0 s)  : Ev s0 (clearStaging s) := by
  unfold clearStaging
  repeat' (first | with_reducible assumption | with_reducible apply ev_clearReel)

theorem ev_dropDir (h : Ev s0 s) : Ev s0 (dropDir s) :=
  h.trans ⟨rfl, id, fun a => NMap.sorted_filter _ _ a, fun a => ⟨a, FuseSt.Ext.refl _⟩⟩

theorem ev_fullFailed (h : Ev s0 s) : Ev s0 (fullFailed s) := by
  unfold fullFailed
  apply ev_State_onLdr
  apply ev_serveFailing
  apply ev_State_onScrub
  apply ev_clearStaging
  apply ev_clearReel
  apply ev_dropDir
  exact h.same rfl rfl rfl rfl rfl

theorem ev_partFailed {s0 s : State} {code : Nat} (hE : Ev s0 s)  : Ev s0 (partFailed code s) := by
  unfold partFailed
  repeat' (first | with_reducible assumption | with_reducible apply ev_notify | with_reducible apply ev_State_onLdr | with_reducible apply ev_clearStaging | intro _ | extract_lets | split)

theorem ev_openFwd {s0 s : State} {l : Load} (hE : Ev s0 s)  : Ev s0 (openFwd l s) := by
  unfold openFwd
  repeat' (first | with_reducible assumption | with_reducible apply ev_State_onLdr | intro _ | extract_lets | split)

theorem ev_endFwd {s0 s : State} {f : FwdSt} (hE : Ev s0 s)  : Ev s0 (endFwd f s) := by
  unfold endFwd
  repeat' (first | with_reducible assumption | with_reducible apply ev_notifyOwner | with_reducible apply ev_State_onLdr)

theorem ev_dropFwd {s0 s : State}  (hE : Ev s0 s)  : Ev s0 (dropFwd s) := by
  unfold dropFwd
  repeat' (first | with_reducible assumption | with_reducible apply ev_State_onLdr | with_reducible apply ev_endFwd | intro _ | extract_lets | split)

theorem ev_failFwd {s0 s : State} {code : Nat} {l : Load} (hE : Ev s0 s)  : Ev s0 (failFwd code l s) := by
  unfold failFwd
  repeat' (first | with_reducible assumption | with_reducible apply ev_openFwd | with_reducible apply ev_dropFwd | intro _ | extract_lets | split)

theorem ev_ldFail {s0 s : State} {code : Nat} {off : Nat} {addr : Nat} {op : Nat} (hE : Ev s0 s)  : Ev s0 (ldFail code off addr op s) := by
  unfold ldFail
  repeat' (first | with_reducible assumption | with_reducible apply ev_State_setReg | with_reducible apply ev_notify | with_reducible apply ev_notifyOwner | with_reducible apply ev_State_onLdr | with_reducible apply ev_fullFailed | with_reducible apply ev_partFailed | intro _ | with_reducible apply ev_failFwd | intro _ | extract_lets | split)

theorem ev_checkHeader {s0 s : State} {l : Load} (hE : Ev s0 s)  : Ev s0 (checkHeader l s) := by
  unfold checkHeader
  repeat' (first | with_reducible assumption | with_reducible apply ev_State_onLoad | with_reducible apply ev_ldFail | intro _ | extract_lets | split)

theorem ev_finishFull {s0 s : State} {l : Load} (hE : Ev s0 s)  : Ev s0 (finishFull l s) := by
  unfold finishFull
  repeat' (first | with_reducible assumption | with_reducible apply ev_State_onScrub | with_reducible apply ev_putPortRegs | with_reducible apply ev_State_onLdr | with_reducible apply ev_State_onLoad)

theorem ev_scan {s0 s : State}  (hE : Ev s0 s)  : Ev s0 (scan s) := by
  unfold scan
  repeat' (first | with_reducible assumption | with_reducible apply ev_State_onLoad | with_reducible apply ev_ldFail | with_reducible apply ev_finishFull | intro _ | extract_lets | split)

theorem ev_takeWord {s0 s : State} {w : Word} (hE : Ev s0 s)  : Ev s0 (takeWord w s) := by
  unfold takeWord
  repeat' (first | with_reducible assumption | with_reducible apply ev_State_setReg | with_reducible apply ev_State_onLoad | with_reducible apply ev_openFwd | with_reducible apply ev_ldFail | with_reducible apply ev_checkHeader | with_reducible apply ev_scan | intro _ | extract_lets | split | fail_if_no_progress (with_reducible apply ev_mk) | with_reducible apply ev_ite)

theorem ev_epochEnd {s0 s : State} {was : Bool} {c : LCmd} (hE : Ev s0 s)  : Ev s0 (epochEnd was c s) := by
  unfold epochEnd
  repeat' (first | with_reducible assumption | with_reducible apply ev_ldFail | intro _ | extract_lets | split)

theorem ev_onCmd {s0 s : State} {op : Nat} {act : LCmd → State → State} (hE : Ev s0 s) (hact : ∀ (a0 : LCmd) t, Ev s0 t → Ev s0 (act a0 t)) : Ev s0 (onCmd op act s) := by
  unfold onCmd
  repeat' (first | with_reducible assumption | with_reducible apply hact | with_reducible apply ev_initDone | with_reducible apply ev_State_onLoad | with_reducible apply ev_scan | with_reducible apply ev_epochEnd | intro _ | extract_lets | split)

theorem ev_cmdFail {s0 s : State} {c : LCmd} {code : Nat} {off : Nat} {addr : Nat} (hE : Ev s0 s)  : Ev s0 (cmdFail c code off addr s) := by
  unfold cmdFail
  repeat' (first | with_reducible assumption | with_reducible apply ev_ldFail)

theorem ev_putPair {p : WPair} (h : Ev s0 s) : Ev s0 (putPair p s) := by
  unfold putPair
  split
  · exact ev_putDesc h
  · exact h

theorem ev_withPairs {s0 s : State} {l : List WPair} (hE : Ev s0 s)  : Ev s0 (withPairs l s) := by
  unfold withPairs
  repeat' (first | with_reducible assumption | with_reducible apply ev_forEach | with_reducible apply ev_putPair | intro _)

theorem ev_applyPair {port : Nat} {p : WPair} (h : Ev s0 s) : Ev s0 (applyPair port p s) := by
  unfold applyPair
  split
  · split
    · exact ev_State_setRegP h
    · exact ev_putSetting h
  · exact h

theorem ev_wregCmd {s0 s : State} {c : LCmd} (hE : Ev s0 s)  : Ev s0 (wregCmd c s) := by
  unfold wregCmd
  repeat' (first | with_reducible assumption | with_reducible apply ev_forEach | with_reducible apply ev_State_onLoad | with_reducible apply ev_cmdFail | with_reducible apply ev_putPair | with_reducible apply ev_withPairs | with_reducible apply ev_applyPair | intro _ | extract_lets | split | fail_if_no_progress (with_reducible apply ev_mk) | with_reducible apply ev_ite | with_reducible apply ev_id | dsimp only | with_reducible refine ev_of_pair (by assumption) ?_ | dsimp +zetaDelta only)

theorem ev_skeinCmd {s0 s : State} {c : LCmd} (hE : Ev s0 s)  : Ev s0 (skeinCmd c s) := by
  unfold skeinCmd
  repeat' (first | with_reducible assumption | with_reducible apply ev_State_onLoad | with_reducible apply ev_cmdFail | intro _ | extract_lets | split)

theorem ev_instEntries {c : LCmd} {n : Nat} {l : List Word} (h : Ev s0 s) : Ev s0 (instEntries c n l s) := by
  induction n generalizing s l with
  | zero => exact h
  | succ n ih =>
    unfold instEntries
    repeat' (first | with_reducible assumption | with_reducible apply ih | with_reducible apply ev_cmdFail | with_reducible apply ev_State_onLoad | extract_lets | split)

theorem ev_instCmd {s0 s : State} {c : LCmd} (hE : Ev s0 s)  : Ev s0 (instCmd c s) := by
  unfold instCmd
  repeat' (first | with_reducible assumption | with_reducible apply ev_instEntries)

theorem ev_removeInst {s0 s : State} {i : Inst} (hE : Ev s0 s)  : Ev s0 (removeInst i s) := by
  unfold removeInst
  repeat' (first | with_reducible assumption | with_reducible apply ev_forEach | with_reducible apply ev_clearTile | with_reducible apply ev_State_onDst | with_reducible apply ev_unmapInst | intro _)

theorem ev_dirEndCmd {s0 s : State} {c : LCmd} (hE : Ev s0 s)  : Ev s0 (dirEndCmd c s) := by
  unfold dirEndCmd
  repeat' (first | with_reducible assumption | with_reducible apply ev_forEach | with_reducible apply ev_serveFailing | with_reducible apply ev_State_onLdr | with_reducible apply ev_State_onLoad | with_reducible apply ev_cmdFail | with_reducible apply ev_withPairs | intro _ | with_reducible apply ev_removeInst | intro _ | extract_lets | split)

theorem ev_tryPlace {s0 s : State} {l : List Inst} (hE : Ev s0 s)  : Ev s0 (tryPlace l s).2 := by
  unfold tryPlace
  repeat' (first | with_reducible assumption | with_reducible apply ev_abandonTest | intro _ | extract_lets | split)

theorem ev_placeSpools_eq {k n : Nat} {u : State} (e : placeSpools k n s = .ok u) (h : Ev s0 s) : Ev s0 u := by
  induction k generalizing s n with
  | zero => cases e; exact h
  | succ k ih =>
    unfold placeSpools at e
    dsimp only at e
    split at e
    · exact ih e h
    · split at e
      · cases e
      · exact ih e (ev_State_setSpool h)

theorem ev_enterInst {s0 s : State} {i : Inst} (hE : Ev s0 s)  : Ev s0 (enterInst i s) := by
  unfold enterInst
  repeat' (first | with_reducible assumption | with_reducible apply ev_State_onDst | with_reducible apply ev_writeEdges | with_reducible apply ev_mapInst)

theorem ev_placementDone (h : Ev s0 s) : Ev s0 (placementDone s) := by
  unfold placementDone
  split
  · exact h
  · rename_i l _
    split
    · have h1 : Ev s0 (tryPlace (sortInsts placeBefore l.insts) s).2 := ev_tryPlace h
      split
      · rename_i e; rw [e] at h1; exact ev_ldFail h1
      · rename_i insts u e; rw [e] at h1
        have h2 : Ev s0 (forEach insts enterInst u) := ev_forEach h1 (fun _ _ h => ev_enterInst h)
        clear h1 e
        dsimp only
        split
        · exact ev_ldFail h2
        · rename_i v e2
          have h3 : Ev s0 v := by
            split at e2
            · cases e2; exact h2
            · exact ev_placeSpools_eq e2 h2
          apply ev_scan
          apply ev_notifyOwner
          apply ev_State_onLoad
          split
          · exact h3
          · exact ev_State_onLdr h3
    · exact h

theorem ev_eachRecord {c : LCmd} {act : Nat → DWord → List Word → State → Option (Nat × Nat) × State} {n k : Nat} (h : Ev s0 s)
    (ha : ∀ k e w t, Ev s0 t → Ev s0 (act k e w t).2) : Ev s0 (eachRecord c act n k s) := by
  induction n generalizing s k with
  | zero => exact h
  | succ n ih =>
    unfold eachRecord
    dsimp only
    have h1 := ha k (recordOf c k).2.1 (recordOf c k).2.2 s h
    split
    · rename_i e; rw [e] at h1; exact ev_cmdFail h1
    · rename_i e; rw [e] at h1; exact ih h1

theorem ev_putTileFrame {s0 s : State} {t : Nat} {m : Nat} {ess : DWord} {ws : List Word} (hE : Ev s0 s)  : Ev s0 (putTileFrame t m ess ws s) := by
  unfold putTileFrame
  repeat' (first | with_reducible assumption | with_reducible apply ev_writeFrame | with_reducible apply ev_writeEss | with_reducible apply ev_renewTile)

theorem ev_framesPCmd {s0 s : State} {c : LCmd} (hE : Ev s0 s)  : Ev s0 (framesPCmd c s) := by
  unfold framesPCmd
  repeat' (first | with_reducible assumption | with_reducible apply ev_writeFrame | with_reducible apply ev_writeEss | with_reducible apply ev_cmdFail | with_reducible apply ev_eachRecord | intro _ | extract_lets | split)

theorem ev_framesLCmd {s0 s : State} {c : LCmd} (hE : Ev s0 s)  : Ev s0 (framesLCmd c s) := by
  unfold framesLCmd
  repeat' (first | with_reducible assumption | with_reducible apply ev_cmdFail | with_reducible apply ev_eachRecord | with_reducible apply ev_putTileFrame | intro _ | extract_lets | split)

theorem ev_skeinFramesCmd {s0 s : State} {c : LCmd} (hE : Ev s0 s)  : Ev s0 (skeinFramesCmd c s) := by
  unfold skeinFramesCmd
  repeat' (first | with_reducible assumption | with_reducible apply ev_forEach | with_reducible apply ev_State_onLoad | with_reducible apply ev_cmdFail | with_reducible apply ev_eachRecord | with_reducible apply ev_putTileFrame | intro _ | extract_lets | split | fail_if_no_progress (with_reducible apply ev_mk) | with_reducible apply ev_ite)

theorem ev_endCmd {s0 s : State} {c : LCmd} (hE : Ev s0 s)  : Ev s0 (endCmd c s) := by
  unfold endCmd
  repeat' (first | with_reducible assumption | with_reducible apply ev_State_onLoad | with_reducible apply ev_cmdFail | with_reducible apply ev_withPairs | intro _ | extract_lets | split)

theorem ev_signatureCmd {s0 s : State} {c : LCmd} (hE : Ev s0 s)  : Ev s0 (signatureCmd c s) := by
  unfold signatureCmd
  repeat' (first | with_reducible assumption | with_reducible apply ev_State_onLoad | with_reducible apply ev_cmdFail | intro _ | extract_lets | split)

theorem ev_keywrapCmd {s0 s : State} {c : LCmd} (hE : Ev s0 s)  : Ev s0 (keywrapCmd c s) := by
  unfold keywrapCmd
  repeat' (first | with_reducible assumption | with_reducible apply ev_State_onLoad | with_reducible apply ev_cmdFail | intro _ | extract_lets | split)

theorem ev_epochCmd {s0 s : State} {c : LCmd} (hE : Ev s0 s)  : Ev s0 (epochCmd c s) := by
  unfold epochCmd
  repeat' (first | with_reducible assumption | with_reducible apply ev_State_putWords | with_reducible apply ev_State_onLoad | with_reducible apply ev_cmdFail | intro _ | extract_lets | split)

theorem ev_nextkeyCmd {s0 s : State} {c : LCmd} (hE : Ev s0 s)  : Ev s0 (nextkeyCmd c s) := by
  unfold nextkeyCmd
  repeat' (first | with_reducible assumption | with_reducible apply ev_State_onLoad)

theorem ev_acceptRegion {s0 s : State} {rs : List (Nat × Nat)} {pins : List (Nat × BitVec 2)} (hE : Ev s0 s)  : Ev s0 (acceptRegion rs pins s) := by
  unfold acceptRegion
  repeat' (first | with_reducible assumption | with_reducible apply ev_State_nextFree | with_reducible apply ev_forEach | with_reducible apply ev_State_onTile | with_reducible apply ev_State_setPin | with_reducible apply ev_abortMig | with_reducible apply ev_setPin | intro _ | with_reducible apply ev_State_onLdr | intro _ | extract_lets | split)

theorem ev_regionCmd {s0 s : State} {c : LCmd} (hE : Ev s0 s)  : Ev s0 (regionCmd c s) := by
  unfold regionCmd
  repeat' (first | with_reducible assumption | with_reducible apply ev_State_onLoad | with_reducible apply ev_cmdFail | with_reducible apply ev_acceptRegion | intro _ | extract_lets | split)

end Sys2Proof.Machine
end

