-- ==== Sys2Proof/Laws/EvolveRelease.lean ====
section
/-! SUPPORT. Evolve: the operations of Machine/Release.lean keep what Ev says. -/
set_option linter.unusedVariables false
namespace Sys2Proof.Machine
variable {s0 s : State}
theorem ev_clearErr {s0 s : State}  (hE : Ev s0 s)  : Ev s0 (clearErr s) := by
  unfold clearErr
  repeat' (first | with_reducible assumption | with_reducible apply ev_State_setReg)

theorem ev_beginFull {s0 s : State} {port : Option (Fin 4)} {source : BitVec 2} (hE : Ev s0 s)  : Ev s0 (beginFull port source s) := by
  unfold beginFull
  repeat' (first | with_reducible assumption | with_reducible apply ev_State_onLdr | with_reducible apply ev_clearErr)

theorem ev_startFull {s0 s : State} {p : Fin 4} (hE : Ev s0 s)  : Ev s0 (startFull p s) := by
  unfold startFull
  repeat' (first | with_reducible assumption | with_reducible apply ev_checked | with_reducible apply ev_beginFull | intro _)

theorem ev_startPartial {s0 s : State} {p : Fin 4} (hE : Ev s0 s)  : Ev s0 (startPartial p s) := by
  unfold startPartial
  repeat' (first | with_reducible assumption | with_reducible apply ev_checked | with_reducible apply ev_State_onLdr | with_reducible apply ev_clearErr | intro _)

theorem ev_holdWord {s0 s : State} {p : Nat} {v : Word} (hE : Ev s0 s)  : Ev s0 (holdWord p v s) := by
  unfold holdWord
  repeat' (first | with_reducible assumption | with_reducible apply ev_State_onPort | intro _ | extract_lets | split)

theorem ev_streamWrite {s0 s : State} {p : Fin 4} {v : Word} (hE : Ev s0 s)  : Ev s0 (streamWrite p v s) := by
  unfold streamWrite
  repeat' (first | with_reducible assumption | with_reducible apply ev_State_stat | with_reducible apply ev_takeWord | with_reducible apply ev_holdWord | intro _ | extract_lets | split)

theorem ev_endLoad {s0 s : State} {code : Nat} (hE : Ev s0 s)  : Ev s0 (endLoad code s) := by
  unfold endLoad
  repeat' (first | with_reducible assumption | with_reducible apply ev_ldFail | intro _ | extract_lets | split)

theorem ev_abortLoad {s0 s : State} {p : Fin 4} (hE : Ev s0 s)  : Ev s0 (abortLoad p s) := by
  unfold abortLoad
  repeat' (first | with_reducible assumption | with_reducible apply ev_State_stat | with_reducible apply ev_checked | with_reducible apply ev_endLoad | intro _ | extract_lets | split)

theorem ev_streamLost {s0 s : State}  (hE : Ev s0 s)  : Ev s0 (streamLost s) := by
  unfold streamLost
  repeat' (first | with_reducible assumption | with_reducible apply ev_endLoad)

theorem ev_dropStream {s0 s : State} {p : Nat} (hE : Ev s0 s)  : Ev s0 (dropStream p s) := by
  unfold dropStream
  repeat' (first | with_reducible assumption | with_reducible apply ev_endLoad | intro _ | extract_lets | split)

theorem ev_fwdWord {s0 s : State} {w : Word} (hE : Ev s0 s)  : Ev s0 (fwdWord w s) := by
  unfold fwdWord
  repeat' (first | with_reducible assumption | with_reducible apply ev_State_onLdr | with_reducible apply ev_endFwd | intro _ | extract_lets | split)

theorem ev_feed {s0 s : State} {w : Word} (hE : Ev s0 s)  : Ev s0 (feed w s) := by
  unfold feed
  repeat' (first | with_reducible assumption | with_reducible apply ev_takeWord | with_reducible apply ev_fwdWord | intro _ | extract_lets | split)

theorem ev_feedAll {s0 s : State} {ws : List Word} (hE : Ev s0 s)  : Ev s0 (feedAll ws s) := by
  unfold feedAll
  repeat' (first | with_reducible assumption | with_reducible apply ev_forEach | with_reducible apply ev_feed | intro _)

theorem ev_flashFirst {s0 s : State} {ws : List Word} (hE : Ev s0 s)  : Ev s0 (flashFirst ws s) := by
  unfold flashFirst
  repeat' (first | with_reducible assumption | with_reducible apply ev_State_onLdr | with_reducible apply ev_ldFail | intro _ | extract_lets | split)

theorem ev_flashOctal {s0 s : State} {ws : List Word} {dqs : Bool} (hE : Ev s0 s)  : Ev s0 (flashOctal ws dqs s) := by
  unfold flashOctal
  repeat' (first | with_reducible assumption | with_reducible apply ev_State_onLdr | with_reducible apply ev_feedAll | intro _ | extract_lets | split)

theorem ev_flashQuad {s0 s : State} {ws : List Word} (hE : Ev s0 s)  : Ev s0 (flashQuad ws s) := by
  unfold flashQuad
  repeat' (first | with_reducible assumption | with_reducible apply ev_notifyOwner | with_reducible apply ev_State_onLdr | with_reducible apply ev_ldFail | with_reducible apply ev_feedAll | intro _ | extract_lets | split)

theorem ev_flashData {s0 s : State} {ws : List Word} (hE : Ev s0 s)  : Ev s0 (flashData ws s) := by
  unfold flashData
  repeat' (first | with_reducible assumption | with_reducible apply ev_endFwd | with_reducible apply ev_ldFail | with_reducible apply ev_feedAll | intro _ | extract_lets | split | fail_if_no_progress (with_reducible apply ev_mk) | with_reducible apply ev_ite | with_reducible apply ev_id | dsimp only | with_reducible refine ev_of_pair (by assumption) ?_ | dsimp +zetaDelta only)

theorem ev_flashRead {s0 s : State} {ws : List Word} {dqs : Bool} (hE : Ev s0 s)  : Ev s0 (flashRead ws dqs s) := by
  unfold flashRead
  repeat' (first | with_reducible assumption | with_reducible apply ev_flashFirst | with_reducible apply ev_flashOctal | with_reducible apply ev_flashQuad | with_reducible apply ev_flashData | intro _ | extract_lets | split)

theorem ev_chainSync {s0 s : State}  (hE : Ev s0 s)  : Ev s0 (chainSync s) := by
  unfold chainSync
  repeat' (first | with_reducible assumption | with_reducible apply ev_takeWord | with_reducible apply ev_beginFull | intro _ | extract_lets | split)

theorem ev_chainWord {s0 s : State} {w : Word} (hE : Ev s0 s)  : Ev s0 (chainWord w s) := by
  unfold chainWord
  repeat' (first | with_reducible assumption | with_reducible apply ev_feed | with_reducible apply ev_chainSync | intro _ | extract_lets | split)

theorem ev_chainTimeout {s0 s : State}  (hE : Ev s0 s)  : Ev s0 (chainTimeout s) := by
  unfold chainTimeout
  repeat' (first | with_reducible assumption | with_reducible apply ev_endFwd | with_reducible apply ev_endLoad | intro _ | extract_lets | split | fail_if_no_progress (with_reducible apply ev_mk) | with_reducible apply ev_ite | with_reducible apply ev_id | dsimp only | with_reducible refine ev_of_pair (by assumption) ?_ | dsimp +zetaDelta only)

theorem ev_unstick {s0 s : State} {f : Nat} (hE : Ev s0 s)  : Ev s0 (unstick f s) := by
  unfold unstick
  repeat' (first | with_reducible assumption | with_reducible apply ev_State_onScrub)

theorem ev_verifyFrame {s0 s : State} {f : Nat} (hE : Ev s0 s)  : Ev s0 (verifyFrame f s).2 := by
  unfold verifyFrame
  repeat' (first | with_reducible assumption | with_reducible apply ev_State_bump | with_reducible apply ev_setClean | with_reducible apply ev_lastErr | with_reducible apply ev_correctFrame | with_reducible apply ev_repeatedLoss | with_reducible apply ev_unstick | intro _ | extract_lets | split)

theorem ev_verifyFrames {l : List Nat} (h : Ev s0 s) : Ev s0 (verifyFrames l s).2 := by
  induction l generalizing s with
  | nil => exact h
  | cons f t ih =>
    unfold verifyFrames
    have h1 : Ev s0 (verifyFrame f s).2 := ev_verifyFrame h
    split
    · rename_i e; rw [e] at h1; exact ih h1
    · rename_i e; rw [e] at h1; exact h1

theorem ev_scrubFail {s0 s : State} {f : Nat} (hE : Ev s0 s)  : Ev s0 (scrubFail f s) := by
  unfold scrubFail
  repeat' (first | with_reducible assumption | with_reducible apply ev_ldFail | intro _ | extract_lets | split)

theorem ev_passVerified {s0 s : State}  (hE : Ev s0 s)  : Ev s0 (passVerified s) := by
  unfold passVerified
  repeat' (first | with_reducible assumption | with_reducible apply ev_State_setReg | with_reducible apply ev_State_bump | with_reducible apply ev_State_onScrub)

theorem ev_openSpools {s0 s : State}  (hE : Ev s0 s)  : Ev s0 (openSpools s) := by
  unfold openSpools
  repeat' (first | with_reducible assumption | with_reducible apply ev_forEach | with_reducible apply ev_openSpool | intro _)

theorem ev_inForce {s0 s : State} {l : Load} (hE : Ev s0 s)  : Ev s0 (inForce l s) := by
  unfold inForce
  repeat' (first | with_reducible assumption | with_reducible apply ev_foldl | with_reducible apply ev_foldl_snd | with_reducible apply ev_State_setReg | with_reducible refine ev_State_onSec ?_ rfl rfl | with_reducible apply ev_State_onLdr)

theorem ev_genesis {s0 s : State}  (hE : Ev s0 s)  : Ev s0 (genesis s) := by
  unfold genesis
  repeat' (first | with_reducible assumption | with_reducible apply ev_ledgerRecord)

theorem ev_releaseIo {s0 s : State}  (hE : Ev s0 s)  : Ev s0 (releaseIo s) := by
  unfold releaseIo
  repeat' (first | with_reducible assumption | with_reducible apply ev_forEach | with_reducible apply ev_queueLanes | with_reducible apply ev_releasePin | with_reducible apply ev_pwmEnable | with_reducible apply ev_portDetect | with_reducible apply ev_startTiles | intro _ | extract_lets | split | fail_if_no_progress (with_reducible apply ev_mk))

theorem ev_ioRelease {s0 s : State}  (hE : Ev s0 s)  : Ev s0 (ioRelease s) := by
  unfold ioRelease
  repeat' (first | with_reducible assumption | with_reducible apply ev_notifyPorts | with_reducible apply ev_notifyOwner | with_reducible apply ev_initDone | with_reducible apply ev_flushHeld | with_reducible apply ev_serveFailing | with_reducible apply ev_clearReel | intro _ | with_reducible apply ev_clearStaging | with_reducible apply ev_withPairs | with_reducible apply ev_verifyFrames | with_reducible apply ev_scrubFail | with_reducible apply ev_passVerified | with_reducible apply ev_openSpools | with_reducible apply ev_inForce | with_reducible apply ev_genesis | extract_lets | with_reducible apply ev_releaseIo | intro _ | extract_lets | split | fail_if_no_progress (with_reducible apply ev_mk) | with_reducible apply ev_ite | with_reducible apply ev_id | dsimp only | with_reducible refine ev_of_pair (by assumption) ?_)

theorem ev_closeRegion {s0 s : State} {rs : List (Nat × Nat)} (hE : Ev s0 s)  : Ev s0 (closeRegion rs s) := by
  unfold closeRegion
  repeat' (first | with_reducible assumption | with_reducible apply ev_foldl | with_reducible apply ev_foldl_snd | with_reducible apply ev_forEach | with_reducible apply ev_closeWindows | intro _ | extract_lets | split)

theorem ev_regionRelease {s0 s : State}  (hE : Ev s0 s)  : Ev s0 (regionRelease s) := by
  unfold regionRelease
  repeat' (first | with_reducible assumption | with_reducible apply ev_foldl | with_reducible apply ev_foldl_snd | with_reducible apply ev_State_setReg | with_reducible apply ev_State_bump | with_reducible apply ev_forEach | with_reducible apply ev_notify | intro _ | with_reducible apply ev_ledgerRecord | with_reducible apply ev_serveFailing | with_reducible apply ev_releasePin | with_reducible apply ev_putPortRegs | with_reducible apply ev_startTiles | with_reducible apply ev_State_onLdr | with_reducible apply ev_clearStaging | with_reducible apply ev_applyPair | extract_lets | with_reducible apply ev_verifyFrames | with_reducible apply ev_scrubFail | with_reducible apply ev_closeRegion | intro _ | extract_lets | split | fail_if_no_progress (with_reducible apply ev_mk) | with_reducible apply ev_ite | with_reducible apply ev_id | dsimp only | with_reducible refine ev_of_pair (by assumption) ?_)

theorem ev_sleepParked {s0 s : State} {e : Nat × BitVec 2} (hE : Ev s0 s)  : Ev s0 (sleepParked e s) := by
  unfold sleepParked
  repeat' (first | with_reducible assumption | with_reducible apply ev_State_setPin | with_reducible apply ev_setPin | with_reducible apply ev_switchFrom)

theorem ev_clearTorn {s0 s : State} {r : RegionSt} (hE : Ev s0 s)  : Ev s0 (clearTorn r s) := by
  unfold clearTorn
  repeat' (first | with_reducible assumption | with_reducible apply ev_forEach | with_reducible apply ev_notify | with_reducible apply ev_serveFailing | with_reducible apply ev_State_onLdr | with_reducible apply ev_removeInst | with_reducible apply ev_closeRegion | intro _ | with_reducible apply ev_sleepParked | intro _)

theorem ev_clearRegion {s0 s : State} {p : Fin 4} (hE : Ev s0 s)  : Ev s0 (clearRegion p s) := by
  unfold clearRegion
  repeat' (first | with_reducible assumption | with_reducible apply ev_State_stat | with_reducible apply ev_checked | with_reducible apply ev_clearTorn | intro _ | extract_lets | split)

end Sys2Proof.Machine
end

