-- ==== Sys2Proof/Laws/EvolveScrub.lean ====
section
/-! SUPPORT. Evolve: the operations of Machine/Scrub.lean keep what Ev says. -/
set_option linter.unusedVariables false
namespace Sys2Proof.Machine
variable {s0 s : State}
theorem ev_scrubFrame {s0 s : State} {f : Nat} (hE : Ev s0 s)  : Ev s0 (scrubFrame f s) := by
  unfold scrubFrame
  repeat' (first | with_reducible assumption | with_reducible apply ev_setClean | with_reducible apply ev_correctFrame | with_reducible apply ev_uncorrFrame | intro _ | extract_lets | split)

theorem ev_passEnd {s0 s : State}  (hE : Ev s0 s)  : Ev s0 (passEnd s) := by
  unfold passEnd
  repeat' (first | with_reducible assumption | with_reducible apply ev_foldl | with_reducible apply ev_foldl_snd | with_reducible apply ev_State_bump | with_reducible apply ev_State_onScrub | with_reducible apply ev_releaseClean)

theorem ev_verifyStep {s0 s : State}  (hE : Ev s0 s)  : Ev s0 (verifyStep s) := by
  unfold verifyStep
  repeat' (first | with_reducible assumption | with_reducible apply ev_State_onScrub | with_reducible apply ev_verifyFrame | with_reducible apply ev_scrubFail | intro _ | extract_lets | split | fail_if_no_progress (with_reducible apply ev_mk) | with_reducible apply ev_ite | with_reducible apply ev_id | dsimp only | with_reducible refine ev_of_pair (by assumption) ?_)

theorem ev_scrubRead {s0 s : State}  (hE : Ev s0 s)  : Ev s0 (scrubRead s) := by
  unfold scrubRead
  repeat' (first | with_reducible assumption | with_reducible apply ev_State_onScrub | with_reducible apply ev_serveFailing | with_reducible apply ev_scrubFrame | with_reducible apply ev_passEnd | with_reducible apply ev_verifyStep | intro _ | extract_lets | split | fail_if_no_progress (with_reducible apply ev_mk) | with_reducible apply ev_ite)

theorem ev_State_setTriple {s0 s : State} {i : Nat} {l : List Word} (hE : Ev s0 s)  : Ev s0 (State.setTriple s i l) := by
  unfold State.setTriple
  repeat' (first | with_reducible assumption | with_reducible apply ev_State_onScrub)

theorem ev_voteTriple {s0 s : State} {i : Nat} (hE : Ev s0 s)  : Ev s0 (voteTriple i s) := by
  unfold voteTriple
  repeat' (first | with_reducible assumption | with_reducible apply ev_State_bump | with_reducible apply ev_notifyOnce | with_reducible apply ev_scrubFault | with_reducible apply ev_State_setTriple | intro _ | extract_lets | split)

theorem ev_voteAll {s0 s : State}  (hE : Ev s0 s)  : Ev s0 (voteAll s) := by
  unfold voteAll
  repeat' (first | with_reducible assumption | with_reducible apply ev_forEach | with_reducible apply ev_voteTriple | intro _ | extract_lets | split)

theorem ev_tileTestStart {s0 s : State}  (hE : Ev s0 s)  : Ev s0 (tileTestStart s) := by
  unfold tileTestStart
  repeat' (first | with_reducible assumption | with_reducible apply ev_State_onDst | with_reducible apply ev_beginTest | intro _ | extract_lets | split)

theorem ev_countTest {s0 s : State} {fail : Bool} (hE : Ev s0 s)  : Ev s0 (countTest fail s) := by
  unfold countTest
  repeat' (first | with_reducible assumption | with_reducible apply ev_State_setReg)

theorem ev_testEnd {s0 s : State} {unit : Nat} (hE : Ev s0 s)  : Ev s0 (testEnd unit s) := by
  unfold testEnd
  repeat' (first | with_reducible assumption | with_reducible apply ev_clearTile | with_reducible apply ev_State_onDst | with_reducible apply ev_bistReport | with_reducible apply ev_testGap | with_reducible apply ev_failTile | with_reducible apply ev_countTest | intro _ | extract_lets | split | fail_if_no_progress (with_reducible apply ev_mk) | with_reducible apply ev_ite)

theorem ev_testMigrate {s0 s : State} {t : Nat} {i : Inst} (hE : Ev s0 s)  : Ev s0 (testMigrate t i s) := by
  unfold testMigrate
  repeat' (first | with_reducible assumption | with_reducible apply ev_State_setReg | with_reducible apply ev_State_stat | with_reducible apply ev_startMig | intro _ | extract_lets | split)

theorem ev_tileTest {s0 s : State} {p : Nat} {v : Word} (hE : Ev s0 s)  : Ev s0 (tileTest p v s) := by
  unfold tileTest
  repeat' (first | with_reducible assumption | with_reducible apply ev_State_stat | with_reducible apply ev_beginTest | with_reducible apply ev_testMigrate | intro _ | extract_lets | split)

end Sys2Proof.Machine
end

