-- ==== Sys2Proof/Laws/EvolvePower.lean ====
section
/-! SUPPORT. Evolve: the operations of Machine/Power.lean keep what Ev says. -/
set_option linter.unusedVariables false
namespace Sys2Proof.Machine
variable {s0 s : State}
theorem ev_State_onPwr {s0 s : State} {f : PwrSt → PwrSt} (hE : Ev s0 s)  : Ev s0 (State.onPwr s f) := by
  unfold State.onPwr
  repeat' (first | with_reducible assumption | intro _ | extract_lets | split | fail_if_no_progress (with_reducible apply ev_mk))

theorem ev_dropMail {s0 s : State} {d : Nat} (hE : Ev s0 s)  : Ev s0 (dropMail d s) := by
  unfold dropMail
  repeat' (first | with_reducible assumption | with_reducible apply ev_forEach | with_reducible apply ev_State_setMbox | intro _)

theorem ev_State_setBatch {s0 s : State} {p : Nat} {x : BatchSt} (hE : Ev s0 s)  : Ev s0 (State.setBatch s p x) := by
  unfold State.setBatch
  repeat' (first | with_reducible assumption | intro _ | extract_lets | split | fail_if_no_progress (with_reducible apply ev_mk))

theorem ev_batchStat {s0 s : State} {p : Nat} {state : Nat} {st : Status} (hE : Ev s0 s)  : Ev s0 (batchStat p state st s) := by
  unfold batchStat
  repeat' (first | with_reducible assumption | with_reducible apply ev_State_setRegP)

theorem ev_batchState {s0 s : State} {p : Nat} {state : Nat} (hE : Ev s0 s)  : Ev s0 (batchState p state s) := by
  unfold batchState
  repeat' (first | with_reducible assumption | with_reducible apply ev_batchStat)

theorem ev_dropPending {s0 s : State} {p : Nat} (hE : Ev s0 s)  : Ev s0 (dropPending p s) := by
  unfold dropPending
  repeat' (first | with_reducible assumption | intro _ | extract_lets | split | fail_if_no_progress (with_reducible apply ev_mk))

theorem ev_dropBatches {s0 s : State} {p : Nat} (hE : Ev s0 s)  : Ev s0 (dropBatches p s) := by
  unfold dropBatches
  repeat' (first | with_reducible assumption | with_reducible apply ev_State_setBatch | with_reducible apply ev_batchState | with_reducible apply ev_dropPending | intro _ | extract_lets | split)

theorem ev_dropRegion {s0 s : State} {d : Nat} (hE : Ev s0 s)  : Ev s0 (dropRegion d s) := by
  unfold dropRegion
  repeat' (first | with_reducible assumption | with_reducible apply ev_ldFail | intro _ | extract_lets | split)

theorem ev_domainReset {s0 s : State} {p : Nat} {d : Nat} (hE : Ev s0 s)  : Ev s0 (domainReset p d s) := by
  unfold domainReset
  repeat' (first | with_reducible assumption | with_reducible apply ev_notify | with_reducible apply ev_dropReport | with_reducible apply ev_domainTiles | with_reducible apply ev_dropMail | with_reducible apply ev_dropBatches | with_reducible apply ev_dropRegion)

theorem ev_portCut {s0 s : State} {p : Nat} (hE : Ev s0 s)  : Ev s0 (portCut p s) := by
  unfold portCut
  repeat' (first | with_reducible assumption | with_reducible apply ev_dropReport | with_reducible apply ev_dropStream)

theorem ev_islandResetPort {s0 s : State} {p : Nat} {t : Nat} (hE : Ev s0 s)  : Ev s0 (islandResetPort p t s) := by
  unfold islandResetPort
  repeat' (first | with_reducible assumption | with_reducible apply ev_checked | with_reducible apply ev_resetPort | with_reducible apply ev_portCut | intro _)

theorem ev_packetTimeout {s0 s : State} {p : Nat} (hE : Ev s0 s)  : Ev s0 (packetTimeout p s) := by
  unfold packetTimeout
  repeat' (first | with_reducible assumption | with_reducible apply ev_forEach | with_reducible apply ev_peerReset | with_reducible apply ev_layerTimeout | with_reducible apply ev_portCut | intro _ | extract_lets | split)

theorem ev_portOff {s0 s : State} {p : Nat} (hE : Ev s0 s)  : Ev s0 (portOff p s) := by
  unfold portOff
  repeat' (first | with_reducible assumption | with_reducible apply ev_forEach | with_reducible apply ev_peerReset | with_reducible apply ev_State_onPort | with_reducible apply ev_leaveActive | with_reducible apply ev_clearLayer | with_reducible apply ev_portCut | intro _)

theorem ev_pauseRuns {s0 s : State}  (hE : Ev s0 s)  : Ev s0 (pauseRuns s) := by
  unfold pauseRuns
  repeat' (first | with_reducible assumption | with_reducible apply ev_forEach | with_reducible apply ev_State_setSlot | intro _ | extract_lets | split)

theorem ev_resumeRuns {s0 s : State}  (hE : Ev s0 s)  : Ev s0 (resumeRuns s) := by
  unfold resumeRuns
  repeat' (first | with_reducible assumption | with_reducible apply ev_forEach | with_reducible apply ev_State_setSlot | with_reducible apply ev_lapReaders | intro _ | extract_lets | split)

theorem ev_endRuns {s0 s : State}  (hE : Ev s0 s)  : Ev s0 (endRuns s) := by
  unfold endRuns
  repeat' (first | with_reducible assumption | with_reducible apply ev_forEach | with_reducible apply ev_dropExport | with_reducible apply ev_staleRuns | intro _)

theorem ev_drainBank {b n : Nat} (h : Ev s0 s) : Ev s0 (drainBank b n s) := by
  induction n generalizing s with
  | zero => exact h
  | succ n ih =>
    unfold drainBank
    split
    · exact h
    · exact ih (ev_forEach (ev_serveNext h) (fun _ _ ht => ev_spendSlot ht))

theorem ev_drainWriter {s0 s : State} {k : Nat} (hE : Ev s0 s)  : Ev s0 (drainWriter k s) := by
  unfold drainWriter
  repeat' (first | with_reducible assumption | with_reducible apply ev_forEach | with_reducible apply ev_spoolWrite | intro _)

theorem ev_drainMem {s0 s : State}  (hE : Ev s0 s)  : Ev s0 (drainMem s) := by
  unfold drainMem
  repeat' (first | with_reducible assumption | with_reducible apply ev_forEach | with_reducible apply ev_drainBank | with_reducible apply ev_drainWriter | intro _)

theorem ev_staleAll {s0 s : State}  (hE : Ev s0 s)  : Ev s0 (staleAll s) := by
  unfold staleAll
  repeat' (first | with_reducible assumption | with_reducible apply ev_forEach | with_reducible apply ev_staleReq | intro _)

theorem ev_loseFabric {s0 s : State}  (hE : Ev s0 s)  : Ev s0 (loseFabric s) := by
  unfold loseFabric
  repeat' (first | with_reducible assumption | with_reducible apply ev_sweepPackets | with_reducible apply ev_staleAll | intro _ | extract_lets | split | fail_if_no_progress (with_reducible apply ev_mk))

theorem ev_powerDown {s0 s : State} {park : Bool} (hE : Ev s0 s)  : Ev s0 (powerDown park s) := by
  unfold powerDown
  repeat' (first | with_reducible assumption | with_reducible apply ev_forEach | with_reducible apply ev_notifyOwner | with_reducible apply ev_State_onPwr | with_reducible apply ev_portOff | with_reducible apply ev_loseFabric | intro _ | extract_lets | split | fail_if_no_progress (with_reducible apply ev_mk))

theorem ev_parkFromDoze {s0 s : State}  (hE : Ev s0 s)  : Ev s0 (parkFromDoze s) := by
  unfold parkFromDoze
  repeat' (first | with_reducible assumption | with_reducible apply ev_State_onPwr | with_reducible apply ev_endRuns | with_reducible apply ev_powerDown | intro _ | extract_lets | split)

theorem ev_powerProceed {s0 s : State}  (hE : Ev s0 s)  : Ev s0 (powerProceed s) := by
  unfold powerProceed
  repeat' (first | with_reducible assumption | with_reducible apply ev_pauseLanes | with_reducible apply ev_sleepPins | with_reducible apply ev_stopSenses | with_reducible apply ev_pauseRuns | with_reducible apply ev_endRuns | with_reducible apply ev_drainMem | intro _ | with_reducible apply ev_powerDown | with_reducible apply ev_parkFromDoze | intro _ | extract_lets | split)

theorem ev_startEntry {s0 s : State} {park : Bool} (hE : Ev s0 s)  : Ev s0 (startEntry park s) := by
  unfold startEntry
  repeat' (first | with_reducible assumption | with_reducible apply ev_abandonTest | with_reducible apply ev_abortMig | with_reducible apply ev_State_onPwr | intro _ | extract_lets | split)

theorem ev_doze {s0 s : State} {p : Nat} (hE : Ev s0 s)  : Ev s0 (doze p s) := by
  unfold doze
  repeat' (first | with_reducible assumption | with_reducible apply ev_State_stat | with_reducible apply ev_okAfter | with_reducible apply ev_startEntry | intro _ | extract_lets | split)

theorem ev_park {s0 s : State} {p : Nat} (hE : Ev s0 s)  : Ev s0 (park p s) := by
  unfold park
  repeat' (first | with_reducible assumption | with_reducible apply ev_State_stat | with_reducible apply ev_okAfter | with_reducible apply ev_parkFromDoze | with_reducible apply ev_startEntry | intro _ | extract_lets | split)

theorem ev_wakeBy {s0 s : State} {source : Nat} {pin : Nat} (hE : Ev s0 s)  : Ev s0 (wakeBy source pin s) := by
  unfold wakeBy
  repeat' (first | with_reducible assumption | with_reducible apply ev_State_setReg | with_reducible apply ev_State_onPwr | intro _ | extract_lets | split)

theorem ev_wake {s0 s : State} {p : Nat} (hE : Ev s0 s)  : Ev s0 (wake p s) := by
  unfold wake
  repeat' (first | with_reducible assumption | with_reducible apply ev_ownerOnly | with_reducible apply ev_okAfter | with_reducible apply ev_wakeBy | intro _)

theorem ev_wakeTimer {s0 s : State}  (hE : Ev s0 s)  : Ev s0 (wakeTimer s) := by
  unfold wakeTimer
  repeat' (first | with_reducible assumption | with_reducible apply ev_advanceTo | with_reducible apply ev_wakeBy | intro _ | extract_lets | split)

theorem ev_pinWake {s0 s : State} {p : Nat} {level : Bool} (hE : Ev s0 s)  : Ev s0 (pinWake p level s) := by
  unfold pinWake
  repeat' (first | with_reducible assumption | with_reducible apply ev_State_setPin | with_reducible apply ev_setPin | with_reducible apply ev_setPend | with_reducible apply ev_wakeBy | intro _ | extract_lets | split)

theorem ev_thermalRelease {s0 s : State}  (hE : Ev s0 s)  : Ev s0 (thermalRelease s) := by
  unfold thermalRelease
  repeat' (first | with_reducible assumption | with_reducible apply ev_wakeBy | intro _ | extract_lets | split)

theorem ev_sensorReads {s0 s : State} {region : Nat} {temp : Byte} (hE : Ev s0 s)  : Ev s0 (sensorReads region temp s) := by
  unfold sensorReads
  repeat' (first | with_reducible assumption | intro _ | extract_lets | split | fail_if_no_progress (with_reducible apply ev_mk))

theorem ev_thermTrip {s0 s : State} {region : Nat} {temp : Byte} (hE : Ev s0 s)  : Ev s0 (thermTrip region temp s) := by
  unfold thermTrip
  repeat' (first | with_reducible assumption | with_reducible apply ev_notifyOwner | with_reducible apply ev_State_onPwr | with_reducible apply ev_parkFromDoze | with_reducible apply ev_startEntry | with_reducible apply ev_sensorReads | intro _ | extract_lets | split | fail_if_no_progress (with_reducible apply ev_mk) | with_reducible apply ev_ite)

theorem ev_tripHot {s0 s : State}  (hE : Ev s0 s)  : Ev s0 (tripHot s) := by
  unfold tripHot
  repeat' (first | with_reducible assumption | with_reducible apply ev_thermTrip | intro _ | extract_lets | split)

theorem ev_fabricCmd {s0 s : State} {cause : Nat} (hE : Ev s0 s)  : Ev s0 (fabricCmd cause s) := by
  unfold fabricCmd
  repeat' (first | with_reducible assumption | with_reducible apply ev_State_setReg | with_reducible apply ev_notifyPorts | with_reducible apply ev_fabricReset | intro _ | extract_lets | split)

theorem ev_orHold {s0 s : State} {k : Nat} {act : State → State} (hE : Ev s0 s) (hact : ∀  t, Ev s0 t → Ev s0 (act  t)) : Ev s0 (orHold k act s) := by
  unfold orHold
  repeat' (first | with_reducible assumption | with_reducible apply hact | with_reducible apply ev_State_onPwr | intro _ | extract_lets | split)

theorem ev_heldAct {s0 s : State} {k : Nat} (hE : Ev s0 s)  : Ev s0 (heldAct k s) := by
  unfold heldAct
  repeat' (first | with_reducible assumption | with_reducible apply ev_domainReset | with_reducible apply ev_fabricCmd | intro _ | extract_lets | split)

theorem ev_wakeDone {s0 s : State}  (hE : Ev s0 s)  : Ev s0 (wakeDone s) := by
  unfold wakeDone
  repeat' (first | with_reducible assumption | with_reducible apply ev_foldl | with_reducible apply ev_foldl_snd | with_reducible apply ev_forEach | with_reducible apply ev_State_onMem | with_reducible apply ev_writeEarly | with_reducible apply ev_notifyOwner | intro _ | with_reducible apply ev_settleRunning | with_reducible apply ev_flushHeld | with_reducible apply ev_wakeLanes | with_reducible apply ev_wakePins | with_reducible apply ev_wakeSenses | with_reducible apply ev_portDetect | with_reducible apply ev_startTiles | with_reducible apply ev_State_onPwr | extract_lets | with_reducible apply ev_resumeRuns | with_reducible apply ev_startEntry | with_reducible apply ev_heldAct | intro _ | extract_lets | split | fail_if_no_progress (with_reducible apply ev_mk) | with_reducible apply ev_ite)

theorem ev_sendPmb {s0 s : State} {cmd : Nat} {word : Nat} (hE : Ev s0 s)  : Ev s0 (sendPmb cmd word s) := by
  unfold sendPmb
  repeat' (first | with_reducible assumption | with_reducible apply ev_State_onPwr)

theorem ev_regFault {s0 s : State}  (hE : Ev s0 s)  : Ev s0 (regFault s) := by
  unfold regFault
  repeat' (first | with_reducible assumption | with_reducible apply ev_notifyOwner | with_reducible apply ev_State_onPwr)

theorem ev_pmbFault {s0 s : State} {n : Nat} {cmd : Nat} (hE : Ev s0 s)  : Ev s0 (pmbFault n cmd s) := by
  unfold pmbFault
  repeat' (first | with_reducible assumption | with_reducible apply ev_notifyOwner | with_reducible apply ev_State_onPwr | intro _ | extract_lets | split)

theorem ev_statusRead {s0 s : State} {w : BitVec 16} (hE : Ev s0 s)  : Ev s0 (statusRead w s) := by
  unfold statusRead
  repeat' (first | with_reducible assumption | with_reducible apply ev_State_onPwr | with_reducible apply ev_sendPmb | with_reducible apply ev_regFault | intro _ | extract_lets | split)

theorem ev_voutRead {s0 s : State} {w : BitVec 16} (hE : Ev s0 s)  : Ev s0 (voutRead w s) := by
  unfold voutRead
  repeat' (first | with_reducible assumption | with_reducible apply ev_State_setReg | with_reducible apply ev_State_onPwr | with_reducible apply ev_regFault | intro _ | extract_lets | split)

theorem ev_ioutRead {s0 s : State} {w : BitVec 16} (hE : Ev s0 s)  : Ev s0 (ioutRead w s) := by
  unfold ioutRead
  repeat' (first | with_reducible assumption | with_reducible apply ev_State_setReg | with_reducible apply ev_State_onPwr)

theorem ev_govRead {s0 s : State} {r : PmbResult} (hE : Ev s0 s)  : Ev s0 (govRead r s) := by
  unfold govRead
  repeat' (first | with_reducible assumption | with_reducible apply ev_State_onPwr | with_reducible apply ev_sendPmb | with_reducible apply ev_pmbFault | with_reducible apply ev_statusRead | with_reducible apply ev_voutRead | with_reducible apply ev_ioutRead | intro _ | extract_lets | split)

theorem ev_govWrite {s0 s : State} {t : Nat} {ack : Bool} (hE : Ev s0 s)  : Ev s0 (govWrite t ack s) := by
  unfold govWrite
  repeat' (first | with_reducible assumption | with_reducible apply ev_State_onPwr | with_reducible apply ev_sendPmb | with_reducible apply ev_pmbFault | intro _ | extract_lets | split)

theorem ev_shortfall {s0 s : State} {short : Bool} (hE : Ev s0 s)  : Ev s0 (shortfall short s) := by
  unfold shortfall
  repeat' (first | with_reducible assumption | with_reducible apply ev_State_bump | with_reducible apply ev_notifyOwner | with_reducible apply ev_State_onPwr | intro _ | extract_lets | split)

theorem ev_newPeriod {s0 s : State}  (hE : Ev s0 s)  : Ev s0 (newPeriod s) := by
  unfold newPeriod
  repeat' (first | with_reducible assumption | with_reducible apply ev_State_onPwr)

theorem ev_governor {s0 s : State} {cong : Nat} {r : PmbResult} (hE : Ev s0 s)  : Ev s0 (governor cong r s) := by
  unfold governor
  repeat' (first | with_reducible assumption | with_reducible apply ev_State_onPwr | with_reducible apply ev_govRead | with_reducible apply ev_govWrite | with_reducible apply ev_shortfall | with_reducible apply ev_newPeriod | intro _ | extract_lets | split)

theorem ev_govPeriod {s0 s : State} {temps : List Byte} {cong : Nat} {r : PmbResult} (hE : Ev s0 s)  : Ev s0 (govPeriod temps cong r s) := by
  unfold govPeriod
  repeat' (first | with_reducible assumption | with_reducible apply ev_State_onPwr | with_reducible apply ev_tripHot | with_reducible apply ev_governor | intro _ | extract_lets | split | fail_if_no_progress (with_reducible apply ev_mk))

theorem ev_pmbAlert {s0 s : State} {ack : Bool} {w : BitVec 16} (hE : Ev s0 s)  : Ev s0 (pmbAlert ack w s) := by
  unfold pmbAlert
  repeat' (first | with_reducible assumption | with_reducible apply ev_State_onPwr | with_reducible apply ev_govRead | intro _ | extract_lets | split)

theorem ev_wideReset {power : Bool} {cause : Nat} (h : Ev s0 s) : Ev s0 (wideReset power cause s) := by
  have h2 : Ev s0 (match s.sec.fuseOp with
    | some f => fuseCut f s
    | none => s) := by
    split
    · exact ev_fuseCut h ‹_›
    · exact h
  unfold wideReset
  extract_lets s' r
  apply ev_State_setReg
  have h3 : Ev s0 s' := h2
  exact ⟨h3.pending, fun _ => rfl, fun _ => rfl, fun a => by
    have b := h3.fuse a
    refine ⟨⟨?_⟩, b.2⟩
    intro f e
    have e' : (SecSt.init.fuseOp : Option FuseOp) = some f := e
    cases e'⟩

theorem ev_startUp {s0 s : State} {mode : BitVec 2} {pulldef : Byte} (hE : Ev s0 s)  : Ev s0 (startUp mode pulldef s) := by
  unfold startUp
  repeat' (first | with_reducible assumption | with_reducible apply ev_notifyOwner | with_reducible refine ev_State_onSec ?_ rfl rfl | with_reducible apply ev_State_onPins | with_reducible apply ev_portDetect | with_reducible apply ev_State_onLdr | with_reducible apply ev_beginFull | with_reducible apply ev_State_onPwr | with_reducible apply ev_sendPmb | intro _ | extract_lets | split)

theorem ev_powerOn {s0 s : State}  (hE : Ev s0 s)  : Ev s0 (powerOn s) := by
  unfold powerOn
  repeat' (first | with_reducible assumption | with_reducible apply ev_wideReset)

theorem ev_fullByPin {s0 s : State}  (hE : Ev s0 s)  : Ev s0 (fullByPin s) := by
  unfold fullByPin
  repeat' (first | with_reducible assumption | with_reducible apply ev_wideReset | intro _ | extract_lets | split)

theorem ev_porstUp {s0 s : State} {mode : BitVec 2} {pulldef : Byte} (hE : Ev s0 s)  : Ev s0 (porstUp mode pulldef s) := by
  unfold porstUp
  repeat' (first | with_reducible assumption | with_reducible apply ev_startUp | intro _ | extract_lets | split)

theorem ev_rstUp {s0 s : State} {mode : BitVec 2} {pulldef : Byte} (hE : Ev s0 s)  : Ev s0 (rstUp mode pulldef s) := by
  unfold rstUp
  repeat' (first | with_reducible assumption | with_reducible apply ev_startUp | intro _ | extract_lets | split)

theorem ev_sysReset {s0 s : State} {p : Nat} {v : Word} {mode : BitVec 2} {pulldef : Byte} (hE : Ev s0 s)  : Ev s0 (sysReset p v mode pulldef s) := by
  unfold sysReset
  repeat' (first | with_reducible assumption | with_reducible apply ev_checked | with_reducible apply ev_fabricCmd | with_reducible apply ev_orHold | with_reducible apply ev_wideReset | with_reducible apply ev_startUp | intro _ | extract_lets | split)

theorem ev_sysResetWrite {s0 s : State} {p : Nat} {v : Word} (hE : Ev s0 s)  : Ev s0 (sysResetWrite p v s) := by
  unfold sysResetWrite
  repeat' (first | with_reducible assumption | with_reducible apply ev_State_nextFree | with_reducible apply ev_sysReset)

theorem ev_brownout {s0 s : State} {r : Rail} (hE : Ev s0 s)  : Ev s0 (brownout r s) := by
  unfold brownout
  repeat' (first | with_reducible assumption | with_reducible apply ev_forEach | with_reducible apply ev_notifyPorts | with_reducible apply ev_lockLost | with_reducible apply ev_State_onPort | with_reducible apply ev_leaveActive | with_reducible apply ev_fabricCmd | intro _ | with_reducible apply ev_wideReset | intro _ | extract_lets | split)

end Sys2Proof.Machine
end

