-- ==== Sys2Proof/Laws/EvolveRead.lean ====
section
/-! SUPPORT. Evolve: the operations of Machine/Read.lean keep what Ev says. -/
set_option linter.unusedVariables false
namespace Sys2Proof.Machine
variable {s0 s : State}
theorem ev_plainRead {s0 s : State} {p : Nat} {r : Reg} {i : Nat} {j : Nat} (hE : Ev s0 s)  : Ev s0 (plainRead p r i j s) := by
  unfold plainRead
  repeat' (first | with_reducible assumption | with_reducible apply ev_State_finish | with_reducible apply ev_State_nextFree)

theorem ev_toBlock {s0 s : State} {r : Reg} {i : Nat} (hE : Ev s0 s)  : Ev s0 (toBlock r i s) := by
  unfold toBlock
  repeat' (first | with_reducible assumption | with_reducible apply ev_wakeIsl | intro _ | extract_lets | split)

theorem ev_readReg {p : Fin 4} {a : Nat} (h : Ev s0 s) : Ev s0 (readReg p a s) := by
  unfold readReg
  split
  · exact ev_State_finish h
  · split
    · exact ev_State_finish h
    dsimp only
    split
    · split <;> first | exact ev_confRead h | exact ev_seqRead h | exact ev_nowRead h | exact ev_qdLastRead h | exact ev_cntLoRead h | exact ev_wptrRead h | exact ev_liveRead h | exact ev_plainRead h
    · apply ev_servedRead h
      intro t hu
      have ht := fun r i => ev_toBlock (r := r) (i := i) hu
      split <;> first | exact ev_confRead (ht _ _) | exact ev_seqRead (ht _ _) | exact ev_nowRead (ht _ _) | exact ev_qdLastRead (ht _ _) | exact ev_cntLoRead (ht _ _) | exact ev_wptrRead (ht _ _) | exact ev_liveRead (ht _ _) | exact ev_plainRead (ht _ _)

end Sys2Proof.Machine
end

