-- ==== Sys2Proof/Laws/EvolveBatch.lean ====
section
/-! SUPPORT. Evolve: the operations of Machine/Batch.lean keep what Ev says. -/
set_option linter.unusedVariables false
namespace Sys2Proof.Machine
variable {s0 s : State}
theorem ev_batchData {s0 s : State} {p : Fin 4} {v : Word} (hE : Ev s0 s)  : Ev s0 (batchData p v s) := by
  unfold batchData
  repeat' (first | with_reducible assumption | with_reducible apply ev_State_stat | with_reducible apply ev_State_setBatch | with_reducible apply ev_batchState | intro _ | extract_lets | split)

theorem ev_beginCheck {s0 s : State} {p : Fin 4} {at_ : Option Tick} (hE : Ev s0 s)  : Ev s0 (beginCheck p at_ s) := by
  unfold beginCheck
  repeat' (first | with_reducible assumption | with_reducible apply ev_State_stat | with_reducible apply ev_State_setBatch | with_reducible apply ev_batchState | intro _ | extract_lets | split)

theorem ev_commitAt {s0 s : State} {p : Fin 4} (hE : Ev s0 s)  : Ev s0 (commitAt p s) := by
  unfold commitAt
  repeat' (first | with_reducible assumption | with_reducible apply ev_beginCheck)

theorem ev_discard {s0 s : State} {p : Fin 4} (hE : Ev s0 s)  : Ev s0 (discard p s) := by
  unfold discard
  repeat' (first | with_reducible assumption | with_reducible apply ev_State_stat | with_reducible apply ev_State_setBatch | with_reducible apply ev_batchState | with_reducible apply ev_dropPending | intro _ | extract_lets | split)

theorem ev_applyEntry {p : Nat} {e : Word × Word} (h : Ev s0 s) : Ev s0 (applyEntry p e s) := by
  unfold applyEntry
  split
  · exact h
  · split
    · exact ev_putDesc h
    · split
      · exact ev_putSetting h
      · exact h

theorem ev_applyEntries {s0 s : State} {p : Nat} {l : List (Word × Word)} (hE : Ev s0 s)  : Ev s0 (applyEntries p l s) := by
  unfold applyEntries
  repeat' (first | with_reducible assumption | with_reducible apply ev_forEach | with_reducible apply ev_applyEntry | intro _ | extract_lets | split | fail_if_no_progress (with_reducible apply ev_mk))

theorem ev_checkEntries {direct : State → Reg → Nat → Nat → Word → Status} {p k : Nat} {l : List (Word × Word)} (h : Ev s0 s) : Ev s0 (checkEntries direct p k l s).2 := by
  induction l generalizing s k with
  | nil => exact h
  | cons e t ih =>
    unfold checkEntries
    dsimp only
    split
    · exact ih (ev_applyEntries h)
    · exact h

theorem ev_before {s0 s : State} {t : Tick} (hE : Ev s0 s)  : Ev s0 (before t s) := by
  unfold before
  repeat' (first | with_reducible assumption | with_reducible apply ev_forEach | with_reducible apply ev_applyEntries | intro _)

theorem ev_batchFails {s0 s : State} {p : Fin 4} {st : Status} {k : Option (Nat × Word)} (hE : Ev s0 s)  : Ev s0 (batchFails p st k s) := by
  unfold batchFails
  repeat' (first | with_reducible assumption | with_reducible apply ev_State_setRegP | with_reducible apply ev_notify | with_reducible apply ev_batchStat | intro _ | extract_lets | split)

theorem ev_checkDone {s0 s : State} {direct : State → Reg → Nat → Nat → Word → Status} {p : Fin 4} (hE : Ev s0 s)  : Ev s0 (checkDone direct p s) := by
  unfold checkDone
  repeat' (first | with_reducible assumption | with_reducible apply ev_State_setBatch | with_reducible apply ev_batchStat | with_reducible apply ev_batchFails | intro _ | extract_lets | split | fail_if_no_progress (with_reducible apply ev_mk))

theorem ev_applyBatch {s0 s : State} {t : Tick} {b : PBatch} (hE : Ev s0 s)  : Ev s0 (applyBatch t b s) := by
  unfold applyBatch
  repeat' (first | with_reducible assumption | with_reducible apply ev_State_setRegP | with_reducible apply ev_notify | with_reducible apply ev_batchStat | with_reducible apply ev_applyEntries)

theorem ev_applyDue {s0 s : State} {t : Tick} (hE : Ev s0 s)  : Ev s0 (applyDue t s) := by
  unfold applyDue
  repeat' (first | with_reducible assumption | with_reducible apply ev_forEach | with_reducible apply ev_applyBatch | intro _ | extract_lets | split | fail_if_no_progress (with_reducible apply ev_mk))

end Sys2Proof.Machine
end

