-- ==== Sys2Proof/Laws/EvolveRegWrite.lean ====
section
/-! SUPPORT. Evolve: the operations of Machine/RegWrite.lean keep what Ev says. -/
set_option linter.unusedVariables false
namespace Sys2Proof.Machine
variable {s0 s : State}
theorem ev_clearRecord {s0 s : State} {p : Nat} {l : List Reg} {v : Word} (hE : Ev s0 s)  : Ev s0 (clearRecord p l v s) := by
  unfold clearRecord
  repeat' (first | with_reducible assumption | with_reducible apply ev_State_setRegP | with_reducible apply ev_forEach | intro _ | extract_lets | split)

theorem ev_ownerRecord {s0 s : State} {p : Nat} {l : List Reg} {v : Word} (hE : Ev s0 s)  : Ev s0 (ownerRecord p l v s) := by
  unfold ownerRecord
  repeat' (first | with_reducible assumption | with_reducible apply ev_ownerOnly | with_reducible apply ev_okAfter | with_reducible apply ev_clearRecord | intro _)

theorem ev_tileStatWrite {s0 s : State} {p : Nat} {v : Word} (hE : Ev s0 s)  : Ev s0 (tileStatWrite p v s) := by
  unfold tileStatWrite
  repeat' (first | with_reducible assumption | with_reducible apply ev_State_onTile | with_reducible apply ev_checked | intro _ | extract_lets | split)

theorem ev_ramErrWrite {s0 s : State} {p : Nat} {v : Word} (hE : Ev s0 s)  : Ev s0 (ramErrWrite p v s) := by
  unfold ramErrWrite
  repeat' (first | with_reducible assumption | with_reducible apply ev_State_onTile | with_reducible apply ev_checked | intro _ | extract_lets | split)

theorem ev_pinStatWrite {s0 s : State} {p : Nat} {i : Nat} {v : Word} (hE : Ev s0 s)  : Ev s0 (pinStatWrite p i v s) := by
  unfold pinStatWrite
  repeat' (first | with_reducible assumption | with_reducible apply ev_State_putFields | with_reducible apply ev_checked | intro _)

theorem ev_batchCmd {s0 s : State} {p : Fin 4} {v : Word} (hE : Ev s0 s)  : Ev s0 (batchCmd p v s) := by
  unfold batchCmd
  repeat' (first | with_reducible assumption | with_reducible apply ev_State_stat | with_reducible apply ev_beginCheck | with_reducible apply ev_commitAt | with_reducible apply ev_discard | intro _ | extract_lets | split)

theorem ev_cfgCmd {s0 s : State} {p : Fin 4} {v : Word} (hE : Ev s0 s)  : Ev s0 (cfgCmd p v s) := by
  unfold cfgCmd
  repeat' (first | with_reducible assumption | with_reducible apply ev_State_stat | with_reducible apply ev_startFull | with_reducible apply ev_startPartial | with_reducible apply ev_abortLoad | with_reducible apply ev_clearRegion | intro _ | extract_lets | split)

theorem ev_bistCmd {s0 s : State} {p : Fin 4} {v : Word} (hE : Ev s0 s)  : Ev s0 (bistCmd p v s) := by
  unfold bistCmd
  repeat' (first | with_reducible assumption | with_reducible apply ev_State_stat | with_reducible apply ev_ownerOnly | with_reducible apply ev_tileTest | intro _ | extract_lets | split)

theorem ev_fuseCmd {s0 s : State} {p : Fin 4} {v : Word} (hE : Ev s0 s)  : Ev s0 (fuseCmd p v s) := by
  unfold fuseCmd
  repeat' (first | with_reducible assumption | with_reducible apply ev_State_stat | with_reducible apply ev_ownerOnly | with_reducible apply ev_fuseRetire | intro _ | extract_lets | split)

theorem ev_secCmd {s0 s : State} {p : Fin 4} {v : Word} (hE : Ev s0 s)  : Ev s0 (secCmd p v s) := by
  unfold secCmd
  repeat' (first | with_reducible assumption | with_reducible apply ev_secCommand | with_reducible apply ev_takeOwnership | with_reducible apply ev_programSlot | with_reducible apply ev_revokeSlot | with_reducible apply ev_sealPart | with_reducible apply ev_advanceRollback | intro _ | with_reducible apply ev_attest | with_reducible apply ev_signHead | intro _ | extract_lets | split | fail_if_no_progress (with_reducible apply ev_mk) | with_reducible apply ev_ite | with_reducible apply ev_id)

theorem ev_pwrCmd {s0 s : State} {p : Fin 4} {v : Word} (hE : Ev s0 s)  : Ev s0 (pwrCmd p v s) := by
  unfold pwrCmd
  repeat' (first | with_reducible assumption | with_reducible apply ev_State_stat | with_reducible apply ev_ownerOnly | with_reducible apply ev_doze | with_reducible apply ev_park | with_reducible apply ev_wake | intro _ | extract_lets | split)

theorem ev_dstCmd {s0 s : State} {p : Fin 4} {v : Word} (hE : Ev s0 s)  : Ev s0 (dstCmd p v s) := by
  unfold dstCmd
  repeat' (first | with_reducible assumption | with_reducible apply ev_State_stat | with_reducible apply ev_dstDone | with_reducible apply ev_dstPin | with_reducible apply ev_dstMigrate | with_reducible apply ev_dstRetire | with_reducible apply ev_dstUnretire | intro _ | extract_lets | split)

theorem ev_memTestCmd {s0 s : State} {p : Fin 4} {v : Word} (hE : Ev s0 s)  : Ev s0 (memTestCmd p v s) := by
  unfold memTestCmd
  repeat' (first | with_reducible assumption | with_reducible apply ev_State_stat | with_reducible apply ev_ownerOnly | with_reducible apply ev_testStart | with_reducible apply ev_testStop | intro _ | extract_lets | split)

theorem ev_splCmdWrite {s0 s : State} {p : Fin 4} {v : Word} (hE : Ev s0 s)  : Ev s0 (splCmdWrite p v s) := by
  unfold splCmdWrite
  repeat' (first | with_reducible assumption | with_reducible apply ev_State_stat | with_reducible apply ev_splGo | intro _ | extract_lets | split)

theorem ev_laneCmdWrite {s0 s : State} {p : Fin 4} {v : Word} (hE : Ev s0 s)  : Ev s0 (laneCmdWrite p v s) := by
  unfold laneCmdWrite
  repeat' (first | with_reducible assumption | with_reducible apply ev_laneCommand | with_reducible apply ev_cmdEnable | with_reducible apply ev_cmdDisable | with_reducible apply ev_cmdRetrain | with_reducible apply ev_cmdIslandReset | with_reducible apply ev_cmdFeRead | intro _ | with_reducible apply ev_cmdFeWrite | intro _ | extract_lets | split | fail_if_no_progress (with_reducible apply ev_mk) | with_reducible apply ev_ite | with_reducible apply ev_id)

theorem ev_chQueueWrite {s0 s : State} {p : Fin 4} {c : Nat} {v : Word} (hE : Ev s0 s)  : Ev s0 (chQueueWrite p c v s) := by
  unfold chQueueWrite
  repeat' (first | with_reducible assumption | with_reducible apply ev_State_stat | with_reducible apply ev_clrPeak | intro _ | extract_lets | split)

theorem ev_qdCmd {s0 s : State} {p : Fin 4} {q : Nat} {v : Word} (hE : Ev s0 s)  : Ev s0 (qdCmd p q v s) := by
  unfold qdCmd
  repeat' (first | with_reducible assumption | with_reducible apply ev_State_stat | with_reducible apply ev_qdSample | with_reducible apply ev_qdClear | intro _ | extract_lets | split)

theorem ev_pinArmWrite {s0 s : State} {p : Fin 4} {i : Nat} {v : Word} (hE : Ev s0 s)  : Ev s0 (pinArmWrite p i v s) := by
  unfold pinArmWrite
  repeat' (first | with_reducible assumption | with_reducible apply ev_State_stat | with_reducible apply ev_pinArm | intro _ | extract_lets | split)

theorem ev_portCmd {s0 s : State} {p : Fin 4} {v : Word} (hE : Ev s0 s)  : Ev s0 (portCmd p v s) := by
  unfold portCmd
  repeat' (first | with_reducible assumption | with_reducible apply ev_State_stat | with_reducible apply ev_portRetrain | with_reducible apply ev_islandResetPort | intro _ | extract_lets | split)

theorem ev_resetDomain {s0 s : State} {p : Nat} {d : Nat} (hE : Ev s0 s)  : Ev s0 (resetDomain p d s) := by
  unfold resetDomain
  repeat' (first | with_reducible assumption | with_reducible apply ev_checked | with_reducible apply ev_domainReset | with_reducible apply ev_orHold | intro _)

theorem ev_domResetWrite {s0 s : State} {p : Fin 4} {v : Word} (hE : Ev s0 s)  : Ev s0 (domResetWrite p v s) := by
  unfold domResetWrite
  repeat' (first | with_reducible assumption | with_reducible apply ev_State_stat | with_reducible apply ev_resetDomain | intro _ | extract_lets | split)

theorem ev_obsCtlWrite {s0 s : State} {p : Fin 4} {v : Word} (hE : Ev s0 s)  : Ev s0 (obsCtlWrite p v s) := by
  unfold obsCtlWrite
  repeat' (first | with_reducible assumption | with_reducible apply ev_State_stat | with_reducible apply ev_State_putFields | with_reducible apply ev_snapAll | intro _ | extract_lets | split)

theorem ev_plainWrite {s0 s : State} {p : Fin 4} {r : Reg} {i : Nat} {j : Nat} {v : Word} (hE : Ev s0 s)  : Ev s0 (plainWrite p r i j v s) := by
  unfold plainWrite
  repeat' (first | with_reducible assumption | with_reducible apply ev_State_stat | with_reducible apply ev_settingWrite | intro _ | extract_lets | split)

theorem ev_writeOf {s0 s : State} {p : Fin 4} {r : Reg} {i : Nat} {j : Nat} {v : Word} (hE : Ev s0 s)  : Ev s0 (writeOf p r i j v s) := by
  unfold writeOf
  repeat' (first | with_reducible assumption | with_reducible apply ev_okAfter | with_reducible apply ev_memCtl | with_reducible apply ev_laneCfgWrite | with_reducible apply ev_laneChEnWrite | with_reducible apply ev_laneSubWrite | with_reducible apply ev_pinCfgWrite | intro _ | with_reducible apply ev_bankCfgWrite | with_reducible apply ev_pinEvtWrite | with_reducible apply ev_pinArm | with_reducible apply ev_pendClear | with_reducible apply ev_pinOutWrite | with_reducible apply ev_pinSetBits | with_reducible apply ev_pinClrBits | with_reducible apply ev_pinTglBits | extract_lets | with_reducible apply ev_pinDirWrite | with_reducible apply ev_pwmCfgWrite | with_reducible apply ev_pwmDutyWrite | with_reducible apply ev_pwmPeriodWrite | with_reducible apply ev_spiCmd | with_reducible apply ev_i2cCmd | with_reducible apply ev_memCtlWrite | with_reducible apply ev_rptrWrite | with_reducible apply ev_cntSrcWrite | with_reducible assumption | with_reducible apply ev_probeSrcWrite | with_reducible apply ev_ledgerAck | with_reducible apply ev_recSel | with_reducible apply ev_pwrVlimWrite | with_reducible apply ev_pwrThermWrite | with_reducible apply ev_pwrWakeAtWrite | with_reducible apply ev_sysLockWrite | intro _ | with_reducible apply ev_streamWrite | with_reducible apply ev_sysReset | with_reducible apply ev_sysResetWrite | with_reducible apply ev_batchData | with_reducible apply ev_clearRecord | with_reducible apply ev_ownerRecord | with_reducible apply ev_tileStatWrite | with_reducible apply ev_ramErrWrite | extract_lets | with_reducible apply ev_pinStatWrite | with_reducible apply ev_batchCmd | with_reducible apply ev_cfgCmd | with_reducible apply ev_bistCmd | with_reducible apply ev_fuseCmd | with_reducible apply ev_secCmd | with_reducible apply ev_pwrCmd | with_reducible apply ev_dstCmd | with_reducible apply ev_memTestCmd | with_reducible assumption | with_reducible apply ev_splCmdWrite | with_reducible apply ev_laneCmdWrite | with_reducible apply ev_chQueueWrite | with_reducible apply ev_qdCmd | with_reducible apply ev_pinArmWrite | with_reducible apply ev_portCmd | with_reducible apply ev_domResetWrite | intro _ | with_reducible apply ev_obsCtlWrite | with_reducible apply ev_plainWrite | intro _ | extract_lets | split)

theorem ev_writeReg {s0 s : State} {p : Fin 4} {a : Nat} {v : Word} (hE : Ev s0 s)  : Ev s0 (writeReg p a v s) := by
  unfold writeReg
  repeat' (first | with_reducible assumption | with_reducible apply ev_State_stat | with_reducible apply ev_served | with_reducible apply ev_toBlock | with_reducible apply ev_writeOf | intro _ | extract_lets | split)

end Sys2Proof.Machine
end

