-- ==== Sys2Proof/Laws/EvolveHostReq.lean ====
section
/-! SUPPORT. Evolve: the operations of Machine/HostReq.lean keep what Ev says. -/
set_option linter.unusedVariables false
namespace Sys2Proof.Machine
variable {s0 s : State}
theorem ev_hostReg {s0 s : State} {p : Fin 4} {tag : Option Byte} {wr : Bool} {addr : Nat} {n : Nat} {bs : List Byte} (hE : Ev s0 s)  : Ev s0 (hostReg p tag wr addr n bs s) := by
  unfold hostReg
  repeat' (first | with_reducible assumption | with_reducible apply ev_queueRsp | with_reducible apply ev_formRsp | with_reducible apply ev_readReg | with_reducible apply ev_writeReg | intro _ | extract_lets | split)

theorem ev_hostAccess {s0 s : State} {p : Fin 4} {tag : Option Byte} {wr : Bool} {addr : Nat} {n : Nat} {bs : List Byte} (hE : Ev s0 s)  : Ev s0 (hostAccess p tag wr addr n bs s) := by
  unfold hostAccess
  repeat' (first | with_reducible assumption | with_reducible apply ev_formRsp | with_reducible apply ev_hostMem | with_reducible apply ev_hostWin | with_reducible apply ev_hostReg | intro _ | extract_lets | split)

theorem ev_hostRead {s0 s : State} {p : Fin 4} {tag : Option Byte} {words : List DWord} (hE : Ev s0 s)  : Ev s0 (hostRead p tag words s) := by
  unfold hostRead
  repeat' (first | with_reducible assumption | with_reducible apply ev_formRsp | with_reducible apply ev_hostAccess | intro _ | extract_lets | split)

theorem ev_hostWrite {s0 s : State} {p : Fin 4} {tag : Option Byte} {words : List DWord} (hE : Ev s0 s)  : Ev s0 (hostWrite p tag words s) := by
  unfold hostWrite
  repeat' (first | with_reducible assumption | with_reducible apply ev_formRsp | with_reducible apply ev_hostAccess | intro _ | extract_lets | split)

theorem ev_doReq {s0 s : State} {p : Fin 4} {r : HReq} (hE : Ev s0 s)  : Ev s0 (doReq p r s) := by
  unfold doReq
  repeat' (first | with_reducible assumption | with_reducible apply ev_formRsp | with_reducible apply ev_hostPly | with_reducible apply ev_streamWrite | with_reducible apply ev_hostRead | with_reducible apply ev_hostWrite | intro _ | extract_lets | split)

theorem ev_grantReq {s0 s : State} {p : Fin 4} (hE : Ev s0 s)  : Ev s0 (grantReq p s) := by
  unfold grantReq
  repeat' (first | with_reducible assumption | with_reducible apply ev_State_setPort | with_reducible apply ev_reqFault | with_reducible apply ev_doReq | intro _ | extract_lets | split | fail_if_no_progress (with_reducible apply ev_mk))

theorem ev_grantReqs {n : Nat} (h : Ev s0 s) : Ev s0 (grantReqs n s) := by
  induction n generalizing s with
  | zero => exact h
  | succ n ih =>
    unfold grantReqs
    split
    · exact ih (ev_grantReq h)
    · exact h

theorem ev_serveAll {s0 s : State}  (hE : Ev s0 s)  : Ev s0 (serveAll s) := by
  unfold serveAll
  repeat' (first | with_reducible assumption | with_reducible apply ev_grantReqs)

theorem ev_hostPacket {s0 s : State} {p : Nat} {seq : BitVec 12} {r : HReq} (hE : Ev s0 s)  : Ev s0 (hostPacket p seq r s) := by
  unfold hostPacket
  repeat' (first | with_reducible assumption | with_reducible apply ev_onPacket | with_reducible apply ev_serveAll)

end Sys2Proof.Machine
end

