-- ==== Sys2Proof/Laws/EvolveTicks.lean ====
section
/-! SUPPORT. Evolve: the operations of Machine/Ticks.lean keep what Ev says. -/
set_option linter.unusedVariables false
namespace Sys2Proof.Machine
variable {s0 s : State}
theorem ev_takeUtil {s0 s : State}  (hE : Ev s0 s)  : Ev s0 (takeUtil s) := by
  unfold takeUtil
  repeat' (first | with_reducible assumption | with_reducible apply ev_foldl | with_reducible apply ev_foldl_snd | intro _ | extract_lets | split | fail_if_no_progress (with_reducible apply ev_mk))

theorem ev_wakeDue {s0 s : State} {t : Tick} (hE : Ev s0 s)  : Ev s0 (wakeDue t s) := by
  unfold wakeDue
  repeat' (first | with_reducible assumption | with_reducible apply ev_wakeBy | intro _ | extract_lets | split)

theorem ev_commitAct {s0 s : State}  (hE : Ev s0 s)  : Ev s0 (commitAct s) := by
  unfold commitAct
  repeat' (first | with_reducible assumption | with_reducible apply ev_tally | with_reducible apply ev_State_onTime | with_reducible apply ev_advanceTo | with_reducible apply ev_sampleTick | with_reducible apply ev_applyDue | with_reducible apply ev_wakeDue | intro _ | extract_lets | split)

theorem ev_pulseTime {s0 s : State}  (hE : Ev s0 s)  : Ev s0 (pulseTime s) := by
  unfold pulseTime
  repeat' (first | with_reducible assumption | with_reducible apply ev_forEach | with_reducible apply ev_State_onLane | intro _)

theorem ev_loadTime {s0 s : State}  (hE : Ev s0 s)  : Ev s0 (loadTime s) := by
  unfold loadTime
  repeat' (first | with_reducible assumption | with_reducible apply ev_forEach | with_reducible apply ev_State_onLane | with_reducible apply ev_feLoad | intro _ | extract_lets | split)

theorem ev_pulseAct {s0 s : State}  (hE : Ev s0 s)  : Ev s0 (pulseAct s) := by
  unfold pulseAct
  repeat' (first | with_reducible assumption | with_reducible apply ev_tally | with_reducible apply ev_newInterval | with_reducible apply ev_pwmAlign | with_reducible apply ev_State_onTime | with_reducible apply ev_advanceTo | with_reducible apply ev_sampleTick | intro _ | with_reducible apply ev_takeUtil | with_reducible apply ev_pulseTime | with_reducible apply ev_loadTime | intro _ | extract_lets | split)

end Sys2Proof.Machine
end

