-- ==== Sys2Proof/Laws/EvolveUpset.lean ====
section
/-! SUPPORT. Evolve: the operations of Machine/Upset.lean keep what Ev says. -/
set_option linter.unusedVariables false
namespace Sys2Proof.Machine
variable {s0 s : State}
theorem ev_upsetFrame {s0 s : State} {f : Nat} {b : Nat} (hE : Ev s0 s)  : Ev s0 (upsetFrame f b s) := by
  unfold upsetFrame
  repeat' (first | with_reducible assumption | with_reducible apply ev_settleRunning | with_reducible apply ev_State_setCfg | intro _ | extract_lets | split | fail_if_no_progress (with_reducible apply ev_mk) | with_reducible apply ev_ite)

theorem ev_upsetReel {s0 s : State} {w : Nat} {b : Nat} (hE : Ev s0 s)  : Ev s0 (upsetReel w b s) := by
  unfold upsetReel
  repeat' (first | with_reducible assumption | with_reducible apply ev_State_putBytes | with_reducible apply ev_State_onMem | intro _ | extract_lets | split)

theorem ev_upsetRam {s0 s : State} {t : Nat} {w : Nat} {b : Nat} (hE : Ev s0 s)  : Ev s0 (upsetRam t w b s) := by
  unfold upsetRam
  repeat' (first | with_reducible assumption | with_reducible apply ev_State_onTile)

theorem ev_upsetTriple {s0 s : State} {i : Nat} {c : Nat} {b : Nat} (hE : Ev s0 s)  : Ev s0 (upsetTriple i c b s) := by
  unfold upsetTriple
  repeat' (first | with_reducible assumption | with_reducible apply ev_State_setTriple)

theorem ev_upsetDiff {s0 s : State} {p : Nat} {k : Nat} {wr : Bool} {b : Nat} (hE : Ev s0 s)  : Ev s0 (upsetDiff p k wr b s) := by
  unfold upsetDiff
  repeat' (first | with_reducible assumption | with_reducible apply ev_State_onPort)

theorem ev_upsetPtr {s0 s : State} {cls : Nat} {i : Nat} {wr : Bool} {b : Nat} (hE : Ev s0 s)  : Ev s0 (upsetPtr cls i wr b s) := by
  unfold upsetPtr
  repeat' (first | with_reducible assumption | with_reducible apply ev_State_setBank | with_reducible apply ev_State_setLane | with_reducible apply ev_State_setTileQ | with_reducible apply ev_State_setChan | with_reducible apply ev_State_setQd | with_reducible apply ev_State_onPort | intro _ | with_reducible apply ev_upsetDiff | intro _ | extract_lets | split)

theorem ev_upsetAct {s0 s : State} {u : UpsetAt} (hE : Ev s0 s)  : Ev s0 (upsetAct u s) := by
  unfold upsetAct
  repeat' (first | with_reducible assumption | with_reducible apply ev_upsetFrame | with_reducible apply ev_upsetReel | with_reducible apply ev_upsetRam | with_reducible apply ev_upsetTriple | with_reducible apply ev_upsetPtr | intro _ | extract_lets | split)

end Sys2Proof.Machine
end

