-- ==== Sys2Proof/Laws/EvolveExec.lean ====
section
/-! SUPPORT. Evolve: one lemma per command: it ends in a next state that keeps what Ev says. -/
set_option linter.unusedVariables false
namespace Sys2Proof.Machine
theorem execFunctionCellEvaluate_evolves (tile : Fin 4096) (cell : Fin 64) (s : State) : ∃ t, execFunctionCellEvaluate tile cell s = .next t ∧ Ev s t :=
  ⟨_, rfl, ev_evalCell (Ev.refl s)⟩

theorem execMergeForward_evolves (tile : Fin 4096) (cell : Fin 64) (s : State) : ∃ t, execMergeForward tile cell s = .next t ∧ Ev s t :=
  ⟨_, rfl, ev_mergeCell (Ev.refl s)⟩

theorem execArbiterGrant_evolves (tile : Fin 4096) (cell : Fin 64) (tie : Bool) (s : State) : ∃ t, execArbiterGrant tile cell tie s = .next t ∧ Ev s t :=
  ⟨_, rfl, ev_arbCell (Ev.refl s)⟩

theorem execSourceRefill_evolves (tile : Fin 4096) (cell : Fin 64) (s : State) : ∃ t, execSourceRefill tile cell s = .next t ∧ Ev s t :=
  ⟨_, rfl, ev_refillCell (Ev.refl s)⟩

theorem execSinkAcknowledge_evolves (tile : Fin 4096) (cell : Fin 64) (s : State) : ∃ t, execSinkAcknowledge tile cell s = .next t ∧ Ev s t :=
  ⟨_, rfl, ev_sinkCell (Ev.refl s)⟩

theorem execConstantSelectRepeat_evolves (tile : Fin 4096) (sink : Fin 544) (s : State) : ∃ t, execConstantSelectRepeat tile sink s = .next t ∧ Ev s t :=
  ⟨_, rfl, ev_repeatConst (Ev.refl s)⟩

theorem execRailError_evolves (tile : Fin 4096) (sink : Fin 544) (s : State) : ∃ t, execRailError tile sink s = .next t ∧ Ev s t :=
  ⟨_, rfl, ev_railFault (Ev.refl s)⟩

theorem execRamPortOperation_evolves (tile : Fin 4096) (portB : Bool) (met : Bool) (s : State) : ∃ t, execRamPortOperation tile portB met s = .next t ∧ Ev s t :=
  ⟨_, rfl, ev_ramPort (Ev.refl s)⟩

theorem execMacOperation_evolves (tile : Fin 4096) (unit : Fin 2) (s : State) : ∃ t, execMacOperation tile unit s = .next t ∧ Ev s t :=
  ⟨_, rfl, ev_macUnit (Ev.refl s)⟩

theorem execQueuePop_evolves (tile : Fin 4096) (q : Fin 2) (s : State) : ∃ t, execQueuePop tile q s = .next t ∧ Ev s t :=
  ⟨_, rfl, ev_popTileQ (Ev.refl s)⟩

theorem execQueuePush_evolves (tile : Fin 4096) (q : Fin 2) (s : State) : ∃ t, execQueuePush tile q s = .next t ∧ Ev s t :=
  ⟨_, rfl, ev_pushTileQ (Ev.refl s)⟩

theorem execPacketInjection_evolves (router : Fin 4096) (side : Fin 5) (vc : Bool) (dom : Fin 4) (s : State) : ∃ t, execPacketInjection router side vc dom s = .next t ∧ Ev s t :=
  ⟨_, rfl, ev_inject (Ev.refl s)⟩

theorem execHoldQueueForward_evolves (router : Fin 4096) (side : Fin 5) (dom : Fin 4) (s : State) : ∃ t, execHoldQueueForward router side dom s = .next t ∧ Ev s t :=
  ⟨_, rfl, ev_forwardHeld (Ev.refl s)⟩

theorem execFlitAdvance_evolves (router : Fin 4096) (out : Fin 5) (s : State) : ∃ t, execFlitAdvance router out s = .next t ∧ Ev s t :=
  ⟨_, rfl, ev_advance (Ev.refl s)⟩

theorem execBundleEntryTaken_evolves (router : Fin 4096) (side : Fin 5) (s : State) : ∃ t, execBundleEntryTaken router side s = .next t ∧ Ev s t :=
  ⟨_, rfl, ev_takeEntry (Ev.refl s)⟩

theorem execRxDelivery_evolves (tile : Fin 4096) (s : State) : ∃ t, execRxDelivery tile s = .next t ∧ Ev s t :=
  ⟨_, rfl, ev_deliver (Ev.refl s)⟩

theorem execPlyTxPacket_evolves (tile : Fin 4096) (s : State) : ∃ t, execPlyTxPacket tile s = .next t ∧ Ev s t :=
  ⟨_, rfl, ev_txWord (Ev.refl s)⟩

theorem execTileRamWindowRead_evolves (tile : Fin 4096) (met : Bool) (s : State) : ∃ t, execTileRamWindowRead tile met s = .next t ∧ Ev s t :=
  ⟨_, rfl, ev_winRead (Ev.refl s)⟩

theorem execTileRamWindowWrite_evolves (tile : Fin 4096) (met : Bool) (s : State) : ∃ t, execTileRamWindowWrite tile met s = .next t ∧ Ev s t :=
  ⟨_, rfl, ev_winWrite (Ev.refl s)⟩

theorem execCorrectedWriteBack_evolves (g : Fin 16) (bank : Fin 16) (s : State) : ∃ t, execCorrectedWriteBack g bank s = .next t ∧ Ev s t :=
  ⟨_, rfl, ev_writeBack (Ev.refl s)⟩

theorem execMemGatewayRd_evolves (g : Fin 16) (k : Fin 4) (s : State) : ∃ t, execMemGatewayRd g k s = .next t ∧ Ev s t := by
  have hE := Ev.refl s
  refine ⟨_, rfl, ?_⟩
  repeat' (first | with_reducible assumption | with_reducible apply ev_gatewayOp)

theorem execMemGatewayWr_evolves (g : Fin 16) (k : Fin 4) (s : State) : ∃ t, execMemGatewayWr g k s = .next t ∧ Ev s t := by
  have hE := Ev.refl s
  refine ⟨_, rfl, ?_⟩
  repeat' (first | with_reducible assumption | with_reducible apply ev_gatewayOp)

theorem execMemGatewaySet_evolves (g : Fin 16) (k : Fin 4) (s : State) : ∃ t, execMemGatewaySet g k s = .next t ∧ Ev s t := by
  have hE := Ev.refl s
  refine ⟨_, rfl, ?_⟩
  repeat' (first | with_reducible assumption | with_reducible apply ev_gatewayOp)

theorem execMemGatewayClr_evolves (g : Fin 16) (k : Fin 4) (s : State) : ∃ t, execMemGatewayClr g k s = .next t ∧ Ev s t := by
  have hE := Ev.refl s
  refine ⟨_, rfl, ?_⟩
  repeat' (first | with_reducible assumption | with_reducible apply ev_gatewayOp)

theorem execMemoryInitDone_evolves  (s : State) : ∃ t, execMemoryInitDone s = .next t ∧ Ev s t :=
  ⟨_, rfl, ev_initDone (Ev.refl s)⟩

theorem execRegionTestStart_evolves  (s : State) : ∃ t, execRegionTestStart s = .next t ∧ Ev s t :=
  ⟨_, rfl, ev_bgStart (Ev.refl s)⟩

theorem execRegionTestEnd_evolves (fail : Bool) (s : State) : ∃ t, execRegionTestEnd fail s = .next t ∧ Ev s t :=
  ⟨_, rfl, ev_regionEnd (Ev.refl s)⟩

theorem execBankTestRegionTimer_evolves  (s : State) : ∃ t, execBankTestRegionTimer s = .next t ∧ Ev s t :=
  ⟨_, rfl, ev_bankTestNext (Ev.refl s)⟩

theorem execGroupWakeDone_evolves (g : Fin 16) (s : State) : ∃ t, execGroupWakeDone g s = .next t ∧ Ev s t :=
  ⟨_, rfl, ev_groupWake (Ev.refl s)⟩

theorem execGroupIdleTimeout_evolves (g : Fin 16) (s : State) : ∃ t, execGroupIdleTimeout g s = .next t ∧ Ev s t :=
  ⟨_, rfl, ev_groupSleep (Ev.refl s)⟩

theorem execMigrationDecision_evolves  (s : State) : ∃ t, execMigrationDecision s = .next t ∧ Ev s t :=
  ⟨_, rfl, ev_decide1 (Ev.refl s)⟩

theorem execInstanceQuiescent_evolves  (s : State) : ∃ t, execInstanceQuiescent s = .next t ∧ Ev s t :=
  ⟨_, rfl, ev_beginCopy (Ev.refl s)⟩

theorem execQuiescenceTimeout_evolves  (s : State) : ∃ t, execQuiescenceTimeout s = .next t ∧ Ev s t :=
  ⟨_, rfl, ev_quiesceTimeout (Ev.refl s)⟩

theorem execMigrationCopyDone_evolves (badTile : Option (Fin 16)) (s : State) : ∃ t, execMigrationCopyDone badTile s = .next t ∧ Ev s t :=
  ⟨_, rfl, ev_copyDone (Ev.refl s)⟩

theorem execSourceTilesCleared_evolves  (s : State) : ∃ t, execSourceTilesCleared s = .next t ∧ Ev s t :=
  ⟨_, rfl, ev_sourcesCleared (Ev.refl s)⟩

theorem execEvacuationCapRelease_evolves  (s : State) : ∃ t, execEvacuationCapRelease s = .next t ∧ Ev s t :=
  ⟨_, rfl, ev_serveFailing (Ev.refl s)⟩

theorem execPolicyEvaluation_evolves (temps : List Byte) (s : State) : ∃ t, execPolicyEvaluation temps s = .next t ∧ Ev s t :=
  ⟨_, rfl, ev_evaluate (Ev.refl s)⟩

theorem execPin_evolves (port : Fin 4) (inst : BitVec 12) (s : State) : ∃ t, execPin port inst s = .next t ∧ Ev s t := by
  have hE := Ev.refl s
  refine ⟨_, rfl, ?_⟩
  repeat' (first | with_reducible assumption | with_reducible apply ev_served | with_reducible apply ev_dstPin | intro _)

theorem execUnpin_evolves (port : Fin 4) (inst : BitVec 12) (s : State) : ∃ t, execUnpin port inst s = .next t ∧ Ev s t := by
  have hE := Ev.refl s
  refine ⟨_, rfl, ?_⟩
  repeat' (first | with_reducible assumption | with_reducible apply ev_served | with_reducible apply ev_dstPin | intro _)

theorem execMigrate_evolves (port : Fin 4) (inst : BitVec 12) (s : State) : ∃ t, execMigrate port inst s = .next t ∧ Ev s t := by
  have hE := Ev.refl s
  refine ⟨_, rfl, ?_⟩
  repeat' (first | with_reducible assumption | with_reducible apply ev_served | with_reducible apply ev_dstMigrate | intro _)

theorem execRetireTile_evolves (port : Fin 4) (s : State) : ∃ t, execRetireTile port s = .next t ∧ Ev s t := by
  have hE := Ev.refl s
  refine ⟨_, rfl, ?_⟩
  repeat' (first | with_reducible assumption | with_reducible apply ev_served | with_reducible apply ev_dstRetire | intro _)

theorem execUnretire_evolves (port : Fin 4) (s : State) : ∃ t, execUnretire port s = .next t ∧ Ev s t := by
  have hE := Ev.refl s
  refine ⟨_, rfl, ?_⟩
  repeat' (first | with_reducible assumption | with_reducible apply ev_served | with_reducible apply ev_dstUnretire | intro _)

theorem execEdgeCollision_evolves (tile : Fin 4096) (east : Bool) (wire : Fin 8) (s : State) : ∃ t, execEdgeCollision tile east wire s = .next t ∧ Ev s t :=
  ⟨_, rfl, ev_collide (Ev.refl s)⟩

theorem execSpoolWrite_evolves (writer : Fin 64) (s : State) : ∃ t, execSpoolWrite writer s = .next t ∧ Ev s t :=
  ⟨_, rfl, ev_spoolWrite (Ev.refl s)⟩

theorem execLaneWriterTimeout_evolves (spool : Fin 2112) (s : State) : ∃ t, execLaneWriterTimeout spool s = .next t ∧ Ev s t :=
  ⟨_, rfl, ev_writerTimeout (Ev.refl s)⟩

theorem execReelWordAccess_evolves (g : Fin 16) (bank : Fin 16) (s : State) : ∃ t, execReelWordAccess g bank s = .next t ∧ Ev s t :=
  ⟨_, rfl, ev_wordAccess (Ev.refl s)⟩

theorem execHeaderBlock_evolves (lane : Fin 64) (payload : DWord) (s : State) : ∃ t, execHeaderBlock lane payload s = .next t ∧ Ev s t :=
  ⟨_, rfl, ev_headerBlk (Ev.refl s)⟩

theorem execEventBlock_evolves (lane : Fin 64) (payload : DWord) (s : State) : ∃ t, execEventBlock lane payload s = .next t ∧ Ev s t :=
  ⟨_, rfl, ev_eventBlk (Ev.refl s)⟩

theorem execGapBlock_evolves (lane : Fin 64) (payload : DWord) (s : State) : ∃ t, execGapBlock lane payload s = .next t ∧ Ev s t :=
  ⟨_, rfl, ev_gapBlk (Ev.refl s)⟩

theorem execTrainBlock_evolves (lane : Fin 64) (payload : DWord) (s : State) : ∃ t, execTrainBlock lane payload s = .next t ∧ Ev s t :=
  ⟨_, rfl, ev_trainBlk (Ev.refl s)⟩

theorem execIdleBlock_evolves (lane : Fin 64) (payload : DWord) (s : State) : ∃ t, execIdleBlock lane payload s = .next t ∧ Ev s t :=
  ⟨_, rfl, ev_idleBlk (Ev.refl s)⟩

theorem execBlockError_evolves (lane : Fin 64) (sync : BitVec 2) (payload : DWord) (s : State) : ∃ t, execBlockError lane sync payload s = .next t ∧ Ev s t :=
  ⟨_, rfl, ev_errorBlk (Ev.refl s)⟩

theorem execBlockLock_evolves (lane : Fin 64) (s : State) : ∃ t, execBlockLock lane s = .next t ∧ Ev s t :=
  ⟨_, rfl, ev_gainLock (Ev.refl s)⟩

theorem execLockLost_evolves (lane : Fin 64) (silent : Fin 65) (s : State) : ∃ t, execLockLost lane silent s = .next t ∧ Ev s t :=
  ⟨_, rfl, ev_lockLost (Ev.refl s)⟩

theorem execSyncLost_evolves (lane : Fin 64) (s : State) : ∃ t, execSyncLost lane s = .next t ∧ Ev s t :=
  ⟨_, rfl, ev_syncGone (Ev.refl s)⟩

theorem execLaneGatewaySend_evolves (lane : Fin 64) (s : State) : ∃ t, execLaneGatewaySend lane s = .next t ∧ Ev s t :=
  ⟨_, rfl, ev_laneSend (Ev.refl s)⟩

theorem execTrainingAttemptStart_evolves  (s : State) : ∃ t, execTrainingAttemptStart s = .next t ∧ Ev s t :=
  ⟨_, rfl, ev_nextTraining (Ev.refl s)⟩

theorem execTrainingStepDone_evolves (feId : Word) (feVersion : Word) (s : State) : ∃ t, execTrainingStepDone feId feVersion s = .next t ∧ Ev s t :=
  ⟨_, rfl, ev_stepDone (Ev.refl s)⟩

theorem execTrainingStepLate_evolves (check : Option (Word × Word)) (s : State) : ∃ t, execTrainingStepLate check s = .next t ∧ Ev s t :=
  ⟨_, rfl, ev_stepLate (Ev.refl s)⟩

theorem execEyeSample_evolves (lane : Fin 64) (height : Byte) (width : Byte) (s : State) : ∃ t, execEyeSample lane height width s = .next t ∧ Ev s t :=
  ⟨_, rfl, ev_eyeSample (Ev.refl s)⟩

theorem execLaneEnable_evolves (port : Fin 4) (lane : Fin 64) (s : State) : ∃ t, execLaneEnable port lane s = .next t ∧ Ev s t := by
  have hE := Ev.refl s
  refine ⟨_, rfl, ?_⟩
  repeat' (first | with_reducible assumption | with_reducible apply ev_served | with_reducible apply ev_cmdEnable | intro _)

theorem execLaneDisable_evolves (port : Fin 4) (lane : Fin 64) (s : State) : ∃ t, execLaneDisable port lane s = .next t ∧ Ev s t := by
  have hE := Ev.refl s
  refine ⟨_, rfl, ?_⟩
  repeat' (first | with_reducible assumption | with_reducible apply ev_served | with_reducible apply ev_cmdDisable | intro _)

theorem execLaneRetrain_evolves (port : Fin 4) (lane : Fin 64) (s : State) : ∃ t, execLaneRetrain port lane s = .next t ∧ Ev s t := by
  have hE := Ev.refl s
  refine ⟨_, rfl, ?_⟩
  repeat' (first | with_reducible assumption | with_reducible apply ev_served | with_reducible apply ev_cmdRetrain | intro _)

theorem execLaneIslandReset_evolves (port : Fin 4) (lane : Fin 64) (s : State) : ∃ t, execLaneIslandReset port lane s = .next t ∧ Ev s t := by
  have hE := Ev.refl s
  refine ⟨_, rfl, ?_⟩
  repeat' (first | with_reducible assumption | with_reducible apply ev_served | with_reducible apply ev_cmdIslandReset | intro _)

theorem execLaneResetEnd_evolves (lane : Fin 64) (s : State) : ∃ t, execLaneResetEnd lane s = .next t ∧ Ev s t :=
  ⟨_, rfl, ev_laneResetEnd (Ev.refl s)⟩

theorem execFeRead_evolves (port : Fin 4) (lane : Fin 64) (s : State) : ∃ t, execFeRead port lane s = .next t ∧ Ev s t := by
  have hE := Ev.refl s
  refine ⟨_, rfl, ?_⟩
  repeat' (first | with_reducible assumption | with_reducible apply ev_served | with_reducible apply ev_cmdFeRead | intro _)

theorem execFeWrite_evolves (port : Fin 4) (lane : Fin 64) (s : State) : ∃ t, execFeWrite port lane s = .next t ∧ Ev s t := by
  have hE := Ev.refl s
  refine ⟨_, rfl, ?_⟩
  repeat' (first | with_reducible assumption | with_reducible apply ev_served | with_reducible apply ev_cmdFeWrite | intro _)

theorem execLaneCmdComplete_evolves (port : Fin 4) (data : Word) (s : State) : ∃ t, execLaneCmdComplete port data s = .next t ∧ Ev s t :=
  ⟨_, rfl, ev_laneCmdEnd (Ev.refl s)⟩

theorem execLaneCfgWrite_evolves (port : Fin 4) (lane : Fin 64) (val : Word) (s : State) : ∃ t, execLaneCfgWrite port lane val s = .next t ∧ Ev s t := by
  have hE := Ev.refl s
  refine ⟨_, rfl, ?_⟩
  repeat' (first | with_reducible assumption | with_reducible apply ev_served | with_reducible apply ev_laneCfgWrite | intro _)

theorem execLaneChEnWrite_evolves (port : Fin 4) (lane : Fin 64) (val : Word) (s : State) : ∃ t, execLaneChEnWrite port lane val s = .next t ∧ Ev s t := by
  have hE := Ev.refl s
  refine ⟨_, rfl, ?_⟩
  repeat' (first | with_reducible assumption | with_reducible apply ev_served | with_reducible apply ev_laneChEnWrite | intro _)

theorem execLaneSubWrite_evolves (port : Fin 4) (ch : Fin 2048) (val : Word) (s : State) : ∃ t, execLaneSubWrite port ch val s = .next t ∧ Ev s t := by
  have hE := Ev.refl s
  refine ⟨_, rfl, ?_⟩
  repeat' (first | with_reducible assumption | with_reducible apply ev_served | with_reducible apply ev_laneSubWrite | intro _)

theorem execClrPeak_evolves (port : Fin 4) (ch : Fin 2048) (s : State) : ∃ t, execClrPeak port ch s = .next t ∧ Ev s t := by
  have hE := Ev.refl s
  refine ⟨_, rfl, ?_⟩
  repeat' (first | with_reducible assumption | with_reducible apply ev_served | with_reducible apply ev_clrPeak | intro _)

theorem execMtSweep_evolves  (s : State) : ∃ t, execMtSweep s = .next t ∧ Ev s t :=
  ⟨_, rfl, ev_mtSweep (Ev.refl s)⟩

theorem execMarkSet_evolves (src : SplSrc) (s : State) : ∃ t, execMarkSet src s = .next t ∧ Ev s t := by
  have hE := Ev.refl s
  refine ⟨_, rfl, ?_⟩
  repeat' (first | with_reducible assumption | with_reducible apply ev_splRun | with_reducible apply ev_markSet | intro _)

theorem execMarkClear_evolves (src : SplSrc) (s : State) : ∃ t, execMarkClear src s = .next t ∧ Ev s t := by
  have hE := Ev.refl s
  refine ⟨_, rfl, ?_⟩
  repeat' (first | with_reducible assumption | with_reducible apply ev_splRun | with_reducible apply ev_markClear | intro _)

theorem execMarkQuery_evolves (src : SplSrc) (s : State) : ∃ t, execMarkQuery src s = .next t ∧ Ev s t := by
  have hE := Ev.refl s
  refine ⟨_, rfl, ?_⟩
  repeat' (first | with_reducible assumption | with_reducible apply ev_splRun | with_reducible apply ev_markQuery | intro _)

theorem execSpoolQuery_evolves (src : SplSrc) (s : State) : ∃ t, execSpoolQuery src s = .next t ∧ Ev s t := by
  have hE := Ev.refl s
  refine ⟨_, rfl, ?_⟩
  repeat' (first | with_reducible assumption | with_reducible apply ev_splRun | with_reducible apply ev_spoolQuery | intro _)

theorem execMtInsert_evolves (src : SplSrc) (s : State) : ∃ t, execMtInsert src s = .next t ∧ Ev s t := by
  have hE := Ev.refl s
  refine ⟨_, rfl, ?_⟩
  repeat' (first | with_reducible assumption | with_reducible apply ev_splRun | with_reducible apply ev_mtInsert | intro _)

theorem execMtLookup_evolves (src : SplSrc) (s : State) : ∃ t, execMtLookup src s = .next t ∧ Ev s t := by
  have hE := Ev.refl s
  refine ⟨_, rfl, ?_⟩
  repeat' (first | with_reducible assumption | with_reducible apply ev_splRun | with_reducible apply ev_mtLookup | intro _)

theorem execMtDelete_evolves (src : SplSrc) (s : State) : ∃ t, execMtDelete src s = .next t ∧ Ev s t := by
  have hE := Ev.refl s
  refine ⟨_, rfl, ?_⟩
  repeat' (first | with_reducible assumption | with_reducible apply ev_splRun | with_reducible apply ev_mtDelete | intro _)

theorem execSlotStart_evolves (src : SplSrc) (s : State) : ∃ t, execSlotStart src s = .next t ∧ Ev s t := by
  have hE := Ev.refl s
  refine ⟨_, rfl, ?_⟩
  repeat' (first | with_reducible assumption | with_reducible apply ev_splRun | with_reducible apply ev_slotStart | intro _)

theorem execSlotStop_evolves (src : SplSrc) (s : State) : ∃ t, execSlotStop src s = .next t ∧ Ev s t := by
  have hE := Ev.refl s
  refine ⟨_, rfl, ?_⟩
  repeat' (first | with_reducible assumption | with_reducible apply ev_splRun | with_reducible apply ev_slotStop | intro _)

theorem execSlotQuery_evolves (src : SplSrc) (s : State) : ∃ t, execSlotQuery src s = .next t ∧ Ev s t := by
  have hE := Ev.refl s
  refine ⟨_, rfl, ?_⟩
  repeat' (first | with_reducible assumption | with_reducible apply ev_splRun | with_reducible apply ev_slotQuery | intro _)

theorem execSlotPacketSend_evolves (spool : Fin 2112) (slotB : Bool) (s : State) : ∃ t, execSlotPacketSend spool slotB s = .next t ∧ Ev s t :=
  ⟨_, rfl, ev_slotSend (Ev.refl s)⟩

theorem execSlotFlushTimeout_evolves (spool : Fin 2112) (slotB : Bool) (s : State) : ∃ t, execSlotFlushTimeout spool slotB s = .next t ∧ Ev s t :=
  ⟨_, rfl, ev_slotSend (Ev.refl s)⟩

theorem execExportStart_evolves (src : SplSrc) (s : State) : ∃ t, execExportStart src s = .next t ∧ Ev s t := by
  have hE := Ev.refl s
  refine ⟨_, rfl, ?_⟩
  repeat' (first | with_reducible assumption | with_reducible apply ev_splRun | with_reducible apply ev_exportStart | intro _)

theorem execExportStop_evolves (src : SplSrc) (s : State) : ∃ t, execExportStop src s = .next t ∧ Ev s t := by
  have hE := Ev.refl s
  refine ⟨_, rfl, ?_⟩
  repeat' (first | with_reducible assumption | with_reducible apply ev_splRun | with_reducible apply ev_exportStop | intro _)

theorem execResize_evolves (src : SplSrc) (s : State) : ∃ t, execResize src s = .next t ∧ Ev s t := by
  have hE := Ev.refl s
  refine ⟨_, rfl, ?_⟩
  repeat' (first | with_reducible assumption | with_reducible apply ev_splRun | with_reducible apply ev_resizeCmd | intro _)

theorem execSpoolClose_evolves (spool : Fin 2112) (s : State) : ∃ t, execSpoolClose spool s = .next t ∧ Ev s t :=
  ⟨_, rfl, ev_spoolClose (Ev.refl s)⟩

theorem execSplWptrRead_evolves (port : Fin 4) (spool : Fin 2112) (s : State) : ∃ t, execSplWptrRead port spool s = .next t ∧ Ev s t := by
  have hE := Ev.refl s
  refine ⟨_, rfl, ?_⟩
  repeat' (first | with_reducible assumption | with_reducible apply ev_servedRead | with_reducible apply ev_wptrRead | intro _)

theorem execSplLiveRead_evolves (port : Fin 4) (spool : Fin 2112) (s : State) : ∃ t, execSplLiveRead port spool s = .next t ∧ Ev s t := by
  have hE := Ev.refl s
  refine ⟨_, rfl, ?_⟩
  repeat' (first | with_reducible assumption | with_reducible apply ev_servedRead | with_reducible apply ev_liveRead | intro _)

theorem execPinLevelAccept_evolves (pin : Fin 384) (level : Bool) (s : State) : ∃ t, execPinLevelAccept pin level s = .next t ∧ Ev s t :=
  ⟨_, rfl, ev_acceptLevel (Ev.refl s)⟩

theorem execFunctionSwitch_evolves (port : Fin 4) (pin : Fin 384) (val : Word) (s : State) : ∃ t, execFunctionSwitch port pin val s = .next t ∧ Ev s t := by
  have hE := Ev.refl s
  refine ⟨_, rfl, ?_⟩
  repeat' (first | with_reducible assumption | with_reducible apply ev_served | with_reducible apply ev_pinCfgWrite | intro _)

theorem execPinBankCfgWrite_evolves (port : Fin 4) (b : Fin 8) (val : Word) (s : State) : ∃ t, execPinBankCfgWrite port b val s = .next t ∧ Ev s t := by
  have hE := Ev.refl s
  refine ⟨_, rfl, ?_⟩
  repeat' (first | with_reducible assumption | with_reducible apply ev_served | with_reducible apply ev_bankCfgWrite | intro _)

theorem execViobFault_evolves (b : Fin 8) (s : State) : ∃ t, execViobFault b s = .next t ∧ Ev s t :=
  ⟨_, rfl, ev_viobLost (Ev.refl s)⟩

theorem execViobRestore_evolves (b : Fin 8) (s : State) : ∃ t, execViobRestore b s = .next t ∧ Ev s t :=
  ⟨_, rfl, ev_viobBack (Ev.refl s)⟩

theorem execPinEvtWrite_evolves (port : Fin 4) (pin : Fin 384) (val : Word) (s : State) : ∃ t, execPinEvtWrite port pin val s = .next t ∧ Ev s t := by
  have hE := Ev.refl s
  refine ⟨_, rfl, ?_⟩
  repeat' (first | with_reducible assumption | with_reducible apply ev_served | with_reducible apply ev_pinEvtWrite | intro _)

theorem execPinArm_evolves (port : Fin 4) (pin : Fin 384) (s : State) : ∃ t, execPinArm port pin s = .next t ∧ Ev s t := by
  have hE := Ev.refl s
  refine ⟨_, rfl, ?_⟩
  repeat' (first | with_reducible assumption | with_reducible apply ev_served | with_reducible apply ev_pinArm | intro _)

theorem execPinPendClear_evolves (port : Fin 4) (b : Fin 8) (hi : Bool) (val : Word) (s : State) : ∃ t, execPinPendClear port b hi val s = .next t ∧ Ev s t := by
  have hE := Ev.refl s
  refine ⟨_, rfl, ?_⟩
  repeat' (first | with_reducible assumption | with_reducible apply ev_served | with_reducible apply ev_pendClear | intro _)

theorem execPinOutWrite_evolves (port : Fin 4) (b : Fin 8) (hi : Bool) (val : Word) (s : State) : ∃ t, execPinOutWrite port b hi val s = .next t ∧ Ev s t := by
  have hE := Ev.refl s
  refine ⟨_, rfl, ?_⟩
  repeat' (first | with_reducible assumption | with_reducible apply ev_served | with_reducible apply ev_pinOutWrite | intro _)

theorem execPinSet_evolves (port : Fin 4) (b : Fin 8) (hi : Bool) (val : Word) (s : State) : ∃ t, execPinSet port b hi val s = .next t ∧ Ev s t := by
  have hE := Ev.refl s
  refine ⟨_, rfl, ?_⟩
  repeat' (first | with_reducible assumption | with_reducible apply ev_served | with_reducible apply ev_pinSetBits | intro _)

theorem execPinClr_evolves (port : Fin 4) (b : Fin 8) (hi : Bool) (val : Word) (s : State) : ∃ t, execPinClr port b hi val s = .next t ∧ Ev s t := by
  have hE := Ev.refl s
  refine ⟨_, rfl, ?_⟩
  repeat' (first | with_reducible assumption | with_reducible apply ev_served | with_reducible apply ev_pinClrBits | intro _)

theorem execPinTgl_evolves (port : Fin 4) (b : Fin 8) (hi : Bool) (val : Word) (s : State) : ∃ t, execPinTgl port b hi val s = .next t ∧ Ev s t := by
  have hE := Ev.refl s
  refine ⟨_, rfl, ?_⟩
  repeat' (first | with_reducible assumption | with_reducible apply ev_served | with_reducible apply ev_pinTglBits | intro _)

theorem execPinDirWrite_evolves (port : Fin 4) (b : Fin 8) (hi : Bool) (val : Word) (s : State) : ∃ t, execPinDirWrite port b hi val s = .next t ∧ Ev s t := by
  have hE := Ev.refl s
  refine ⟨_, rfl, ?_⟩
  repeat' (first | with_reducible assumption | with_reducible apply ev_served | with_reducible apply ev_pinDirWrite | intro _)

theorem execPinEventSend_evolves (pin : Fin 384) (s : State) : ∃ t, execPinEventSend pin s = .next t ∧ Ev s t :=
  ⟨_, rfl, ev_pinSend (Ev.refl s)⟩

theorem execPulseArrival_evolves (x : XId) (s : State) : ∃ t, execPulseArrival x s = .next t ∧ Ev s t :=
  ⟨_, rfl, ev_pulseArrive (Ev.refl s)⟩

theorem execPulseDeliveryDone_evolves (x : XId) (s : State) : ∃ t, execPulseDeliveryDone x s = .next t ∧ Ev s t :=
  ⟨_, rfl, ev_pulseComplete (Ev.refl s)⟩

theorem execPwmPeriodBoundary_evolves (c : Fin 16) (s : State) : ∃ t, execPwmPeriodBoundary c s = .next t ∧ Ev s t :=
  ⟨_, rfl, ev_pwmBoundary (Ev.refl s)⟩

theorem execPwmCfgWrite_evolves (port : Fin 4) (c : Fin 16) (val : Word) (s : State) : ∃ t, execPwmCfgWrite port c val s = .next t ∧ Ev s t := by
  have hE := Ev.refl s
  refine ⟨_, rfl, ?_⟩
  repeat' (first | with_reducible assumption | with_reducible apply ev_served | with_reducible apply ev_pwmCfgWrite | intro _)

theorem execPwmDutyWrite_evolves (port : Fin 4) (c : Fin 16) (val : Word) (s : State) : ∃ t, execPwmDutyWrite port c val s = .next t ∧ Ev s t := by
  have hE := Ev.refl s
  refine ⟨_, rfl, ?_⟩
  repeat' (first | with_reducible assumption | with_reducible apply ev_served | with_reducible apply ev_pwmDutyWrite | intro _)

theorem execPwmPeriodWrite_evolves (port : Fin 4) (c : Fin 16) (val : Word) (s : State) : ∃ t, execPwmPeriodWrite port c val s = .next t ∧ Ev s t := by
  have hE := Ev.refl s
  refine ⟨_, rfl, ?_⟩
  repeat' (first | with_reducible assumption | with_reducible apply ev_served | with_reducible apply ev_pwmPeriodWrite | intro _)

theorem execSpiTransferStart_evolves (port : Fin 4) (u : Fin 8) (val : Word) (s : State) : ∃ t, execSpiTransferStart port u val s = .next t ∧ Ev s t := by
  have hE := Ev.refl s
  refine ⟨_, rfl, ?_⟩
  repeat' (first | with_reducible assumption | with_reducible apply ev_served | with_reducible apply ev_spiCmd | intro _)

theorem execSpiTransferEnd_evolves (u : Fin 8) (rx : List Byte) (s : State) : ∃ t, execSpiTransferEnd u rx s = .next t ∧ Ev s t :=
  ⟨_, rfl, ev_spiEnd (Ev.refl s)⟩

theorem execI2cTransferStart_evolves (port : Fin 4) (u : Fin 4) (val : Word) (s : State) : ∃ t, execI2cTransferStart port u val s = .next t ∧ Ev s t := by
  have hE := Ev.refl s
  refine ⟨_, rfl, ?_⟩
  repeat' (first | with_reducible assumption | with_reducible apply ev_served | with_reducible apply ev_i2cCmd | intro _)

theorem execI2cTransferEnd_evolves (u : Fin 4) (cause : BitVec 4) (xferred : BitVec 6) (rx : List Byte) (s : State) : ∃ t, execI2cTransferEnd u cause xferred rx s = .next t ∧ Ev s t :=
  ⟨_, rfl, ev_i2cFinish (Ev.refl s)⟩

theorem execStretchTimeout_evolves (u : Fin 4) (xferred : BitVec 6) (s : State) : ∃ t, execStretchTimeout u xferred s = .next t ∧ Ev s t :=
  ⟨_, rfl, ev_stretchEnd (Ev.refl s)⟩

theorem execGatewayPinsRead_evolves (b : Fin 8) (dom : Fin 4) (s : State) : ∃ t, execGatewayPinsRead b dom s = .next t ∧ Ev s t :=
  ⟨_, rfl, ev_gwPinsRead (Ev.refl s)⟩

theorem execGatewayPinsWrite_evolves (b : Fin 8) (dom : Fin 4) (s : State) : ∃ t, execGatewayPinsWrite b dom s = .next t ∧ Ev s t :=
  ⟨_, rfl, ev_gwPinsWrite (Ev.refl s)⟩

theorem execGatewayOeRead_evolves (b : Fin 8) (dom : Fin 4) (s : State) : ∃ t, execGatewayOeRead b dom s = .next t ∧ Ev s t :=
  ⟨_, rfl, ev_gwOeRead (Ev.refl s)⟩

theorem execGatewayOeWrite_evolves (b : Fin 8) (dom : Fin 4) (s : State) : ∃ t, execGatewayOeWrite b dom s = .next t ∧ Ev s t :=
  ⟨_, rfl, ev_gwOeWrite (Ev.refl s)⟩

theorem execGatewayRearm_evolves (b : Fin 8) (dom : Fin 4) (s : State) : ∃ t, execGatewayRearm b dom s = .next t ∧ Ev s t :=
  ⟨_, rfl, ev_gwRearm (Ev.refl s)⟩

theorem execGatewayPwmRead_evolves (b : Fin 8) (dom : Fin 4) (s : State) : ∃ t, execGatewayPwmRead b dom s = .next t ∧ Ev s t :=
  ⟨_, rfl, ev_gwPwmRead (Ev.refl s)⟩

theorem execGatewayPwmWrite_evolves (b : Fin 8) (dom : Fin 4) (s : State) : ∃ t, execGatewayPwmWrite b dom s = .next t ∧ Ev s t :=
  ⟨_, rfl, ev_gwPwmWrite (Ev.refl s)⟩

theorem execGatewaySpiRead_evolves (b : Fin 8) (dom : Fin 4) (s : State) : ∃ t, execGatewaySpiRead b dom s = .next t ∧ Ev s t :=
  ⟨_, rfl, ev_gwSpiRead (Ev.refl s)⟩

theorem execGatewaySpiWrite_evolves (b : Fin 8) (dom : Fin 4) (s : State) : ∃ t, execGatewaySpiWrite b dom s = .next t ∧ Ev s t :=
  ⟨_, rfl, ev_gwSpiWrite (Ev.refl s)⟩

theorem execGatewayI2cRead_evolves (b : Fin 8) (dom : Fin 4) (s : State) : ∃ t, execGatewayI2cRead b dom s = .next t ∧ Ev s t :=
  ⟨_, rfl, ev_gwI2cRead (Ev.refl s)⟩

theorem execGatewayI2cWrite_evolves (b : Fin 8) (dom : Fin 4) (s : State) : ∃ t, execGatewayI2cWrite b dom s = .next t ∧ Ev s t :=
  ⟨_, rfl, ev_gwI2cWrite (Ev.refl s)⟩

theorem execTimebaseStart_evolves  (s : State) : ∃ t, execTimebaseStart s = .next t ∧ Ev s t :=
  ⟨_, rfl, ev_timeStart (Ev.refl s)⟩

theorem execTbrefStartTimeout_evolves  (s : State) : ∃ t, execTbrefStartTimeout s = .next t ∧ Ev s t :=
  ⟨_, rfl, ev_startTimeout (Ev.refl s)⟩

theorem execTbrefLost_evolves  (s : State) : ∃ t, execTbrefLost s = .next t ∧ Ev s t :=
  ⟨_, rfl, ev_tbrefGone (Ev.refl s)⟩

theorem execTbrefBack_evolves  (s : State) : ∃ t, execTbrefBack s = .next t ∧ Ev s t :=
  ⟨_, rfl, ev_tbrefFound (Ev.refl s)⟩

theorem execHoldoverEnd_evolves  (s : State) : ∃ t, execHoldoverEnd s = .next t ∧ Ev s t :=
  ⟨_, rfl, ev_holdEnd (Ev.refl s)⟩

theorem execWrapNear_evolves  (s : State) : ∃ t, execWrapNear s = .next t ∧ Ev s t :=
  ⟨_, rfl, ev_nearWrap (Ev.refl s)⟩

theorem execTimebaseWrap_evolves  (s : State) : ∃ t, execTimebaseWrap s = .next t ∧ Ev s t :=
  ⟨_, rfl, ev_wrap (Ev.refl s)⟩

theorem execTimebaseSnapshot_evolves  (s : State) : ∃ t, execTimebaseSnapshot s = .next t ∧ Ev s t :=
  ⟨_, rfl, ev_snapshot (Ev.refl s)⟩

theorem execTbsyncEnWrite_evolves (port : Fin 4) (val : Word) (s : State) : ∃ t, execTbsyncEnWrite port val s = .next t ∧ Ev s t := by
  have hE := Ev.refl s
  refine ⟨_, rfl, ?_⟩
  repeat' (first | with_reducible assumption | with_reducible apply ev_served | with_reducible apply ev_tbsyncWrite | intro _)

theorem execTimeNowRead_evolves (port : Fin 4) (s : State) : ∃ t, execTimeNowRead port s = .next t ∧ Ev s t := by
  have hE := Ev.refl s
  refine ⟨_, rfl, ?_⟩
  repeat' (first | with_reducible assumption | with_reducible apply ev_servedRead | with_reducible apply ev_nowRead | intro _)

theorem execQuadratureStep_evolves (q : Fin 16) (a : Bool) (b : Bool) (s : State) : ∃ t, execQuadratureStep q a b s = .next t ∧ Ev s t :=
  ⟨_, rfl, ev_quadrature (Ev.refl s)⟩

theorem execIndexEdge_evolves (q : Fin 16) (s : State) : ∃ t, execIndexEdge q s = .next t ∧ Ev s t :=
  ⟨_, rfl, ev_indexEdge (Ev.refl s)⟩

theorem execQdSample_evolves (port : Fin 4) (q : Fin 16) (s : State) : ∃ t, execQdSample port q s = .next t ∧ Ev s t := by
  have hE := Ev.refl s
  refine ⟨_, rfl, ?_⟩
  repeat' (first | with_reducible assumption | with_reducible apply ev_served | with_reducible apply ev_qdSample | intro _)

theorem execQdClear_evolves (port : Fin 4) (q : Fin 16) (s : State) : ∃ t, execQdClear port q s = .next t ∧ Ev s t := by
  have hE := Ev.refl s
  refine ⟨_, rfl, ?_⟩
  repeat' (first | with_reducible assumption | with_reducible apply ev_served | with_reducible apply ev_qdClear | intro _)

theorem execQdSampleSend_evolves (q : Fin 16) (s : State) : ∃ t, execQdSampleSend q s = .next t ∧ Ev s t :=
  ⟨_, rfl, ev_qdSend (Ev.refl s)⟩

theorem execQdCfgWrite_evolves (port : Fin 4) (q : Fin 16) (val : Word) (s : State) : ∃ t, execQdCfgWrite port q val s = .next t ∧ Ev s t := by
  have hE := Ev.refl s
  refine ⟨_, rfl, ?_⟩
  repeat' (first | with_reducible assumption | with_reducible apply ev_served | with_reducible apply ev_qdCfgWrite | intro _)

theorem execQdLastCntRead_evolves (port : Fin 4) (q : Fin 16) (s : State) : ∃ t, execQdLastCntRead port q s = .next t ∧ Ev s t := by
  have hE := Ev.refl s
  refine ⟨_, rfl, ?_⟩
  repeat' (first | with_reducible assumption | with_reducible apply ev_servedRead | with_reducible apply ev_qdLastRead | intro _)

theorem execSenseEdge_evolves (k : Fin 64) (rise : Bool) (time : Tick) (s : State) : ∃ t, execSenseEdge k rise time s = .next t ∧ Ev s t :=
  ⟨_, rfl, ev_senseEdge (Ev.refl s)⟩

theorem execFilterWindowClosed_evolves (k : Fin 64) (s : State) : ∃ t, execFilterWindowClosed k s = .next t ∧ Ev s t :=
  ⟨_, rfl, ev_windowClosed (Ev.refl s)⟩

theorem execSenseEventSend_evolves (k : Fin 64) (s : State) : ∃ t, execSenseEventSend k s = .next t ∧ Ev s t :=
  ⟨_, rfl, ev_senseSend (Ev.refl s)⟩

theorem execSenseSubWrite_evolves (port : Fin 4) (k : Fin 64) (val : Word) (s : State) : ∃ t, execSenseSubWrite port k val s = .next t ∧ Ev s t := by
  have hE := Ev.refl s
  refine ⟨_, rfl, ?_⟩
  repeat' (first | with_reducible assumption | with_reducible apply ev_served | with_reducible apply ev_senseSubWrite | intro _)

theorem execXingUnstable_evolves (x : XId) (s : State) : ∃ t, execXingUnstable x s = .next t ∧ Ev s t :=
  ⟨_, rfl, ev_xingUnstable (Ev.refl s)⟩

theorem execIslandClockStop_evolves (i : Isl) (s : State) : ∃ t, execIslandClockStop i s = .next t ∧ Ev s t :=
  ⟨_, rfl, ev_clockStop (Ev.refl s)⟩

theorem execWakeRequest_evolves (i : Isl) (s : State) : ∃ t, execWakeRequest i s = .next t ∧ Ev s t :=
  ⟨_, rfl, ev_wakeIsland (Ev.refl s)⟩

theorem execCrossingPresent_evolves (i : Isl) (s : State) : ∃ t, execCrossingPresent i s = .next t ∧ Ev s t :=
  ⟨_, rfl, ev_crossingPresent (Ev.refl s)⟩

theorem execBankTestStart_evolves (port : Fin 4) (g : Fin 16) (bank : Fin 16) (s : State) : ∃ t, execBankTestStart port g bank s = .next t ∧ Ev s t := by
  have hE := Ev.refl s
  refine ⟨_, rfl, ?_⟩
  repeat' (first | with_reducible assumption | with_reducible apply ev_served | with_reducible apply ev_testStart | intro _)

theorem execBankTestStop_evolves (port : Fin 4) (s : State) : ∃ t, execBankTestStop port s = .next t ∧ Ev s t := by
  have hE := Ev.refl s
  refine ⟨_, rfl, ?_⟩
  repeat' (first | with_reducible assumption | with_reducible apply ev_served | with_reducible apply ev_testStop | intro _)

theorem execMemCtlWrite_evolves (port : Fin 4) (val : Word) (s : State) : ∃ t, execMemCtlWrite port val s = .next t ∧ Ev s t := by
  have hE := Ev.refl s
  refine ⟨_, rfl, ?_⟩
  repeat' (first | with_reducible assumption | with_reducible apply ev_served | with_reducible apply ev_memCtlWrite | intro _)

theorem execMemConfRead_evolves (port : Fin 4) (m : Fin 88) (s : State) : ∃ t, execMemConfRead port m s = .next t ∧ Ev s t := by
  have hE := Ev.refl s
  refine ⟨_, rfl, ?_⟩
  repeat' (first | with_reducible assumption | with_reducible apply ev_servedRead | with_reducible apply ev_confRead | intro _)

theorem execLinkTrainingStep_evolves (p : Fin 4) (s : State) : ∃ t, execLinkTrainingStep p s = .next t ∧ Ev s t :=
  ⟨_, rfl, ev_linkStep (Ev.refl s)⟩

theorem execAlignBlock_evolves (p : Fin 4) (lane : Fin 4) (s : State) : ∃ t, execAlignBlock p lane s = .next t ∧ Ev s t :=
  ⟨_, rfl, ev_alignBlk (Ev.refl s)⟩

theorem execTrainTimeout_evolves (p : Fin 4) (s : State) : ∃ t, execTrainTimeout p s = .next t ∧ Ev s t :=
  ⟨_, rfl, ev_trainTimeout (Ev.refl s)⟩

theorem execTrainRetry_evolves (p : Fin 4) (s : State) : ∃ t, execTrainRetry p s = .next t ∧ Ev s t :=
  ⟨_, rfl, ev_trainRetry (Ev.refl s)⟩

theorem execLinkDown_evolves (p : Fin 4) (cause : LossCause) (s : State) : ∃ t, execLinkDown p cause s = .next t ∧ Ev s t :=
  ⟨_, rfl, ev_linkGone (Ev.refl s)⟩

theorem execHostTrain_evolves (p : Fin 4) (ack : Bool) (s : State) : ∃ t, execHostTrain p ack s = .next t ∧ Ev s t :=
  ⟨_, rfl, ev_trainBlock (Ev.refl s)⟩

theorem execPortRetrain_evolves (port : Fin 4) (target : Fin 4) (s : State) : ∃ t, execPortRetrain port target s = .next t ∧ Ev s t := by
  have hE := Ev.refl s
  refine ⟨_, rfl, ?_⟩
  repeat' (first | with_reducible assumption | with_reducible apply ev_served | with_reducible apply ev_portRetrain | intro _)

theorem execPortResetEnd_evolves (p : Fin 4) (s : State) : ∃ t, execPortResetEnd p s = .next t ∧ Ev s t :=
  ⟨_, rfl, ev_portResetEnd (Ev.refl s)⟩

theorem execPacketCrcError_evolves (p : Fin 4) (s : State) : ∃ t, execPacketCrcError p s = .next t ∧ Ev s t :=
  ⟨_, rfl, ev_crcError (Ev.refl s)⟩

theorem execLinkCredit_evolves (p : Fin 4) (cls : BitVec 4) (count : BitVec 16) (s : State) : ∃ t, execLinkCredit p cls count s = .next t ∧ Ev s t :=
  ⟨_, rfl, ev_linkCredit (Ev.refl s)⟩

theorem execLinkAck_evolves (p : Fin 4) (seq : BitVec 12) (s : State) : ∃ t, execLinkAck p seq s = .next t ∧ Ev s t :=
  ⟨_, rfl, ev_linkAck (Ev.refl s)⟩

theorem execLinkNak_evolves (p : Fin 4) (seq : BitVec 12) (s : State) : ∃ t, execLinkNak p seq s = .next t ∧ Ev s t :=
  ⟨_, rfl, ev_linkNak (Ev.refl s)⟩

theorem execReplayTimeout_evolves (p : Fin 4) (s : State) : ∃ t, execReplayTimeout p s = .next t ∧ Ev s t :=
  ⟨_, rfl, ev_replayTimeout (Ev.refl s)⟩

theorem execMailboxArrival_evolves (p : Fin 4) (k : Fin 2) (s : State) : ∃ t, execMailboxArrival p k s = .next t ∧ Ev s t :=
  ⟨_, rfl, ev_mboxArrive (Ev.refl s)⟩

theorem execMbxSend_evolves (p : Fin 4) (s : State) : ∃ t, execMbxSend p s = .next t ∧ Ev s t :=
  ⟨_, rfl, ev_mbxSend (Ev.refl s)⟩

theorem execNtfSend_evolves (p : Fin 4) (s : State) : ∃ t, execNtfSend p s = .next t ∧ Ev s t :=
  ⟨_, rfl, ev_ntfSend (Ev.refl s)⟩

theorem execNtfRptrWrite_evolves (port : Fin 4) (val : Word) (s : State) : ∃ t, execNtfRptrWrite port val s = .next t ∧ Ev s t := by
  have hE := Ev.refl s
  refine ⟨_, rfl, ?_⟩
  repeat' (first | with_reducible assumption | with_reducible apply ev_served | with_reducible apply ev_rptrWrite | intro _)

theorem execExportPacketSend_evolves (spool : Fin 2112) (s : State) : ∃ t, execExportPacketSend spool s = .next t ∧ Ev s t :=
  ⟨_, rfl, ev_exportSend (Ev.refl s)⟩

theorem execObsCntSrcWrite_evolves (port : Fin 4) (k : Fin 512) (val : Word) (s : State) : ∃ t, execObsCntSrcWrite port k val s = .next t ∧ Ev s t := by
  have hE := Ev.refl s
  refine ⟨_, rfl, ?_⟩
  repeat' (first | with_reducible assumption | with_reducible apply ev_served | with_reducible apply ev_cntSrcWrite | intro _)

theorem execTallyRead_evolves  (s : State) : ∃ t, execTallyRead s = .next t ∧ Ev s t :=
  ⟨_, rfl, ev_tallyRound (Ev.refl s)⟩

theorem execSnap_evolves (_port : Fin 4) (s : State) : ∃ t, execSnap _port s = .next t ∧ Ev s t := by
  have hE := Ev.refl s
  refine ⟨_, rfl, ?_⟩
  repeat' (first | with_reducible assumption | with_reducible apply ev_served | with_reducible apply ev_snapAll)

theorem execObsCntRead_evolves (port : Fin 4) (k : Fin 512) (s : State) : ∃ t, execObsCntRead port k s = .next t ∧ Ev s t := by
  have hE := Ev.refl s
  refine ⟨_, rfl, ?_⟩
  repeat' (first | with_reducible assumption | with_reducible apply ev_servedRead | with_reducible apply ev_cntLoRead | intro _)

theorem execCounterRead_evolves (dom : Fin 4) (s : State) : ∃ t, execCounterRead dom s = .next t ∧ Ev s t :=
  ⟨_, rfl, ev_plyCntRead (Ev.refl s)⟩

theorem execObsProbeSrcWrite_evolves (port : Fin 4) (j : Fin 16) (val : Word) (s : State) : ∃ t, execObsProbeSrcWrite port j val s = .next t ∧ Ev s t := by
  have hE := Ev.refl s
  refine ⟨_, rfl, ?_⟩
  repeat' (first | with_reducible assumption | with_reducible apply ev_served | with_reducible apply ev_probeSrcWrite | intro _)

theorem execProbeRecord_evolves (j : Fin 16) (data : Word) (time : Tick) (s : State) : ∃ t, execProbeRecord j data time s = .next t ∧ Ev s t :=
  ⟨_, rfl, ev_probeOccurs (Ev.refl s)⟩

theorem execTraceWrite_evolves  (s : State) : ∃ t, execTraceWrite s = .next t ∧ Ev s t :=
  ⟨_, rfl, ev_traceWriter (Ev.refl s)⟩

theorem execIdcode_evolves  (s : State) : ∃ t, execIdcode s = .next t ∧ Ev s t := by
  have hE := Ev.refl s
  refine ⟨_, rfl, ?_⟩
  repeat' (first | with_reducible assumption | with_reducible apply ev_State_finish | with_reducible apply ev_tapSelect)

theorem execSamplePreload_evolves (balls : BitVec 1263) (s : State) : ∃ t, execSamplePreload balls s = .next t ∧ Ev s t :=
  ⟨_, rfl, ev_sampleBalls (Ev.refl s)⟩

theorem execBypass_evolves (code : BitVec 4) (s : State) : ∃ t, execBypass code s = .next t ∧ Ev s t :=
  ⟨_, rfl, ev_tapSelect (Ev.refl s)⟩

theorem execTestLogicReset_evolves  (s : State) : ∃ t, execTestLogicReset s = .next t ∧ Ev s t :=
  ⟨_, rfl, ev_tapSelect (Ev.refl s)⟩

theorem execTakeOwnership_evolves (port : Fin 4) (val : Word) (s : State) : ∃ t, execTakeOwnership port val s = .next t ∧ Ev s t :=
  ⟨_, rfl, ev_takeOwnership (Ev.refl s)⟩

theorem execProgramSlot_evolves (port : Fin 4) (val : Word) (s : State) : ∃ t, execProgramSlot port val s = .next t ∧ Ev s t :=
  ⟨_, rfl, ev_programSlot (Ev.refl s)⟩

theorem execRevokeSlot_evolves (port : Fin 4) (val : Word) (s : State) : ∃ t, execRevokeSlot port val s = .next t ∧ Ev s t :=
  ⟨_, rfl, ev_revokeSlot (Ev.refl s)⟩

theorem execSeal_evolves (port : Fin 4) (val : Word) (s : State) : ∃ t, execSeal port val s = .next t ∧ Ev s t :=
  ⟨_, rfl, ev_sealPart (Ev.refl s)⟩

theorem execAdvanceRollback_evolves (port : Fin 4) (val : Word) (s : State) : ∃ t, execAdvanceRollback port val s = .next t ∧ Ev s t :=
  ⟨_, rfl, ev_advanceRollback (Ev.refl s)⟩

theorem execFuseRetire_evolves (port : Fin 4) (val : Word) (s : State) : ∃ t, execFuseRetire port val s = .next t ∧ Ev s t := by
  have hE := Ev.refl s
  refine ⟨_, rfl, ?_⟩
  repeat' (first | with_reducible assumption | with_reducible apply ev_served | with_reducible apply ev_fuseRetire | intro _)

theorem execFuseProgramDone_evolves  (s : State) : ∃ t, execFuseProgramDone s = .next t ∧ Ev s t :=
  ⟨_, rfl, ev_fuseDone (Ev.refl s)⟩

theorem execVfuseLost_evolves  (s : State) : ∃ t, execVfuseLost s = .next t ∧ Ev s t :=
  ⟨_, rfl, ev_vfuseLost (Ev.refl s)⟩

theorem execAttest_evolves (port : Fin 4) (s : State) : ∃ t, execAttest port s = .next t ∧ Ev s t :=
  ⟨_, rfl, ev_attest (Ev.refl s)⟩

theorem execSignHead_evolves (port : Fin 4) (s : State) : ∃ t, execSignHead port s = .next t ∧ Ev s t :=
  ⟨_, rfl, ev_signHead (Ev.refl s)⟩

theorem execReportDone_evolves  (s : State) : ∃ t, execReportDone s = .next t ∧ Ev s t :=
  ⟨_, rfl, ev_reportDone (Ev.refl s)⟩

theorem execLedgerAckWrite_evolves (port : Fin 4) (val : Word) (s : State) : ∃ t, execLedgerAckWrite port val s = .next t ∧ Ev s t :=
  ⟨_, rfl, ev_ledgerAck (Ev.refl s)⟩

theorem execRecSelWrite_evolves (port : Fin 4) (val : Word) (s : State) : ∃ t, execRecSelWrite port val s = .next t ∧ Ev s t :=
  ⟨_, rfl, ev_recSel (Ev.refl s)⟩

theorem execLedgerSeqRead_evolves (port : Fin 4) (s : State) : ∃ t, execLedgerSeqRead port s = .next t ∧ Ev s t :=
  ⟨_, rfl, ev_seqRead (Ev.refl s)⟩

theorem execPwrVlimWrite_evolves (port : Fin 4) (val : Word) (s : State) : ∃ t, execPwrVlimWrite port val s = .next t ∧ Ev s t :=
  ⟨_, rfl, ev_pwrVlimWrite (Ev.refl s)⟩

theorem execPwrThermWrite_evolves (port : Fin 4) (val : Word) (s : State) : ∃ t, execPwrThermWrite port val s = .next t ∧ Ev s t :=
  ⟨_, rfl, ev_pwrThermWrite (Ev.refl s)⟩

theorem execPwrWakeAtWrite_evolves (port : Fin 4) (val : Word) (s : State) : ∃ t, execPwrWakeAtWrite port val s = .next t ∧ Ev s t :=
  ⟨_, rfl, ev_pwrWakeAtWrite (Ev.refl s)⟩

theorem execSysLockWrite_evolves (port : Fin 4) (val : Word) (s : State) : ∃ t, execSysLockWrite port val s = .next t ∧ Ev s t :=
  ⟨_, rfl, ev_sysLockWrite (Ev.refl s)⟩

theorem execWreg_evolves  (s : State) : ∃ t, execWreg s = .next t ∧ Ev s t := by
  have hE := Ev.refl s
  refine ⟨_, rfl, ?_⟩
  repeat' (first | with_reducible assumption | with_reducible apply ev_onCmd | with_reducible apply ev_wregCmd | intro _)

theorem execSkein_evolves  (s : State) : ∃ t, execSkein s = .next t ∧ Ev s t := by
  have hE := Ev.refl s
  refine ⟨_, rfl, ?_⟩
  repeat' (first | with_reducible assumption | with_reducible apply ev_onCmd | with_reducible apply ev_skeinCmd | intro _)

theorem execInst_evolves  (s : State) : ∃ t, execInst s = .next t ∧ Ev s t := by
  have hE := Ev.refl s
  refine ⟨_, rfl, ?_⟩
  repeat' (first | with_reducible assumption | with_reducible apply ev_onCmd | with_reducible apply ev_instCmd | intro _)

theorem execDirEnd_evolves  (s : State) : ∃ t, execDirEnd s = .next t ∧ Ev s t := by
  have hE := Ev.refl s
  refine ⟨_, rfl, ?_⟩
  repeat' (first | with_reducible assumption | with_reducible apply ev_onCmd | with_reducible apply ev_dirEndCmd | intro _)

theorem execFramesP_evolves  (s : State) : ∃ t, execFramesP s = .next t ∧ Ev s t := by
  have hE := Ev.refl s
  refine ⟨_, rfl, ?_⟩
  repeat' (first | with_reducible assumption | with_reducible apply ev_onCmd | with_reducible apply ev_framesPCmd | intro _)

theorem execFramesL_evolves  (s : State) : ∃ t, execFramesL s = .next t ∧ Ev s t := by
  have hE := Ev.refl s
  refine ⟨_, rfl, ?_⟩
  repeat' (first | with_reducible assumption | with_reducible apply ev_onCmd | with_reducible apply ev_framesLCmd | intro _)

theorem execSkeinFrames_evolves  (s : State) : ∃ t, execSkeinFrames s = .next t ∧ Ev s t := by
  have hE := Ev.refl s
  refine ⟨_, rfl, ?_⟩
  repeat' (first | with_reducible assumption | with_reducible apply ev_onCmd | with_reducible apply ev_skeinFramesCmd | intro _)

theorem execEndCheck_evolves  (s : State) : ∃ t, execEndCheck s = .next t ∧ Ev s t := by
  have hE := Ev.refl s
  refine ⟨_, rfl, ?_⟩
  repeat' (first | with_reducible assumption | with_reducible apply ev_onCmd | with_reducible apply ev_endCmd | intro _)

theorem execSignature_evolves  (s : State) : ∃ t, execSignature s = .next t ∧ Ev s t := by
  have hE := Ev.refl s
  refine ⟨_, rfl, ?_⟩
  repeat' (first | with_reducible assumption | with_reducible apply ev_onCmd | with_reducible apply ev_signatureCmd | intro _)

theorem execKeywrap_evolves  (s : State) : ∃ t, execKeywrap s = .next t ∧ Ev s t := by
  have hE := Ev.refl s
  refine ⟨_, rfl, ?_⟩
  repeat' (first | with_reducible assumption | with_reducible apply ev_onCmd | with_reducible apply ev_keywrapCmd | intro _)

theorem execEpoch_evolves  (s : State) : ∃ t, execEpoch s = .next t ∧ Ev s t := by
  have hE := Ev.refl s
  refine ⟨_, rfl, ?_⟩
  repeat' (first | with_reducible assumption | with_reducible apply ev_onCmd | with_reducible apply ev_epochCmd | intro _)

theorem execNextkey_evolves  (s : State) : ∃ t, execNextkey s = .next t ∧ Ev s t := by
  have hE := Ev.refl s
  refine ⟨_, rfl, ?_⟩
  repeat' (first | with_reducible assumption | with_reducible apply ev_onCmd | with_reducible apply ev_nextkeyCmd | intro _)

theorem execRegion_evolves  (s : State) : ∃ t, execRegion s = .next t ∧ Ev s t := by
  have hE := Ev.refl s
  refine ⟨_, rfl, ?_⟩
  repeat' (first | with_reducible assumption | with_reducible apply ev_onCmd | with_reducible apply ev_regionCmd | intro _ | extract_lets | split)

theorem execStartFull_evolves (port : Fin 4) (s : State) : ∃ t, execStartFull port s = .next t ∧ Ev s t :=
  ⟨_, rfl, ev_startFull (Ev.refl s)⟩

theorem execStartPartial_evolves (port : Fin 4) (s : State) : ∃ t, execStartPartial port s = .next t ∧ Ev s t :=
  ⟨_, rfl, ev_startPartial (Ev.refl s)⟩

theorem execCfgStreamWrite_evolves (port : Fin 4) (val : Word) (s : State) : ∃ t, execCfgStreamWrite port val s = .next t ∧ Ev s t :=
  ⟨_, rfl, ev_streamWrite (Ev.refl s)⟩

theorem execAbort_evolves (port : Fin 4) (s : State) : ∃ t, execAbort port s = .next t ∧ Ev s t :=
  ⟨_, rfl, ev_abortLoad (Ev.refl s)⟩

theorem execStreamLost_evolves  (s : State) : ∃ t, execStreamLost s = .next t ∧ Ev s t :=
  ⟨_, rfl, ev_streamLost (Ev.refl s)⟩

theorem execFlashReadDone_evolves (words : List Word) (dqs : Bool) (s : State) : ∃ t, execFlashReadDone words dqs s = .next t ∧ Ev s t :=
  ⟨_, rfl, ev_flashRead (Ev.refl s)⟩

theorem execChainSync_evolves  (s : State) : ∃ t, execChainSync s = .next t ∧ Ev s t :=
  ⟨_, rfl, ev_chainSync (Ev.refl s)⟩

theorem execChainInputWord_evolves (val : Word) (s : State) : ∃ t, execChainInputWord val s = .next t ∧ Ev s t :=
  ⟨_, rfl, ev_chainWord (Ev.refl s)⟩

theorem execChainInputTimeout_evolves  (s : State) : ∃ t, execChainInputTimeout s = .next t ∧ Ev s t :=
  ⟨_, rfl, ev_chainTimeout (Ev.refl s)⟩

theorem execIoRelease_evolves  (s : State) : ∃ t, execIoRelease s = .next t ∧ Ev s t :=
  ⟨_, rfl, ev_ioRelease (Ev.refl s)⟩

theorem execRegionRelease_evolves  (s : State) : ∃ t, execRegionRelease s = .next t ∧ Ev s t :=
  ⟨_, rfl, ev_regionRelease (Ev.refl s)⟩

theorem execClearRegion_evolves (port : Fin 4) (s : State) : ∃ t, execClearRegion port s = .next t ∧ Ev s t :=
  ⟨_, rfl, ev_clearRegion (Ev.refl s)⟩

theorem execScrubFrameRead_evolves  (s : State) : ∃ t, execScrubFrameRead s = .next t ∧ Ev s t :=
  ⟨_, rfl, ev_scrubRead (Ev.refl s)⟩

theorem execTripleVote_evolves  (s : State) : ∃ t, execTripleVote s = .next t ∧ Ev s t :=
  ⟨_, rfl, ev_voteAll (Ev.refl s)⟩

theorem execTileTestStart_evolves  (s : State) : ∃ t, execTileTestStart s = .next t ∧ Ev s t :=
  ⟨_, rfl, ev_tileTestStart (Ev.refl s)⟩

theorem execTileTestEnd_evolves (failUnit : BitVec 4) (s : State) : ∃ t, execTileTestEnd failUnit s = .next t ∧ Ev s t :=
  ⟨_, rfl, ev_testEnd (Ev.refl s)⟩

theorem execTileTest_evolves (port : Fin 4) (val : Word) (s : State) : ∃ t, execTileTest port val s = .next t ∧ Ev s t := by
  have hE := Ev.refl s
  refine ⟨_, rfl, ?_⟩
  repeat' (first | with_reducible assumption | with_reducible apply ev_served | with_reducible apply ev_tileTest | intro _)

theorem execPortIslandReset_evolves (port : Fin 4) (target : Fin 4) (s : State) : ∃ t, execPortIslandReset port target s = .next t ∧ Ev s t := by
  have hE := Ev.refl s
  refine ⟨_, rfl, ?_⟩
  repeat' (first | with_reducible assumption | with_reducible apply ev_served | with_reducible apply ev_islandResetPort | intro _)

theorem execPacketLayerTimeout_evolves (p : Fin 4) (s : State) : ∃ t, execPacketLayerTimeout p s = .next t ∧ Ev s t :=
  ⟨_, rfl, ev_packetTimeout (Ev.refl s)⟩

theorem execPowerEntryProceed_evolves  (s : State) : ∃ t, execPowerEntryProceed s = .next t ∧ Ev s t :=
  ⟨_, rfl, ev_powerProceed (Ev.refl s)⟩

theorem execDoze_evolves (port : Fin 4) (s : State) : ∃ t, execDoze port s = .next t ∧ Ev s t :=
  ⟨_, rfl, ev_doze (Ev.refl s)⟩

theorem execPark_evolves (port : Fin 4) (s : State) : ∃ t, execPark port s = .next t ∧ Ev s t :=
  ⟨_, rfl, ev_park (Ev.refl s)⟩

theorem execWake_evolves (port : Fin 4) (s : State) : ∃ t, execWake port s = .next t ∧ Ev s t :=
  ⟨_, rfl, ev_wake (Ev.refl s)⟩

theorem execWakeTimer_evolves  (s : State) : ∃ t, execWakeTimer s = .next t ∧ Ev s t :=
  ⟨_, rfl, ev_wakeTimer (Ev.refl s)⟩

theorem execPinWakeEvent_evolves (pin : Fin 384) (level : Bool) (s : State) : ∃ t, execPinWakeEvent pin level s = .next t ∧ Ev s t :=
  ⟨_, rfl, ev_pinWake (Ev.refl s)⟩

theorem execThermalRelease_evolves  (s : State) : ∃ t, execThermalRelease s = .next t ∧ Ev s t :=
  ⟨_, rfl, ev_thermalRelease (Ev.refl s)⟩

theorem execThermTrip_evolves (region : Fin 64) (temp : Byte) (s : State) : ∃ t, execThermTrip region temp s = .next t ∧ Ev s t :=
  ⟨_, rfl, ev_thermTrip (Ev.refl s)⟩

theorem execWakeComplete_evolves  (s : State) : ∃ t, execWakeComplete s = .next t ∧ Ev s t :=
  ⟨_, rfl, ev_wakeDone (Ev.refl s)⟩

theorem execGovernorPeriod_evolves (temps : List Byte) (cong : Fin 101) (pmb : PmbResult) (s : State) : ∃ t, execGovernorPeriod temps cong pmb s = .next t ∧ Ev s t :=
  ⟨_, rfl, ev_govPeriod (Ev.refl s)⟩

theorem execPmbAlert_evolves (ack : Bool) (status : BitVec 16) (s : State) : ∃ t, execPmbAlert ack status s = .next t ∧ Ev s t :=
  ⟨_, rfl, ev_pmbAlert (Ev.refl s)⟩

theorem execPowerOnReset_evolves  (s : State) : ∃ t, execPowerOnReset s = .next t ∧ Ev s t :=
  ⟨_, rfl, ev_powerOn (Ev.refl s)⟩

theorem execFullReset_evolves  (s : State) : ∃ t, execFullReset s = .next t ∧ Ev s t :=
  ⟨_, rfl, ev_fullByPin (Ev.refl s)⟩

theorem execPorstNDeasserted_evolves (mode : BitVec 2) (pulldef : Byte) (s : State) : ∃ t, execPorstNDeasserted mode pulldef s = .next t ∧ Ev s t :=
  ⟨_, rfl, ev_porstUp (Ev.refl s)⟩

theorem execRstNDeasserted_evolves (mode : BitVec 2) (pulldef : Byte) (s : State) : ∃ t, execRstNDeasserted mode pulldef s = .next t ∧ Ev s t :=
  ⟨_, rfl, ev_rstUp (Ev.refl s)⟩

theorem execSysResetFull_evolves (port : Fin 4) (val : Word) (mode : BitVec 2) (pulldef : Byte) (s : State) : ∃ t, execSysResetFull port val mode pulldef s = .next t ∧ Ev s t :=
  ⟨_, rfl, ev_sysReset (Ev.refl s)⟩

theorem execSysResetFabric_evolves (port : Fin 4) (val : Word) (s : State) : ∃ t, execSysResetFabric port val s = .next t ∧ Ev s t :=
  ⟨_, rfl, ev_sysResetWrite (Ev.refl s)⟩

theorem execRailBrownout_evolves (rail : Rail) (s : State) : ∃ t, execRailBrownout rail s = .next t ∧ Ev s t :=
  ⟨_, rfl, ev_brownout (Ev.refl s)⟩

theorem execBatchDataWrite_evolves (port : Fin 4) (val : Word) (s : State) : ∃ t, execBatchDataWrite port val s = .next t ∧ Ev s t := by
  have hE := Ev.refl s
  refine ⟨_, rfl, ?_⟩
  repeat' (first | with_reducible assumption | with_reducible apply ev_served | with_reducible apply ev_batchData | intro _)

theorem execCommit_evolves (port : Fin 4) (s : State) : ∃ t, execCommit port s = .next t ∧ Ev s t := by
  have hE := Ev.refl s
  refine ⟨_, rfl, ?_⟩
  repeat' (first | with_reducible assumption | with_reducible apply ev_served | with_reducible apply ev_beginCheck | intro _)

theorem execCommitAt_evolves (port : Fin 4) (s : State) : ∃ t, execCommitAt port s = .next t ∧ Ev s t := by
  have hE := Ev.refl s
  refine ⟨_, rfl, ?_⟩
  repeat' (first | with_reducible assumption | with_reducible apply ev_served | with_reducible apply ev_commitAt | intro _)

theorem execDiscard_evolves (port : Fin 4) (s : State) : ∃ t, execDiscard port s = .next t ∧ Ev s t := by
  have hE := Ev.refl s
  refine ⟨_, rfl, ?_⟩
  repeat' (first | with_reducible assumption | with_reducible apply ev_served | with_reducible apply ev_discard | intro _)

theorem execDomainReset_evolves (port : Fin 4) (domain : Fin 4) (s : State) : ∃ t, execDomainReset port domain s = .next t ∧ Ev s t := by
  have hE := Ev.refl s
  refine ⟨_, rfl, ?_⟩
  repeat' (first | with_reducible assumption | with_reducible apply ev_served | with_reducible apply ev_resetDomain | intro _)

theorem execBatchCheckDone_evolves (port : Fin 4) (s : State) : ∃ t, execBatchCheckDone port s = .next t ∧ Ev s t :=
  ⟨_, rfl, ev_checkDone (Ev.refl s)⟩

theorem execRegisterWrite_evolves (port : Fin 4) (addr : Word) (val : Word) (s : State) : ∃ t, execRegisterWrite port addr val s = .next t ∧ Ev s t :=
  ⟨_, rfl, ev_writeReg (Ev.refl s)⟩

theorem execHostRd_evolves (p : Fin 4) (seq : BitVec 12) (tag : Byte) (words : List DWord) (s : State) : ∃ t, execHostRd p seq tag words s = .next t ∧ Ev s t := by
  have hE := Ev.refl s
  refine ⟨_, rfl, ?_⟩
  repeat' (first | with_reducible assumption | with_reducible apply ev_hostPacket)

theorem execHostWr_evolves (p : Fin 4) (seq : BitVec 12) (tag : Byte) (words : List DWord) (s : State) : ∃ t, execHostWr p seq tag words s = .next t ∧ Ev s t := by
  have hE := Ev.refl s
  refine ⟨_, rfl, ?_⟩
  repeat' (first | with_reducible assumption | with_reducible apply ev_hostPacket)

theorem execHostPly_evolves (p : Fin 4) (seq : BitVec 12) (tag : Byte) (arg : BitVec 16) (words : List Word) (s : State) : ∃ t, execHostPly p seq tag arg words s = .next t ∧ Ev s t := by
  have hE := Ev.refl s
  refine ⟨_, rfl, ?_⟩
  repeat' (first | with_reducible assumption | with_reducible apply ev_hostPacket)

theorem execRspSend_evolves (p : Fin 4) (s : State) : ∃ t, execRspSend p s = .next t ∧ Ev s t := by
  have hE := Ev.refl s
  refine ⟨_, rfl, ?_⟩
  repeat' (first | with_reducible assumption | with_reducible apply ev_rspSend | with_reducible apply ev_writeReg | with_reducible apply ev_serveAll | intro _)

theorem execPlacementComplete_evolves  (s : State) : ∃ t, execPlacementComplete s = .next t ∧ Ev s t := by
  have hE := Ev.refl s
  refine ⟨_, rfl, ?_⟩
  repeat' (first | with_reducible assumption | with_reducible apply ev_placementDone | with_reducible apply ev_serveAll)

theorem execCommitTick_evolves  (s : State) : ∃ t, execCommitTick s = .next t ∧ Ev s t :=
  ⟨_, rfl, ev_commitAct (Ev.refl s)⟩

theorem execTbsyncPulse_evolves  (s : State) : ∃ t, execTbsyncPulse s = .next t ∧ Ev s t :=
  ⟨_, rfl, ev_pulseAct (Ev.refl s)⟩

theorem execUpset_evolves (u : UpsetAt) (s : State) : ∃ t, execUpset u s = .next t ∧ Ev s t :=
  ⟨_, rfl, ev_upsetAct (Ev.refl s)⟩

end Sys2Proof.Machine
end

