-- ==== Sys2Proof/Laws/Fabric.lean ====
section
/-! SUPPORT. Fabric: what the moves that follow a handshake leave alone, said once for every operation of a tile. -/
namespace Sys2Proof.Machine
/-- A tile after its state has been changed. -/
theorem tileSt_onTile (s : State) (t k : Nat) (f : TileSt → TileSt) :
    tileSt (s.onTile t f) k = if k = t then f (tileSt s t) else tileSt s k := tileSt_setTile ..
/-- A push keeps the pointer pairs equal (R399). -/
theorem HQ.push_ok {α : Type} (cap : Nat) (q : HQ α) (x : α) (h : q.ok = true) : (q.push cap x).ok = true := by
  simp only [HQ.ok, HQ.push, Bool.and_eq_true, beq_iff_eq] at h ⊢; simp [h.1, h.2]
/-- A pop keeps the pointer pairs equal (R399). -/
theorem HQ.pop_ok {α : Type} (cap : Nat) (q : HQ α) (h : q.ok = true) : (q.pop cap).ok = true := by
  unfold HQ.pop; split
  · exact h
  · simp only [HQ.ok, Bool.and_eq_true, beq_iff_eq] at h ⊢; simp [h.1, h.2]
/-- What the automatic moves of a handshake leave alone: everything but the tiles' tokens, acknowledges and queues. -/
structure Settles (s t : State) : Prop where
  rest : t = { s with fab := { s.fab with tiles := t.fab.tiles } }
  ram : ∀ k, (tileSt t k).ram = (tileSt s k).ram
  bad : ∀ k, (tileSt t k).ramBad = (tileSt s k).ramBad
  acc0 : ∀ k, (tileSt t k).acc0 = (tileSt s k).acc0
  acc1 : ∀ k, (tileSt t k).acc1 = (tileSt s k).acc1
  ifc : ∀ k, (tileSt t k).ifc = (tileSt s k).ifc
  err : ∀ k, (tileSt t k).railErr = (tileSt s k).railErr ∧ (tileSt t k).railBad = (tileSt s k).railBad
  okq : ∀ k, ((tileSt s k).q0.ok = true → (tileSt t k).q0.ok = true) ∧ ((tileSt s k).q1.ok = true → (tileSt t k).q1.ok = true)
theorem Settles.refl (s : State) : Settles s s := ⟨rfl, fun _ => rfl, fun _ => rfl, fun _ => rfl, fun _ => rfl, fun _ => rfl, fun _ => ⟨rfl, rfl⟩,
  fun _ => ⟨id, id⟩⟩
theorem Settles.trans {s t u : State} (h : Settles s t) (k : Settles t u) : Settles s u where
  rest := by rw [k.rest, h.rest]
  ram i := (k.ram i).trans (h.ram i)
  bad i := (k.bad i).trans (h.bad i)
  err i := ⟨(k.err i).1.trans (h.err i).1, (k.err i).2.trans (h.err i).2⟩
  acc0 i := (k.acc0 i).trans (h.acc0 i)
  acc1 i := (k.acc1 i).trans (h.acc1 i)
  ifc i := (k.ifc i).trans (h.ifc i)
  okq i := ⟨(k.okq i).1 ∘ (h.okq i).1, (k.okq i).2 ∘ (h.okq i).2⟩
theorem Settles.setTile {s : State} {t : Nat} {x : TileSt} (hr : x.ram = (tileSt s t).ram)
    (hb : x.ramBad = (tileSt s t).ramBad) (he : x.railErr = (tileSt s t).railErr ∧ x.railBad = (tileSt s t).railBad)
    (h0 : x.acc0 = (tileSt s t).acc0) (h1 : x.acc1 = (tileSt s t).acc1) (hi : x.ifc = (tileSt s t).ifc)
    (hq : ((tileSt s t).q0.ok = true → x.q0.ok = true) ∧ ((tileSt s t).q1.ok = true → x.q1.ok = true)) :
    Settles s (s.setTile t x) where
  rest := rfl
  ram k := by rw [tileSt_setTile]; split <;> simp [*]
  bad k := by rw [tileSt_setTile]; split <;> simp [*]
  acc0 k := by rw [tileSt_setTile]; split <;> simp [*]
  acc1 k := by rw [tileSt_setTile]; split <;> simp [*]
  err k := by
    rw [tileSt_setTile]
    split <;> simp [*]
  ifc k := by rw [tileSt_setTile]; split <;> simp [*]
  okq k := by
    rw [tileSt_setTile]; split
    · subst_vars; exact hq
    · exact ⟨id, id⟩
theorem Settles.foldl {α : Type} {f : State → α → State} (l : List α) (h : ∀ s x, Settles s (f s x)) (s : State) : Settles s (l.foldl f s) := by
  induction l generalizing s with
  | nil => exact .refl s
  | cons a t ih => exact (h s a).trans (ih _)
theorem withdraw_settles (s : State) (t : Nat) : Settles s (withdraw s t) :=
  Settles.setTile rfl rfl ⟨rfl, rfl⟩ rfl rfl rfl ⟨id, id⟩
theorem lowerAcks_settles (s : State) (t : Nat) : Settles s (lowerAcks s t) :=
  Settles.setTile rfl rfl ⟨rfl, rfl⟩ rfl rfl rfl ⟨id, id⟩
theorem emit_settles (s : State) (t lo n v : Nat) : Settles s (emit s t lo n v) :=
  Settles.setTile rfl rfl ⟨rfl, rfl⟩ rfl rfl rfl ⟨id, id⟩
theorem raiseAcks_settles (s : State) (t : Nat) (ks : List Nat) : Settles s (raiseAcks s t ks) :=
  Settles.setTile rfl rfl ⟨rfl, rfl⟩ rfl rfl rfl ⟨id, id⟩
theorem presentQ_settles (s : State) (t q : Nat) : Settles s (presentQ s t q) := by
  unfold presentQ
  extract_lets x qs shown
  split
  · exact .refl s
  · by_cases h : (shown || !resultFree s t (160 + 36 * q) 36 || (chained s t && q == 0)) = true
    · rw [if_pos h]; exact .refl s
    · rw [if_neg h]
      exact (emit_settles ..).trans (by split <;> exact Settles.setTile rfl rfl ⟨rfl, rfl⟩ rfl rfl rfl ⟨id, id⟩)
theorem chainMove_settles (n : Nat) (s : State) (t : Nat) : Settles s (chainMove n s t) := by
  induction n generalizing s with
  | zero => exact .refl s
  | succ n ih =>
    unfold chainMove
    dsimp only
    split
    · exact .refl s
    · split
      · refine Settles.trans ?_ (ih _)
        exact Settles.setTile rfl rfl ⟨rfl, rfl⟩ rfl rfl rfl ⟨HQ.pop_ok _ _, HQ.push_ok _ _ _⟩
      · exact .refl s
theorem settleTile_settles (s : State) (t : Nat) : Settles s (settleTile s t) :=
  (chainMove_settles ..).trans ((presentQ_settles ..).trans (presentQ_settles ..))
theorem noteArb_settles (s : State) (t : Nat) : Settles s (noteArb s t) := by
  unfold noteArb
  split
  · exact Settles.setTile rfl rfl ⟨rfl, rfl⟩ rfl rfl rfl ⟨id, id⟩
  · exact Settles.setTile rfl rfl ⟨rfl, rfl⟩ rfl rfl rfl ⟨id, id⟩
theorem noteRam_settles (s : State) (t : Nat) : Settles s (noteRam s t) :=
  Settles.setTile rfl rfl ⟨rfl, rfl⟩ rfl rfl rfl ⟨id, id⟩
/-- The moves after an operation change tokens, acknowledges and queues alone. -/
theorem settle_settles (t : Nat) (s : State) : Settles s (settle t s) :=
  (Settles.foldl _ withdraw_settles _).trans ((Settles.foldl _ lowerAcks_settles _).trans
    ((Settles.foldl _ settleTile_settles _).trans ((Settles.foldl _ noteArb_settles _).trans (Settles.foldl _ noteRam_settles _))))
end Sys2Proof.Machine
end

