-- ==== Sys2Proof/Laws/Ready.lean ====
section
/-! SUPPORT. What the hypotheses of Safety.lean give: a spool command that is ready runs its effect, an image command that is
ready runs its own on the load it is taken from. -/
namespace Sys2Proof.Machine
/-- A spool command that is ready is taken from its source and runs (R322–R325). -/
theorem splRun_ready {s : State} {src : SplSrc} {code : Nat} {c : SplCmd} (h : SplReady s src code c)
    (act : SplCmd → State → State) : splRun code src act s = act c (splTake src s) := by
  obtain ⟨h1, h2, h3, h4, h5, h6, h7, h8⟩ := h
  unfold splRun whenAwake
  rw [SpoolAwake] at h8
  simp only [h1, h2, h3, h4, h5, h6, h7, h8]
  simp
/-- An image command that is ready is taken and runs; the image is then read on (R493, R494). -/
theorem onCmd_ready {s : State} {op : Nat} {c : LCmd} {l l' : Load} (h : LoadReady s op c l l')
    (act : LCmd → State → State) : onCmd op act s = scan (epochEnd (inEpoch l) c (act c (s.onLoad (fun _ => l')))) := by
  obtain ⟨h1, h2, h3, h4, h5, h6⟩ := h
  simp [onCmd, h1, h2, h3, h4, h5, h6]
/-- The load that stands while such a command runs. -/
theorem onLoad_load {s : State} {op : Nat} {c : LCmd} {l l' : Load} (h : LoadReady s op c l l') :
    (s.onLoad (fun _ => l')).ldr.load = some l' := by
  simp [State.onLoad, State.onLdr, h.1]

end Sys2Proof.Machine
end

