-- ==== Sys2Proof/Machine/Blocks.lean ====
section
/-! DEFINITION. Blocks: the block layer of a host link (R212, R213, R226, R445–R447, R451–R453): scrambling, block lock, control blocks, the
lanes of a port, a packet as blocks with its CRC-32, and what the blocks that arrive make the port do. No row of the table carries a
block: the rows carry what this layer gives, a packet, an error, a LINK or a TRAIN block (notes/assumptions/63.md). -/
namespace Sys2Proof.Machine

/-! ## A lane (R212, R213, R226, R445) -/

/-- A block: its sync header, the bit sent first in bit 0, and its payload bits (R212). -/
structure Blk where
  sync : BitVec 2
  payload : DWord
  deriving DecidableEq, Repr
/-- A data block: the first sync bit 0, the second 1. -/
def dataBlk (w : DWord) : Blk := { sync := 2, payload := w }
/-- A control block: the first sync bit 1, the second 0. -/
def ctlBlk (w : DWord) : Blk := { sync := 1, payload := w }
/-- Payload bits as sent, after the 58 bits that went before them (R213): what `descramble` undoes. -/
def scramble (scr : BitVec 58) (d : DWord) : DWord × BitVec 58 :=
  let line : BitVec 122 := (List.range 64).foldl
    (fun t i => putBit t (58 + i) (bitOf d i != (bitOf t (19 + i) != bitOf t i))) (scr.setWidth 122)
  ((line >>> 58).setWidth 64, (line >>> 64).setWidth 58)
/-- A lane's receiver (R213, R226, R447): the 58 bits before, valid sync headers in a row, which of the last 64 blocks were errors, block
lock. -/
structure LaneRx where
  scr : BitVec 58
  good : Nat
  last : List Bool
  lock : Bool
  deriving DecidableEq, Repr
/-- A receiver without lock. -/
def LaneRx.init : LaneRx := { scr := 0, good := 0, last := [], lock := false }
/-- The control block types of R447. -/
def blkTypes : List Nat := [0x1E, 0x2D, 0x4B, 0x55, 0x66, 0x78]
/-- A valid sync header. -/
def Blk.valid (b : Blk) : Bool := b.sync == 1 || b.sync == 2
/-- A block error: an invalid sync header or an unknown block type (R226). -/
def Blk.error (b : Blk) : Bool := !b.valid || (b.sync == 1 && !blkTypes.contains (fld b.payload 7 0))
/-- A block is counted: 64 valid sync headers in a row give lock, 16 errors among 64 blocks take it (R226). -/
def LaneRx.note (x : LaneRx) (valid err : Bool) : LaneRx :=
  if x.lock then
    let l := (err :: x.last).take 64
    if 16 ≤ (l.filter (fun e => e)).length then { LaneRx.init with scr := x.scr } else { x with last := l }
  else
    let n := if valid then x.good + 1 else 0
    { x with good := n, last := [], lock := decide (64 ≤ n) }
/-- A block arrives at a lane as it is on the line; a lane with lock passes it on, descrambled. -/
def LaneRx.block (x : LaneRx) (b : Blk) : LaneRx × Option Blk :=
  let (d, scr) := descramble x.scr b.payload
  let c : Blk := { b with payload := d }
  let y := { x with scr := scr }.note c.valid c.error
  (y, if x.lock then some c else none)

/-! ## Control blocks (R447) -/

/-- What a control block says. -/
inductive Ctl
  | idle
  | train (port : BitVec 8) (owner ack : Bool) (lane : BitVec 2) (version : BitVec 16)
  | align (lane : BitVec 2)
  | start (hdr : DWord)
  | fin (crc : Word)
  | link (kind : BitVec 4) (seq : BitVec 12) (cls : BitVec 4) (count : BitVec 16)
  deriving DecidableEq, Repr
/-- The payload of a control block. -/
def Ctl.payload : Ctl → DWord
  | .idle => 0x1E
  | .train port owner ack lane version =>
    BitVec.ofNat 64 (0x2D + place 8 8 port.toNat + place 16 1 (b2n owner) + place 17 1 (b2n ack) + place 24 2 lane.toNat +
      place 32 16 version.toNat)
  | .align lane => BitVec.ofNat 64 (0x4B + place 8 2 lane.toNat)
  | .start hdr => BitVec.ofNat 64 (0x55 + place 8 56 (fld hdr 63 8))
  | .fin crc => BitVec.ofNat 64 (0x66 + place 8 32 crc.toNat)
  | .link kind seq cls count =>
    BitVec.ofNat 64 (0x78 + place 8 4 kind.toNat + place 12 12 seq.toNat + place 24 4 cls.toNat + place 28 16 count.toNat)
/-- The control block of a payload; none of an unknown type. -/
def ctlOf (w : DWord) : Option Ctl :=
  match fld w 7 0 with
  | 0x1E => some .idle
  | 0x2D => some (.train (BitVec.ofNat 8 (fld w 15 8)) (bitOf w 16) (bitOf w 17) (BitVec.ofNat 2 (fld w 25 24))
      (BitVec.ofNat 16 (fld w 47 32)))
  | 0x4B => some (.align (BitVec.ofNat 2 (fld w 9 8)))
  | 0x55 => some (.start w)
  | 0x66 => some (.fin (w32 (fld w 39 8)))
  | 0x78 => some (.link (BitVec.ofNat 4 (fld w 11 8)) (BitVec.ofNat 12 (fld w 23 12)) (BitVec.ofNat 4 (fld w 27 24))
      (BitVec.ofNat 16 (fld w 43 28)))
  | _ => none
/-- The TRAIN block of a port's lane (R447, R449). -/
def trainOf (p l : Nat) (ack : Bool) : Blk :=
  ctlBlk (Ctl.train (BitVec.ofNat 8 p) (p == 0) ack (BitVec.ofNat 2 l) 0x0100).payload

/-! ## The lanes of a port (R446) -/

/-- The lane of block `i`. -/
def laneOfBlock (i : Nat) : Nat := i % 4
/-- Block `i` is its lane's ALIGN block: the first of the lane at or after a multiple of 65,536. -/
def isAlign (i : Nat) : Bool := decide (i % 65536 < 4)
/-- The `n` blocks from number `i` on, each with its lane, where `l` waits to be sent: a lane with nothing to send sends IDLE. -/
def deal : Nat → Nat → List Blk → List (Nat × Blk)
  | 0, _, _ => []
  | n + 1, i, l =>
    if isAlign i then (laneOfBlock i, ctlBlk (Ctl.align (BitVec.ofNat 2 (laneOfBlock i))).payload) :: deal n (i + 1) l
    else
      match l with
      | [] => (laneOfBlock i, ctlBlk Ctl.idle.payload) :: deal n (i + 1) []
      | b :: t => (laneOfBlock i, b) :: deal n (i + 1) t
/-- The receiver deskews lanes whose ALIGN blocks come within 32 blocks of one another. -/
def skewOk (arrivals : List Nat) : Bool := arrivals.all (fun a => arrivals.all (fun b => decide (a ≤ b + 32)))

/-! ## A packet as blocks (R451–R453) -/

/-- One bit of the reflected CRC-32. -/
def crcBit (c : Word) : Word := if bitOf c 0 then (c >>> 1) ^^^ 0xEDB88320 else c >>> 1
/-- `n` bits of it. -/
def crcBits : Nat → Word → Word
  | 0, c => c
  | n + 1, c => crcBits n (crcBit c)
/-- One byte of it. -/
def crcByte (c : Word) (b : Byte) : Word := crcBits 8 (c ^^^ b.setWidth 32)
/-- CRC-32 with the IEEE 802.3 polynomial, reflected, seeded with ones and inverted at the end (R453). -/
def crc32 (l : List Byte) : Word := ~~~ l.foldl crcByte 0xFFFFFFFF
/-- The bytes that a packet's CRC covers: the 7 header bytes, then those of the data words. -/
def crcSpan (hdr : DWord) (words : List DWord) : List Byte := (bytesOf64 hdr).drop 1 ++ bytesOfDwords words
/-- The START block's payload (R451). -/
def HPkt.header (k : HPkt) : DWord :=
  (Ctl.start (BitVec.ofNat 64 (place 8 4 k.typ.toNat + place 12 12 k.seq.toNat + place 24 6 k.words.length + place 32 8 k.tag.toNat +
    place 40 4 k.status.toNat + place 48 16 k.arg.toNat))).payload
/-- A packet: a START block, its data blocks, an END block (R451). -/
def HPkt.blocks (k : HPkt) : List Blk :=
  ctlBlk k.header :: k.words.map dataBlk ++ [ctlBlk (Ctl.fin (crc32 (crcSpan k.header k.words))).payload]
/-- The packet under way at a receiver: its header and its data words. -/
abbrev PktRx := Option (DWord × List DWord)
/-- What the blocks that arrive come to. -/
inductive BlkEvent
  | packet (hdr : DWord) (words : List DWord)
  | damaged
  | link (kind : BitVec 4) (seq : BitVec 12) (cls : BitVec 4) (count : BitVec 16)
  | train (ack : Bool)
  deriving DecidableEq, Repr
/-- A packet under way that cannot end well is discarded whole (R453). -/
def PktRx.broken : PktRx → List BlkEvent
  | some _ => [.damaged]
  | none => []
/-- A block arrives at a port (R451, R453): IDLE, LINK and ALIGN blocks may stand inside a packet, no other. -/
def PktRx.block (x : PktRx) (b : Blk) : PktRx × List BlkEvent :=
  if b.error then (none, x.broken)
  else if b.sync = 2 then
    match x with
    | none => (none, [])
    | some (h, l) => if l.length < fld h 29 24 then (some (h, l ++ [b.payload]), []) else (none, [.damaged])
  else
    match ctlOf b.payload with
    | some (.start h) => (some (h, []), x.broken)
    | some (.fin crc) =>
      match x with
      | none => (none, [])
      | some (h, l) => (none, if l.length = fld h 29 24 ∧ crc = crc32 (crcSpan h l) then [.packet h l] else [.damaged])
    | some (.link kind seq cls count) => (x, [.link kind seq cls count])
    | some (.train _ _ ack _ _) => (none, x.broken ++ [.train ack])
    | _ => (x, [])
/-- The request that a packet asks for (R452). `fill`: the last half of its last data word is filler. -/
def packetReq (fill : Bool) (hdr : DWord) (words : List DWord) : HReq :=
  let tag : Byte := BitVec.ofNat 8 (fld hdr 39 32)
  match fld hdr 11 8 with
  | 1 => .rd (some tag) words
  | 2 => .wr (some tag) words
  | 3 => .ply (some tag) (BitVec.ofNat 16 (fld hdr 63 48)) (if fill then (wordsOfDwords words).dropLast else wordsOfDwords words)
  | _ => .other (some tag)
/-- What the port does of what arrives (R450, R452–R455). Other KIND values are ignored. -/
def blkEvent (p : Nat) (fill : Bool) (e : BlkEvent) (s : State) : State :=
  match e with
  | .packet hdr words => hostPacket p (BitVec.ofNat 12 (fld hdr 23 12)) (packetReq fill hdr words) s
  | .damaged => crcError p s
  | .link kind seq cls count =>
    match kind.toNat with
    | 1 => linkAck p seq s
    | 2 => linkNak p seq s
    | 3 => linkCredit p cls.toNat count.toNat s
    | _ => s
  | .train ack => trainBlock p ack s
/-- The blocks of a port, in the order of their numbers, its ALIGN blocks among them, act on it. -/
def portBlocks (p : Nat) (fill : Bool) : PktRx → List Blk → State → State
  | _, [], s => s
  | x, b :: t, s =>
    let r := x.block b
    portBlocks p fill r.1 t (forEach r.2 (blkEvent p fill) s)

end Sys2Proof.Machine
end

