-- ==== Sys2Proof/WellFormed.lean ====
section
/-! DEFINITION. WellFormed: the relations between operands that the types of Syntax.lean do not say. A command that
fails its check is one the outside world cannot send. -/
namespace Sys2Proof

/-- The islands of R377: 0x1 lane 0–63, 0x2 host port 0–3, 0x4 pin bank 0–7; one each of 0x3 reel memory,
0x5 timebase, 0x6 always-on and 0x7 observation. -/
def Isl.ok (i : Isl) : Bool :=
  if i.code = 1 then true
  else if i.code = 2 then decide (i.index.val < 4)
  else if i.code = 4 then decide (i.index.val < 8)
  else decide (i.code ≠ 0 ∧ i.index.val = 0)

/-- A packet's data words number at most LEN's 34 (R451); they hold 68 ply words. -/
def dataWordsOk (words : List DWord) : Bool := decide (words.length ≤ 34)

/-- A command whose operands the outside world can produce. -/
def Instr.wellFormed : Instr → Bool
  | .policyEvaluation temps => decide (temps.length = 64)
  | .governorPeriod temps _ _ => decide (temps.length = 64)
  | .xingUnstable x => x.isl.ok
  | .pulseArrival x => x.isl.ok
  | .pulseDeliveryDone x => x.isl.ok
  | .islandClockStop i => i.ok
  | .wakeRequest i => i.ok
  | .crossingPresent i => i.ok
  | .hostRd _ _ _ words => dataWordsOk words
  | .hostWr _ _ _ words => dataWordsOk words
  | .hostPly _ _ _ _ words => decide (words.length ≤ 68)
  | .spiTransferEnd _ rx => decide (rx.length ≤ 64)
  | .i2cTransferEnd _ cause xferred rx => decide (rx.length ≤ 32 ∧ xferred.toNat ≤ 32 ∧ cause.toNat ≤ 5 ∧ cause.toNat ≠ 4)
  | .tileTestEnd failUnit => decide (failUnit.toNat ≤ 8)
  | .stretchTimeout _ xferred => decide (xferred.toNat ≤ 32)
  | .bypass code => decide (code ≠ 0x2 ∧ code ≠ 0x1)
  | _ => true

end Sys2Proof
end

