-- ==== Sys2Proof/Tests/Slice0.lean ====
section
/-! SUPPORT. Tests of the model: the WellFormed smoke, values computed by hand from the rules, and for each statement with
hypotheses a theorem `witness_<statement>` with concrete states and operands that meet them, clause by clause. -/
namespace Sys2Proof.Tests
open Sys2Proof Sys2Proof.Machine

set_option Elab.async false

/-! ## States -/

/-- A released part in Run whose tile 0 is mapped to itself. -/
def live : State :=
  { State.reset with
    fab := { FabSt.init with frozen := false, released := true },
    dst := { DstSt.init with map := [(0, 0x80000000)] },
    memory := { MemSt.init with initDone := true },
    ldr := { LdrSt.init with state := 4, cfgDone := true },
    pwr := { PwrSt.init with reset := 0 },
    time := { TimeSt.init with locked := true } }
/-- A state with configuration words given by their keys. -/
def withCfg (l : List (Nat × Word)) (s : State) : State := l.foldl (fun s e => s.setCfg e.1 e.2) s
/-- Tile 0 with cell 1 in the mode and with the used inputs of `ctl`, and constants on its first two inputs. -/
def cell1 (ctl : Word) : State := withCfg [(6, ctl), (257, 0xFEFD0000)] live
/-- Tile 0 whose hard block input slots 0 and 1 select the codes of `sel` and lead to the pins of `pins`. -/
def slots01 (sel pins : Word) : State := withCfg [(360, sel), (392, pins)] live
/-- The tile of `slots01` with the tile state `x`. -/
def withTile (x : TileSt) (s : State) : State := s.setTile 0 x
/-- A packet to tile 0. -/
def pkt (slot : BitVec 5) (op : BitVec 4) (ws : List Word) : Packet :=
  { dest := 0, slot := slot, op := op, tag := 5, src := 0, status := 0, dom := 0, vc := false, words := ws }
/-- Tile 0 with the packet `p` in its request buffer and RX in use. -/
def rxTile (p : Packet) : State :=
  withCfg [(456, 0x8108)] (withTile { TileSt.init with ifc := { TileIf.init with reqBuf := [p] } } live)
/-- Tile 0 that has offered the arrival word and the first word of `p` on RX. -/
def midRx (p : Packet) : State :=
  withCfg [(456, 0x8108)] (withTile { TileSt.init with ifc := { TileIf.init with rx := some { pkt := p, idx := 2 } } } live)
/-- An instance of one tile at tile 0. -/
def inst0 : Inst :=
  { base := 0, skein := 0, w := 1, h := 1, col := 0, row := 0, params := [], pinned := false, unmovable := false, nomove := false,
    pressure := false, failing := false, damaged := false, hintKind := 0, hint := 0, peers := [], lastReason := 0, kept := [],
    migrations := 0, p := 0, theta := 0, eta := 0, prevEta := 0, seen := 0, hopSum := 0, hopCnt := 0, keptCnt := 0 }
/-- A migration of that instance to (1, 0), at a step. -/
def mig (step : Nat) : Mig :=
  { base := 0, reason := 5, step := step, col := 1, row := 0, oldCol := 0, oldRow := 0, start := 0, port := none, pinAfter := none, test := none }
/-- The live part with that instance, and with that migration. -/
def withInst (m : Option Mig) : State := { live with dst := { live.dst with insts := [inst0], mig := m } }
/-- Tile 0 with the words `l` in its queue 0, whose head has been presented. -/
def queued (l : List (BitVec 36)) : State :=
  let q : HQ (BitVec 36) := HQ.empty
  withTile { TileSt.init with q0 := { q with items := l, wr := l.length, wr2 := l.length }, shown0 := true } live
/-- A tile whose queue 0 is full, its head offered or not. -/
def fullQ (shown : Bool) : TileSt :=
  let q : HQ (BitVec 36) := HQ.empty
  { TileSt.init with q0 := { q with items := List.replicate 32 0 }, shown0 := shown }
/-- A part with the packet `p` assembled at the injection port of tile 0. -/
def sending (p : Packet) : State := { live with ply := { PlySt.init with lanes := [(32, { flits := [], rest := [], out := [p] })] } }
/-- A part with the flits of `p` in the injection port of tile 0, bound for exit `e`. -/
def inFlight (p : Packet) (e : Nat) : State :=
  { live with ply := { PlySt.init with lanes := [(32, { flits := flitsOf p e, rest := [], out := [] })] } }
/-- A part whose hold queue at tile 0 parks `p`. -/
def parked (p : Packet) : State := { live with ply := { PlySt.init with hold := [(16, { pkts := [p], wait := none })] } }
/-- A part whose bundle ring at the first attachment of reel group 0 brings the last flit of `p`. -/
def arriving (p : Packet) : State :=
  { live with ply := { PlySt.init with ring := [(2, ((flitsOf p 2).drop 1).map (fun f => { flit := f, vc := false, dom := 0 }))],
                                       asm := [(16, (flitsOf p 2).take 1)] } }
/-- A state with registers at given values. -/
def withRegs (l : List (Reg × Nat × Word)) (s : State) : State := l.foldl (fun s e => s.setReg e.1 e.2.1 e.2.2) s
/-- A request of a gateway of reel group 0, of 8 bytes at address 0 with the operation and the data words. -/
def memReq (op : BitVec 4) (ws : List Word) : State :=
  withRegs [(.memDomArea, 0, 1)]
    { live with ply := { PlySt.init with inbox := [(16, [{ pkt 0 op ([0, 8] ++ ws) with dest := 0x1040 }])] } }
/-- The live part with other contents of reel memory's block. -/
def withMem (f : MemSt → MemSt) : State := { live with memory := f live.memory }
/-- The live part at a tick. -/
def atTime (t : Tick) : State := { live with time := { live.time with count := t } }
/-- The live part with lane 0 as given. -/
def withLane (x : LaneSt) (s : State) : State := { s with lanes := [(0, x)] }
/-- A lane in RUN with block lock. -/
def laneRun : LaneSt := { LaneSt.init with state := 3, lock := true, cdr := true }
/-- The state of lane 0 after a block `payload` is descrambled and noted. -/
def noted (payload : DWord) (ok : Bool) (s : State) : State :=
  let x := lane s 0
  tally 1 0 1 (s.setLane 0 ({ x with scr := (descramble x.scr payload).2, cdr := true }.note ok (!ok)))
/-- Spool 0 with one segment at position 0. -/
def spool0 (f : SpoolSt → SpoolSt) (s : State) : State :=
  { s with spl := { s.spl with spools := [(0, f { SpoolSt.init with size := 1, segs := [0] })] } }
/-- A lane whose writer's buffer holds an event of spool 0. -/
def writing : State :=
  let q : HQ (List WRec) := HQ.empty
  withLane { laneRun with wq := { q with items := [[.event 0 512 1 false]], wr := 1, wr2 := 1 } } (spool0 id live)
/-- All banks' VIOB good, and pins at functions. -/
def withPins (l : List (Nat × Word)) : State :=
  withRegs (l.map (fun e => (.pinCfg, e.1, e.2))) { live with pins := { live.pins with viobOk := List.range 8 } }
/-- A read of word 0 that waits at bank 0 for the first reel gateway, of domain 0. -/
def oneReq (m : MemSt) : MemSt := { m with banks := [(0, { BankSt.init with reqs := [({ op := 0, word := 0, mask := 0xFF, data := 0 }, 64, 1)] })] }
/-- A pulse crossing into pin bank 0, one into observation, and the live part with the first in another state. -/
def xid25 : XId := { isl := { code := 4, index := 0 }, kind := 2, out := false, sub := 0 }
/-- A helper of the witnesses. -/
def xid8 : XId := { isl := { code := 7, index := 0 }, kind := 2, out := false, sub := 0 }
/-- A helper of the witnesses. -/
def withXing (f : XingSt → XingSt) : State := { live with xng := { live.xng with xings := [(xidKey xid25, f XingSt.init)] } }
/-- The live part with an event in the queue of channel 0. -/
def chanFull : State :=
  let q : HQ ChEnt := HQ.empty
  live.setChan 0 { chan live 0 with q := { q with items := [{ time := 512, kind := 1, order := false }], wr := 1, wr2 := 1 } }
/-- A helper of the witnesses. -/
def halfSpool : State := spool0 (fun x => { x with half := some 7 }) live
/-- The live part with sense pin 0 captured, its filter window as given. -/
def sensing (o : Option (Tick × Bool)) : State :=
  { withPins [(pinOfSense 0, 0x40000000)] with pins := { (withPins []).pins with sense := [(0, { open_ := o, capture := true })] } }
/-- The live part with an event in the queue of sense pin 0, with a subscription or without. -/
def senseFull : State :=
  let q : HQ ChEnt := HQ.empty
  (withRegs [(.timeSenseSub, 0, 0x80000000)] live).setChan 2048 { chan live 2048 with q := { q with items := [{ time := 512, kind := 1, order := false }], wr := 1, wr2 := 1 } }
/-- The live part with `n` samples in the queue of quadrature counter 0, and its subscription word. -/
def qdFull (n : Nat) (sub : Word) : State :=
  let q : HQ (Word × Word × Tick) := HQ.empty
  let s := withRegs [(.timeQdSub, 0, sub)] live
  s.setQd 0 { qd s 0 with q := { q with items := List.replicate n (1, 2, 512), wr := n % 8, wr2 := n % 8 } }
/-- Quadrature counter 0 enabled with the configuration word, its inputs at pins 0 and 1 with good VIOB, its index at pin 2. -/
def qdOn (cfg : Word) : State := withRegs [(.timeQdCfg, 0, cfg)] (withPins [(0, 0x80000000), (1, 0x80200000), (2, 0x80400000)])
/-- Spool 0 is configured and port 0 has issued the spool command `ws`. -/
def cmd0 (ws : List Word) : SplCmd := { dom := 0, words := ws, pkt := none }
/-- A helper of the witnesses. -/
def commanded (f : SpoolSt → SpoolSt) (ws : List Word) : State :=
  let s := spool0 f live
  { s with spl := { s.spl with queue := [{ src := 4, time := 0, cmd := cmd0 ws }] } }
/-- An export of spool 0 to port 0. -/
def exp0 : ExpSt :=
  { port := 0, follow := true, endTime := false, stop := 0, hash := false, run := 0, seg := none, bytes := [], lapped := false, sent := 0,
    skip := none, closing := none, final := none }
/-- The words of commands that need a position: at W (WHERE 0). -/
def slotStartWs : List Word := [0x01000000, 0, 0, 0, 0, 0]
/-- A helper of the witnesses. -/
def ready (code : Nat) (f : SpoolSt → SpoolSt) (ws : List Word) : Bool :=
  let s := commanded f ws
  memLive s && !s.xng.stopped.contains 192 && splWaiting s (.host 0) == some (cmd0 ws) && (cmdForm (cmd0 ws)).isNone &&
    cmdOf (cmd0 ws) == code && !resizing s 0 && splCheck s (cmd0 ws) == stOk &&
    ((spoolGroups (spoolOf s (cmdSpool (cmd0 ws)))).filter (retained s)).isEmpty
/-- Whether the position of the command resolves. -/
def placed (f : SpoolSt → SpoolSt) (ws : List Word) : Bool :=
  match cmdPos (cmd0 ws) (splTake (.host 0) (commanded f ws)) with
  | (.ok _, _) => true
  | (.error _, _) => false
/-- A slot that follows spool 0, which has 64 bytes written. -/
def follower : SlotSt := { SlotSt.init with state := 2, follow := true }
/-- A helper of the witnesses. -/
def reader : State := spool0 (fun x => { x with w := 64, slots := [(0, follower)] }) live
/-- Port 0 in ACTIVE with credit in every class. -/
def active (s : State) : State :=
  s.setPort 0 { port s 0 with state := 5, credits := [(0, 9), (1, 9), (2, 9), (3, 9), (4, 9)], reqCredit := 9 }
/-- A request of pin gateway 0 with operation `op`. -/
def pinReq (op : BitVec 4) (ws : List Word) : Packet := { pkt 0 op ws with dest := 0x1050 }
/-- A helper of the witnesses. -/
def gated (s : State) (p : Packet) : State := { s with ply := { s.ply with inbox := [(laneKey (portOf s (.pin 0) 0) false 0, [p])] } }
/-- A load whose image has the header flags `flags` and then the words `ws`, of which the first is to be acted on. -/
def imgLoad (flags : Word) (sec : Nat) (ws : List Word) : Load :=
  { Load.init with img := [0, 0, w32 (16 + ws.length), flags] ++ List.replicate 12 0 ++ ws, pos := 16, section_ := sec, placed := true }
/-- A helper of the witnesses. -/
def loading (l : Load) : State := { live with ldr := { live.ldr with state := 2, load := some l } }
/-- Whether the load's next command is `op` and may act. -/
def loadReady (op : Nat) (l : Load) : Bool :=
  mayAct l && (headError l).isNone && (loading l).memory.initDone &&
    match takeCmd l with
    | some (c, _) => opOf c.word == op
    | none => false
/-- A skein of one tile, and a load that has declared it. -/
def skein0 : SkeinDef := { index := 0, w := 1, h := 1, nomove := false, slots := [] }
/-- A helper of the witnesses. -/
def lcmd (w : Word) (ws : List Word) : LCmd := { off := 16, word := w, payload := ws }
/-- Port 0 in a state of the link. -/
def portAt (f : PortSt → PortSt) : State := live.setPort 0 (f (port live 0))
/-- Port 0 in ACTIVE with an RSP and a notification queued and a packet in mailbox 0. -/
def sendingPort : State :=
  let q : HQ Rsp := HQ.empty
  let n : HQ Nat := HQ.empty
  let x : PortSt := { port (active live) 0 with rspq := { q with items := [{ tag := 1, status := 0, words := [], after := none }], wr := 1, wr2 := 1 } }
  ((active live).setPort 0 { x with ntfq := { n with items := [0], wr := 1, wr2 := 1 } }).setMbox 0 0
    { Mbox.init with inb := [{ pkt := pkt 0 0 [], exit := 0, sent := none }] }
/-- A packet for mailbox 0 of port 0 that waits at the port's first attachment. -/
def forMbox : State :=
  { live with ply := { PlySt.init with inbox := [(laneKey (portOf live (.mbox 0 0) 0) false 0, [{ pkt 0 0 [] with dest := 0x1080 }])] } }
/-- A helper of the witnesses. -/
def withSec (f : SecSt → SecSt) : State := { live with sec := f live.sec }
/-- A helper of the witnesses. -/
def withFuses (f : FuseSt → FuseSt) : State := withSec (fun x => { x with fuses := f x.fuses })
/-- A helper of the witnesses. -/
def withPwr (f : PwrSt → PwrSt) : State := { live with pwr := f live.pwr }
/-- A full load from a port is running. -/
def fullLoad : State := { live with ldr := { live.ldr with state := 1, load := some Load.init } }
/-- The live part with a read of counters k to k + n − 1 at the observation block's attachment. -/
def cntReq (k n : Word) : State :=
  { live with ply := { PlySt.init with inbox := [(laneKey (portOf live .obs 0) false 0, [{ pkt 0 2 [k, n] with dest := 0x1059 }])] } }
/-- The scrubber on. -/
def scrubOn : State := withRegs [(.scrubCfg, 0, 0x80000000)] live
/-- An Open part whose image was signed with the key whose hash KEY_ARG names. -/
def signedOpen : State := { live with ldr := { live.ldr with signed := true, modHash := List.replicate 32 0 } }
/-- An Owned part with two key slots that runs an image of a higher rollback count. -/
def ownedTwo : State :=
  let s := withSec (fun x => { x with slotUsed := some 0, fuses := { x.fuses with owned := true, slots := [(0, []), (1, [])] } })
  { s with ldr := { s.ldr with rollback := 1 } }
/-- Tile 9 on the runtime retirement list. -/
def retired9 : State := { live with dst := { live.dst with retRt := [{ tile := 9, cause := 0 }] } }
/-- A modulus that is a prime of 3,072 bits, so that its own signatures can be computed by hand, and the RSASSA-PSS signature under it
of the header of `imgLoad 0x80000000` with 193 words and an empty salt of 32 zero bytes. -/
def testModulus : List Byte := beBytes 384 (2 ^ 3071 + 2 ^ 3070 + 1319)
/-- A helper of the witnesses. -/
def testSig : List Byte := beBytes 384
  0x86b4a8ad6a7b7ba722d086bc2b934db6f70d95d87defff15ec224353670f74cc7bb93042fad89c54bbe2c7441443593ef7e503e2e1ebc91674261eb575f84087218fc2ecaf9bc16cb666622f48d45a80e8f69d42d23043fd7aed8b2dc9b0cbd4a335cc8893f4bd70701dee72b1068c18c946e94308d0d58783e4d08e622321904f35afcaa4a29ece42c94d80d326d90faf07eeee8e55fe411cfd1416ed30b87a07b3a02b5cb69d6932032ad7d4b9272bcc322fd915eb46ce0910b5d6c399abcd7181dce436f297adbff996a096e9aa155106e2f3e9abdbcc3e277cd17692ee2fa256c74d29cd02e2e6c433e6b8dccddf6c1d62acb9ce96d4b3ada4eb586edaf2ad09e49a6826b05f80aab1ec46f025fc35e12a6704a346cf2ef248525d02791079bd829257f3d6090837b1669a71cb1872a5bbb4dea1fff6223bc9a31053241b531897b5fd60cc03bd616a1de5084c9836dedb5d295e0b7f60f05804ca61037c4a9245abf1df8662c54dff44a1f052557e26629bc659223102374d9d938092d5
/-- A helper of the witnesses. -/
def sigWs : List Word := wordsOfBytes testModulus ++ wordsOfBytes testSig
/-- The words of an epoch of one word of ciphertext under the key of 32 zero bytes, with the tag that AES-256-GCM gives it. -/
def epochWs : List Word := [0, 0, 0, 0, 1, 0, 0x526c3195, 0xd609b897, 0xbb99823e, 0x69455509]
/-- A response to the first request of mailbox 0 of port 0 that waits at the port's first attachment. -/
def respMbox : State :=
  { live with ply := { PlySt.init with inbox := [(laneKey (portOf live (.mbox 0 0) 0) true 0, [{ pkt 0 0 [] with dest := 0x1080, vc := true }])] } }
/-- Spool 0 is to be resized to one segment. -/
def closing (f : MemSt → MemSt) : State :=
  let s := spool0 (fun x => { x with resizing := some (1, cmd0 [0x30000000, 1]) }) live
  { s with memory := f s.memory }
/-- The live part at a tick at or after edge `t / 2 ^ 20`, whose pulse has gone out. -/
def emittedAt (t : Tick) : State := { atTime t with time := { (atTime t).time with emitted := some (t.toNat / 2 ^ 20) } }
/-- A transfer of a host with the control word. -/
def xfer (ctl : Word) : XferSt := { ctl := ctl, fabric := none, discard := false, deaf := false, held := none }
/-- The live part with a read that waits at the bank that holds the first record of port 0's notification queue. -/
def recordWaits : State :=
  withMem (fun m => { m with banks := [(bankOf (0x1FD00000 / 8), { BankSt.init with reqs := [({ op := 0, word := 0x1FD00000 / 8, mask := 0xFF, data := 0 }, 64, 1)] })] })
/-- Port 0 in ACTIVE with `n` requests in its queue and `m` responses waiting to be sent. -/
def reqsAt (n m : Nat) : State :=
  let q : HQ HReq := HQ.empty
  let r : HQ Rsp := HQ.empty
  (active live).setPort 0 { port (active live) 0 with
    reqq := { q with items := List.replicate n (.rd (some 1) [0]) },
    rspq := { r with items := List.replicate m { tag := 1, status := 0, words := [], after := none } } }
/-- Port 0 in a state of the link with lanes locked. -/
def lockedAt (state step : Nat) (l : BitVec 4) : State := portAt (fun x => { x with state := state, step := step, locked := l })
/-- The live part in Doze. -/
def dozing (f : PwrSt → PwrSt) : State := withPwr (fun x => f { x with state := 2, entering := none })
/-- A load from port 1 in section 3. -/
def inSection3 (placed : Bool) : Load := { Load.init with port := some 1, section_ := 3, placed := placed }

/-! ## Witnesses: for each statement, states and operands that meet its hypotheses -/

/-- The hypotheses of Resets, clause by clause. -/
theorem witness_Resets :
    (State.reset.pwr.reset = 2 ∧ live.pwr.reset ≠ 2 ∧ (withPwr (fun x => { x with reset := 1 })).pwr.reset = 1) ∧
    (fld (0xA5C30002 : Word) 31 16 = 0xA5C3 ∧ bitOf (0xA5C30002 : Word) 1 = true) ∧
    (bitOf (0xA5C30001 : Word) 1 = false ∧ bitOf (0xA5C30001 : Word) 0 = true ∧ coreLive live = true) ∧
    (live.pwr.state = 0) :=
  by refine ⟨?_, ?_, ?_, ?_⟩ <;> decide +kernel
/-- The hypotheses of TenantsAreDenied, clause by clause. -/
theorem witness_TenantsAreDenied :
    (3 : Fin 4) ≠ 0 ∧ beforeRelease live = false :=
  by decide +kernel
/-- The hypotheses of BusyBeforeRelease, clause by clause. -/
theorem witness_BusyBeforeRelease :
    beforeRelease fullLoad = true :=
  by decide +kernel
/-- The hypotheses of RegisterWrites, clause by clause. -/
theorem witness_RegisterWrites :
    (regAt 0 = none) ∧
    (regAt 0x70B0100C = some (.laneEye, 0, 0) ∧ (servedBlock (Reg.laneEye).block || !beforeRelease live) = true ∧ isDesc .laneEye = false ∧ hasSetting .laneEye = true ∧
    settingStatus live 0 .laneEye 0 0 0xFFFF = stOk) ∧
    ((0x7000000C : Word).toNat = (Reg.sysNotifyMask).addr 0 0 ∧ (0x70F00004 : Word).toNat = (Reg.obsNotifyMask).addr 0 0) ∧
    ((0x70B0100E : Word).toNat % 4 ≠ 0 ∧ (0x70B0100C : Word).toNat % 4 = 0) ∧
    ((if servedBlock (Reg.laneEye).block then live else toBlock .laneEye 0 live) = wakeIsl 1 0 live ∧
    settingStatus (wakeIsl 1 0 live) 0 .laneEye 0 0 0xFFFF = stOk) :=
  by refine ⟨?_, ?_, ?_, ?_, ?_⟩ <;> decide +kernel
/-- The hypotheses of NotificationQueue, clause by clause. -/
theorem witness_NotificationQueue :
    ((live.regP 0 .hlkNtfWptr 0 0 - live.regP 0 .hlkNtfRptr 0 0).toNat < 8192) ∧
    (8192 ≤ ((live.setRegP 3 .hlkNtfWptr 0 0 8192).regP 3 .hlkNtfWptr 0 0 - (live.setRegP 3 .hlkNtfWptr 0 0 8192).regP 3 .hlkNtfRptr 0 0).toNat) ∧
    (memLive live = true ∧ earlyOf live 0 = 0 ∧ memLive State.reset = false ∧
    (State.reset.regP 3 .hlkNtfWptr 0 0 - State.reset.regP 3 .hlkNtfRptr 0 0).toNat + earlyOf State.reset 3 < 8192) ∧
    ((List.range 4).all (fun i => waitingMasters live (bankOf ((0x1FD00000 + 0 * 0x40000 + 0 % 8192 * 32) / 8 + i)) == []) = true) ∧
    (memLive recordWaits = true ∧ earlyOf recordWaits 0 = 0 ∧ recordWaits.memory.test = none ∧
    waitingMasters recordWaits (bankOf ((0x1FD00000 + 0 * 0x40000 + 0 % 8192 * 32) / 8)) ≠ []) :=
  by refine ⟨?_, ?_, ?_, ?_, ?_⟩ <;> decide +kernel
/-- The hypotheses of LogicCells, clause by clause. -/
theorem witness_LogicCells :
    (running (cell1 0x20) 0 = true ∧ cellMode (cell1 0x20) 0 1 = 0 ∧ inputsReady (cell1 0x20) 0 1 = true ∧ latchReady (cell1 0x20) 0 1 = true) ∧
    (cellMode (cell1 0x61) 0 1 = 1 ∧ latchReady (cell1 0x61) 0 1 = true ∧ mergeSide (cell1 0x61) 0 1 = some (0, true)) ∧
    (cellMode (cell1 0x62) 0 1 = 2 ∧ latchReady (cell1 0x62) 0 1 = true ∧ arbSide (cell1 0x62) 0 1 false = some (0, true)) ∧
    (tokenOn (cell1 0x62) 0 6 = some true ∧ tokenOn (cell1 0x62) 0 7 = some false ∧
    (tileSt (withTile { TileSt.init with arbWait := [7] } (cell1 0x62)) 0).arbWait.contains (6 * 1 + 1) = true ∧
    (tileSt (withTile { TileSt.init with arbWait := [7] } (cell1 0x62)) 0).arbWait.contains (6 * 1 + 0) = false) ∧
    (cellMode (cell1 3) 0 1 = 3 ∧ latchReady (cell1 3) 0 1 = true) ∧
    (cellMode (cell1 0x24) 0 1 = 4 ∧ inputsReady (cell1 0x24) 0 1 = true) :=
  by refine ⟨?_, ?_, ?_, ?_, ?_, ?_⟩ <;> decide +kernel
/-- The hypotheses of HardBlocks, clause by clause. -/
theorem witness_HardBlocks :
    (running (slots01 0xFD 0x802B) 0 = true ∧ ramWaiting (slots01 0xFD 0x802B) 0 false = some (0, 0, true) ∧
    ramDue (slots01 0xFD 0x802B) 0 false false (0, 0, true) = true) ∧
    (ramWaiting (slots01 0xFE 0x802B) 0 false = some (0, 0, false) ∧ ramDue (slots01 0xFE 0x802B) 0 false false (0, 0, false) = true ∧
    (tileSt (slots01 0xFE 0x802B) 0).ramBad.contains 0 = false) ∧
    (bundle (slots01 0xFD 0x8058) 0 88 39 = some 1) ∧
    (bundle (slots01 0xFD 0x80A6) 0 166 36 = some 1 ∧ tileQOk (slots01 0xFD 0x80A6) 0 0 = true ∧ (tileQ (slots01 0xFD 0x80A6) 0 0).items.length < 32) ∧
    (bitOf (hbMode (withCfg [(504, 1)] live) 0) 0 = true ∧ (tileQ (queued (List.replicate 32 0)) 0 0).items.length = 32 ∧
    tileQOk (queued (List.replicate 32 0)) 0 0 = true) ∧
    (bundle (withTile (fullQ false) (withCfg [(504, 1)] (slots01 0xFD 0x80A6))) 0 166 36 = some 1 ∧
    headTaken (withTile (fullQ false) (withCfg [(504, 1)] (slots01 0xFD 0x80A6))) 0 (outQ (withTile (fullQ false) (withCfg [(504, 1)] (slots01 0xFD 0x80A6))) 0 0) = false ∧
    tileQOk (withTile (fullQ false) (withCfg [(504, 1)] (slots01 0xFD 0x80A6))) 0 0 = true) ∧
    ((tileQ (queued [7]) 0 0).items = [7] ∧ headTaken (queued [7]) 0 0 = true ∧ tileQOk (queued [7]) 0 0 = true) ∧
    (constDue (withTile { TileSt.init with constIdle := [6] } live) 0 6 = true) ∧
    (tileQOk (withTile { TileSt.init with q1 := { (HQ.empty : HQ (BitVec 36)) with wr := 1 } } live) 0 1 = false) ∧
    ((tileSt (slots01 0xFE 0x802B) 0).ramBad.contains 0 = false ∧ (winWaiting (slots01 0xFE 0x802B) 0).isSome = false) :=
  by refine ⟨?_, ?_, ?_, ?_, ?_, ?_, ?_, ?_, ?_, ?_⟩ <;> decide +kernel
/-- The hypotheses of FabricFrame, clause by clause. -/
theorem witness_FabricFrame :
    tileQOk live 0 0 = true :=
  by decide +kernel
/-- The hypotheses of RxWords, clause by clause. -/
theorem witness_RxWords :
    (0 ≤ (pkt 1 0 [1, 2]).words.length ∧ 2 ≤ (pkt 1 0 [1, 2]).words.length ∧ rxWord (pkt 1 0 [1, 2]) 2 = 2 + 2 ^ 32 + 2 ^ 33) ∧
    (running (midRx (pkt 1 0 [1, 2])) 0 = true ∧ rxEnabled (midRx (pkt 1 0 [1, 2])) 0 = true ∧ resultFree (midRx (pkt 1 0 [1, 2])) 0 232 39 = true ∧
    (tileSt (midRx (pkt 1 0 [1, 2])) 0).ifc.rx = some { pkt := pkt 1 0 [1, 2], idx := 2 }) :=
  by refine ⟨?_, ?_⟩ <;> decide +kernel
/-- The hypotheses of TilePorts, clause by clause. -/
theorem witness_TilePorts :
    (txEnabled (slots01 0xFE00 0x810E0000) 0 = true ∧ bundle (slots01 0xFE00 0x810E0000) 0 238 33 = some 0 ∧
    logicalAt (slots01 0xFE00 0x810E0000) 0 = some 0) ∧
    (txEnabled (slots01 0xFD00 0x810E0000) 0 = true ∧ bundle (slots01 0xFD00 0x810E0000) 0 238 33 = some (2 ^ 32) ∧
    assembled (slots01 0xFD00 0x810E0000) 0 < 2 ∧ (packetOf (w32 (2 ^ 32)) 0 0 []).op.toNat < 7) ∧
    (rxEnabled (rxTile (pkt 1 0 [])) 0 = true ∧ resultFree (rxTile (pkt 1 0 [])) 0 232 39 = true ∧
    (rxNext (tileSt (rxTile (pkt 1 0 [])) 0).ifc).isSome = true) ∧
    ((winStart (rxTile (pkt 31 3 [0x20000, 1, 2])) 0).map (·.1.idx) = some 0 ∧ winOk (pkt 31 3 [0x20000, 1, 2]) = true ∧
    winDue (rxTile (pkt 31 3 [0x20000, 1, 2])) 0 false 0 true = true ∧ 0 + 1 < winWords (pkt 31 3 [0x20000, 1, 2])) ∧
    ((winStart (rxTile (pkt 31 2 [0x20000])) 0).map (·.1.idx) = some 0 ∧ winOk (pkt 31 2 [0x20000]) = true ∧
    winDue (rxTile (pkt 31 2 [0x20000])) 0 false 0 false = true ∧ 0 + 1 < winWords (pkt 31 2 [0x20000])) ∧
    (selOf live 0 6 ≠ 0xFF ∧ (tileSt live 0).railBad.contains 6 = false ∧ inputName live 0 6 = some 6 ∧ logicalAt live 0 = some 0) :=
  by refine ⟨?_, ?_, ?_, ?_, ?_, ?_⟩ <;> decide +kernel
/-- The hypotheses of PacketFlits, clause by clause. -/
theorem witness_PacketFlits :
    (pkt 1 0 [1, 2]).words.length ≤ 18 :=
  by decide +kernel
/-- The hypotheses of DimensionOrder, clause by clause. -/
theorem witness_DimensionOrder :
    (0 : Fin 4096).val ≠ 20479 / 5 ∧ (4095 : Fin 4096).val = 20479 / 5 ∧ (20479 : Nat) < 20480 :=
  by decide +kernel
/-- The hypotheses of Routers, clause by clause. -/
theorem witness_Routers :
    (coreLive (sending (pkt 31 2 [0x10000])) = true ∧ copyingPort (sending (pkt 31 2 [0x10000])) 4 = false ∧
    (plane (sending (pkt 31 2 [0x10000])) 32).out = [pkt 31 2 [0x10000]] ∧ (reserve (pkt 31 2 [0x10000]) (sending (pkt 31 2 [0x10000]))).isSome = true ∧
    injectStatus (sending (pkt 31 2 [0x10000])) (pkt 31 2 [0x10000]) = none ∧ mustPark (sending (pkt 31 2 [0x10000])) 4 (pkt 31 2 [0x10000]) = false) ∧
    ((List.range 4).any (laneReady (inFlight (pkt 31 2 [0x10000]) 4) 0 4 false) = true ∧
    (List.range 4).any (laneReady (inFlight (pkt 31 2 [0x10000]) 4) 0 4 true) = false ∧
    (roundPick (inFlight (pkt 31 2 [0x10000]) 4) (fun d => (outArb (inFlight (pkt 31 2 [0x10000]) 4) 4).left.get 0 d)
    (laneReady (inFlight (pkt 31 2 [0x10000]) 4) 0 4 false)).map (·.1) = some 0 ∧
    inputFor (inFlight (pkt 31 2 [0x10000]) 4) 0 4 false 0 = some 4 ∧ (headFor (inFlight (pkt 31 2 [0x10000]) 4) 0 4 4 false 0).isSome = true) ∧
    ((holdQ (parked (pkt 31 2 [0x10000])) 4 0).pkts = [pkt 31 2 [0x10000]] ∧ target 0 = .tile 0 ∧ fenced (parked (pkt 31 2 [0x10000])) 0 = false ∧
    injectStatus (parked (pkt 31 2 [0x10000])) (pkt 31 2 [0x10000]) = none) ∧
    (attachedAt 2 = some (.mem 0, 0) ∧ (ring (arriving (pkt 0 2 [1])) 2).length = 1 ∧ (ring (arriving (pkt 0 2 [1])) 2).all (fun e => e.flit.tail) = true ∧
    attachFull (arriving (pkt 0 2 [1])) 2 (.mem 0) false = false ∧
    packetFrom (asmOf (arriving (pkt 0 2 [1])) 16 ++ (ring (arriving (pkt 0 2 [1])) 2).map (·.flit)) = some (pkt 0 2 [1])) :=
  by refine ⟨?_, ?_, ?_, ?_⟩ <;> decide +kernel
/-- The hypotheses of MigrationSteps, clause by clause. -/
theorem witness_MigrationSteps :
    (instAt (withInst (some (mig 0))) 0 = some inst0 ∧ edgesApart (withInst (some (mig 0))) (rect 1 1 1 0) = true) ∧
    (quiescent (withInst (some (mig 2))) inst0 = true ∧ (withInst (some (mig 4))).scrub.state ≠ 2) ∧
    (quiescent { withInst (some (mig 2)) with ply := (inFlight (pkt 31 2 [0x10000]) 4).ply } inst0 = false) ∧
    (((instTiles inst0).foldl (fun (a : Bool × State) t => ((a.1 && (readSource t a.2).1), (readSource t a.2).2)) (true, withInst (some (mig 4)))).1 = true) ∧
    (({ withInst (some (mig 4)) with scrub := { ScrubSt.init with state := 2 } }).scrub.state = 2 ∧
    instAt { withInst (some (mig 4)) with scrub := { ScrubSt.init with state := 2 } } 0 = some inst0 ∧ (mig 6).test = none ∧ (mig 6).pinAfter = none) :=
  by refine ⟨?_, ?_, ?_, ?_, ?_⟩ <;> decide +kernel
/-- The hypotheses of DistaffCommands, clause by clause. -/
theorem witness_DistaffCommands :
    (beforeRelease (withInst none) = false ∧ dstBusy (withInst none) 0 = false ∧ mayCommand (withInst none) 0 0 = true ∧ instAt (withInst none) 0 = some inst0) ∧
    ((migrateCheck ((withInst none).setRegP 0 .dstCmdArg 0 0 0x40) inst0 0x40).2.isSome = true ∧ (migrateCheck (withInst none) inst0 0x40).1 = stOk) ∧
    (retired live 7 = false ∧ live.dst.retRt.length < 256) ∧
    (live.sec.fuses.retired.contains 7 = false ∧
    { live.dst with retRt := [{ tile := 7, cause := 0 }] }.retRt.any (fun e => e.tile == 7) = true) :=
  by refine ⟨?_, ?_, ?_, ?_⟩ <;> decide +kernel
/-- The hypotheses of PolicyAndCollision, clause by clause. -/
theorem witness_PolicyAndCollision :
    colliding (withCfg [(505, 1), (3065, 0x10000)] live) 0 0 = true ∧ coreLive live = true ∧ live.dst.mig = none :=
  by decide +kernel
/-- The hypotheses of MemGateways, clause by clause. -/
theorem witness_MemGateways :
    (nextReqIf (gwGoes (memReq 2 []) 0) (memReq 2 []) (portOf (memReq 2 []) (.mem 0) 0) = some { pkt 0 2 [0, 8] with dest := 0x1040 } ∧
    gwRange 0 { pkt 0 2 [0, 8] with dest := 0x1040 } = true ∧ memAllowed (memReq 2 []) false 0 false 0 = true ∧ bankRoom (memReq 2 []) 64 1 0 8 = true) ∧
    (nextReqIf (gwGoes (memReq 3 [5, 6]) 0) (memReq 3 [5, 6]) (portOf (memReq 3 [5, 6]) (.mem 0) 0) = some { pkt 0 3 [0, 8, 5, 6] with dest := 0x1040 } ∧
    gwRange 0 { pkt 0 3 [0, 8, 5, 6] with dest := 0x1040 } = true ∧ memAllowed (memReq 3 [5, 6]) false 0 true 0 = true ∧
    bankRoom (memReq 3 [5, 6]) 64 1 0 8 = true) ∧
    (gwRange 0 (pkt 0 5 [0x3F, 1, 7]) = true ∧ gwRange 15 (pkt 0 6 [0x5FFFFFFC, 4, 7]) = true ∧ gwRange 0 (pkt 0 2 [0, 64]) = true ∧
    gwRange 0 (pkt 0 2 [0, 65]) = false) :=
  by refine ⟨?_, ?_, ?_⟩ <;> decide +kernel
/-- The hypotheses of MemoryBanks, clause by clause. -/
theorem witness_MemoryBanks :
    ((pickSlot (withMem oneReq) 0 none).map (·.master) = some 64 ∧ shadowTurn (withMem oneReq) 0 = none ∧ memLive (withMem oneReq) = true ∧
    (withMem oneReq).xng.stopped.contains 192 = false ∧ retained (withMem oneReq) 0 = false) ∧
    ((shadowTurn (withMem (fun m => { oneReq m with test := some { group := 0, bank := 0, region := 0, requested := false, slot := 0 } })) 0).map (·.master) = some 64) ∧
    ((withMem (fun m => { m with fixq := [(0, [0])] })).memory.fixq.get [] 0 = [0]) ∧
    (State.reset.memory.initDone = false) ∧
    ((bgRegion (withRegs [(.memCtl, 0, 0x80000000)] live) 17 0).isSome = true ∧ bitOf ((withRegs [(.memCtl, 0, 0x80000000)] live).reg .memCtl 0) 31 = true ∧
    live.memory.test = none) ∧
    ((withMem (fun m => { m with test := some { group := 0, bank := 0, region := 0, requested := false, slot := 0 } })).memory.test =
    some { group := 0, bank := 0, region := 0, requested := false, slot := 0 }) ∧
    ((withMem (fun m => { m with bankTest := some { group := 0, bank := 0, next := 8191, fails := 0, done := 8191 } })).memory.bankTest.map (·.next) = some 8191 ∧ live.memory.ret.contains 0 = false) ∧
    (2 ^ 20 ≤ ((atTime 0x100000).now - (atTime 0x100000).memory.lastUse.get 0 3).toNat) ∧
    ((withMem (fun m => { m with waking := [2], ret := [2] })).memory.waking.contains 2 = true ∧
    (withMem (fun m => { m with waking := [2], ret := [2] })).memory.banks = []) :=
  by refine ⟨?_, ?_, ?_, ?_, ?_, ?_, ?_, ?_, ?_⟩ <;> decide +kernel
/-- The hypotheses of MemoryCommands, clause by clause. -/
theorem witness_MemoryCommands :
    (beforeRelease live = false ∧ live.memory.bankTest = none ∧ live.memory.vret = false ∧ live.memory.ret.contains 0 = false) ∧
    ((withMem (fun m => { m with bankTest := some { group := 0, bank := 0, next := 0, fails := 0, done := 0 } })).memory.bankTest.isSome = true) ∧
    (live.xng.xings.any (fun e => valueOf 3 0 e.1 && (e.2.unstable || e.2.absent)) = false ∧ (83 : Fin 88).val = 80 + (3 : Fin 4).val) :=
  by refine ⟨?_, ?_, ?_⟩ <;> decide +kernel
/-- The hypotheses of CrossingEvents, clause by clause. -/
theorem witness_CrossingEvents :
    (keyKind (xidKey { isl := { code := 5, index := 0 }, kind := 1, out := true, sub := 0 }) = 1 ∧
    (xing live (xidKey { isl := { code := 5, index := 0 }, kind := 1, out := true, sub := 0 })).unstable = false) ∧
    (xid25.kind = 2 ∧ (xing (withXing (fun x => { x with absent := true })) (xidKey xid25)).absent = true) ∧
    ((xing live (xidKey xid25)).absent = false ∧ toStopped live (xidKey xid25) = false ∧ (xing live (xidKey xid25)).busy = false ∧ (xing live (xidKey xid25)).pending = 0) ∧
    ((xing (withXing (fun x => { x with busy := true })) (xidKey xid25)).absent = false ∧ toStopped (withXing (fun x => { x with busy := true })) (xidKey xid25) = false ∧
    (xing (withXing (fun x => { x with busy := true })) (xidKey xid25)).busy = true) ∧
    (toStopped { live with xng := { live.xng with stopped := [256] } } (xidKey xid25) = true) ∧
    (xingPin (xidKey xid8) = none ∧ (xing { live with xng := { live.xng with xings := [(xidKey xid8, { XingSt.init with busy := true })] } } (xidKey xid8)).busy = true) ∧
    ((xing { live with xng := { live.xng with xings := [(xidKey xid8, { XingSt.init with busy := true, pending := 3 })] } } (xidKey xid8)).pending ≠ 0) ∧
    (islandIdle live 7 0 = true) ∧
    (inReset live { code := 1, index := 63 } = false) :=
  by refine ⟨?_, ?_, ?_, ?_, ?_, ?_, ?_, ?_, ?_⟩ <;> decide +kernel
/-- The hypotheses of LaneBlocks, clause by clause. -/
theorem witness_LaneBlocks :
    (listening (lane (withLane laneRun live) 0) = true ∧ (lane (noted 0x78 true (withLane laneRun live)) 0).lock = true ∧
    (lane (noted 0x78 true (withLane laneRun live)) 0).state = 3 ∧ (lane (noted 0x78 true (withLane laneRun live)) 0).skip = false) ∧
    (blockType (descramble 0 0x78).1 = 0x78 ∧ blockType (descramble 0 0x33).1 = 0x33 ∧ blockType (descramble 0 0x2D).1 = 0x2D ∧
    blockType (descramble 0 0x1E).1 = 0x1E) :=
  by refine ⟨?_, ?_⟩ <;> decide +kernel
/-- The hypotheses of LaneFaults, clause by clause. -/
theorem witness_LaneFaults :
    (listening { LaneSt.init with state := 2, good := 64 } = true) ∧
    ((lane (noted 0 false (withLane laneRun live)) 0).lock = true ∧ (lane (noted 0 false (withLane laneRun live)) 0).state = 3) ∧
    (losesLock (({ laneRun with errs := List.replicate 16 true }).silent 0) = true ∧ losesLock (laneRun.silent 15) = false ∧ losesLock (laneRun.silent 64) = true) ∧
    (4 ≤ ({ laneRun with noEcho := 4 }).noEcho) ∧
    (knownType (descramble 0 0x7).1 = false ∧ laneRun.skip = false) :=
  by refine ⟨?_, ?_, ?_, ?_, ?_⟩ <;> decide +kernel
/-- The hypotheses of LaneWriters, clause by clause. -/
theorem witness_LaneWriters :
    (nextInTurn ((List.range 32).filter (fun i => !(chan chanFull (32 * 0 + i)).q.items.isEmpty &&
    gateFree chanFull (portOf chanFull (.lane 0) 0) (spoolDom chanFull (32 * 0 + i)))) none = some 0 ∧ coreLive chanFull = true ∧
    (lane chanFull 0).state ≠ 7) ∧
    (memLive writing = true ∧ (xing writing (writerXing 0)).absent = false ∧ (lane (takeRecord 0 writing) 0).cur.map (fun c => c.words.length) = some 4 ∧
    (lane (writerGo 0 4 (takeRecord 0 writing)) 0).state ≠ 7) ∧
    ((lane (takeRecord 0 writing) 0).cur.map (·.spool) = some 0 ∧ (lane (writerGo 0 4 (takeRecord 0 writing)) 0).cur = none) ∧
    (memLive halfSpool = true ∧ (spoolOf halfSpool 0).half.isSome = true ∧ (spoolOf halfSpool 0).w % 8 = 0 ∧
    (lane halfSpool (writerOf 0)).cur.any (fun c => c.spool == 0) = false) :=
  by refine ⟨?_, ?_, ?_, ?_⟩ <;> decide +kernel
/-- The hypotheses of LaneTraining, clause by clause. -/
theorem witness_LaneTraining :
    (trainingLane (withLane { LaneSt.init with state := 1 } live) = none ∧
    (List.range 64).find? (fun n => (lane (withLane { LaneSt.init with state := 1 } live) n).state == 1) = some 0 ∧ live.pwr.state = 0) ∧
    (trainingLane (withLane { LaneSt.init with state := 2, step := 1 } live) = some 0 ∧ feCause 1 0x10000 = 0) ∧
    ((lane (withLane { LaneSt.init with state := 2, step := 3, lock := true } live) 0).lock = true ∧ trainingLane (withLane { LaneSt.init with state := 2, step := 3, lock := true } live) = some 0) ∧
    ((lane (withLane { LaneSt.init with state := 2, step := 4, lock := true, trains := 16 } live) 0).trains = 16 ∧
    trainingLane (withLane { LaneSt.init with state := 2, step := 6, loadPulse := some 0 } (emittedAt 0)) = some 0 ∧ (emittedAt 0).time.emitted = some 0 ∧
    pulseLt 0 0 = false ∧ pulseLt 0 (2 ^ 44 - 1) = false) ∧
    ((emittedAt 0x100000).now.toNat / 2 ^ 20 = 1 ∧ (emittedAt 0x100000).time.emitted = some 1 ∧ (emittedAt 0x100000).now.toNat % 2 ^ 20 ≤ syncDelay (emittedAt 0x100000) 0 + 128 ∧
    syncDelay (emittedAt 0x100000) 0 + 128 + loadTicks + 128000 ≤ 2 ^ 20 ∧ loadPulseNow (emittedAt 0x100000) 0 = some 2) ∧
    ((lane (withLane { LaneSt.init with state := 2, step := 7, frame := some 0 } live) 0).frame.isSome = true ∧ feCause 7 0 ≠ 0) ∧
    (trainingLane (withLane { LaneSt.init with state := 2, step := 8, frame := some 0, loadPulse := some 3, echoes := [4] } live) = some 0 ∧
    (lane (withLane { LaneSt.init with state := 2, step := 8, frame := some 0, loadPulse := some 3, echoes := [4] } live) 0).frame.isSome = true ∧
    syncedAfterLoad (withLane { LaneSt.init with state := 2, step := 8, frame := some 0, loadPulse := some 3, echoes := [4] } live) 0 = true) ∧
    (fld (live.reg .laneEye 0) 15 8 ≤ (0x0A : Byte).toNat ∧ fld (live.reg .laneEye 0) 7 0 ≤ (0x20 : Byte).toNat) :=
  by refine ⟨?_, ?_, ?_, ?_, ?_, ?_, ?_, ?_⟩ <;> decide +kernel
/-- The hypotheses of LaneCommands, clause by clause. -/
theorem witness_LaneCommands :
    (beforeRelease live = false ∧ runningCmd live 0 .laneCmdStat = false ∧ enableStatus live 5 = stOk) ∧
    ((lane (withLane laneRun live) 0).state = 3 ∧ feBusy (withLane laneRun live) 0 = false) ∧
    (0x100 ≤ fld ((live.setRegP 0 .laneCmdArg 0 0 0x100).regP 0 .laneCmdArg 0 0) 15 0) ∧
    ((lane (withLane { laneRun with state := 7 } live) 0).state = 7) ∧
    ({ live with fe := [(1, { lane := 3, op := 5, addr := 0, data := 0 }), (2, { lane := 3, op := 2, addr := 0, data := 0 })] }.fe.find 1 = some { lane := 3, op := 5, addr := 0, data := 0 }) :=
  by refine ⟨?_, ?_, ?_, ?_, ?_⟩ <;> decide +kernel
/-- The hypotheses of LaneRegisters, clause by clause. -/
theorem witness_LaneRegisters :
    (laneCfgStatus live 0 0x80000000 = stOk ∧ chEnOk live 0 0xFFFFFFFF = true ∧ subStatus live 0 2047 0 = stOk ∧ subStatus live 0 (2048 + 63) 0 = stOk ∧
    mayReach live 0 2047 = true ∧ qdReach live 0 15 = true ∧ qdCfgOk 0xC0000000 = true) ∧
    ((chan live 0).q.items = []) :=
  by refine ⟨?_, ?_⟩ <;> decide +kernel
/-- The hypotheses of Timebase, clause by clause. -/
theorem witness_Timebase :
    (State.reset.time.locked = false) ∧
    (live.time.locked = true ∧ live.time.refLost = false) ∧
    ({ live.time with refLost := true }.refLost = true) ∧
    ({ live.time with holdover := true }.holdover = true) ∧
    (topSet (atTime 0xFF00000000000000).now = true ∧ live.time.wrapNear = false) ∧
    ({ live.time with wrapNear := true }.wrapNear = true) ∧
    (live.xng.xings.any (fun e => valueOf 5 0 e.1 && (e.2.unstable || e.2.absent)) = false) :=
  by refine ⟨?_, ?_, ?_, ?_, ?_, ?_, ?_⟩ <;> decide +kernel
/-- The hypotheses of SenseAndQuadrature, clause by clause. -/
theorem witness_SenseAndQuadrature :
    (captures live 0 = false ∧ captures (sensing none) 0 = true ∧ (sense (sensing none) 0).open_ = none) ∧
    ((sense (sensing (some (512, true))) 0).open_ = some (512, true) ∧ ((1000 : Tick) - 512).toNat < senseWindow (sensing (some (512, true))) 0 ∧
    senseWindow (sensing (some (512, true))) 0 ≤ ((1536 : Tick) - 512).toNat) ∧
    ((sense live 63).open_ = none) ∧
    (coreLive senseFull = true ∧ gateFree senseFull (portOf senseFull (.pin 0) 0) (spoolDom senseFull 2048) = true ∧ (chan live 2048).q.items = [] ∧
    (chan senseFull 2048).q.items = [{ time := 512, kind := 1, order := false }] ∧ (chan senseFull 2048).q.ok = true) ∧
    (gateFree live (portOf live (.pin 1) 0) (spoolDom live (2048 + 63)) = true ∧ coreLive live = true) ∧
    ((qd live 0).fresh = true ∨ bitOf (qdCfg live 0) 31 = false) ∧
    ((qd (qdOn 0x80000000) 0).fresh = false ∨ (qd ((qdOn 0x80000000).setQd 0 { qd (qdOn 0x80000000) 0 with fresh := false }) 0).fresh = false) ∧
    (bitOf (qdCfg (qdOn 0x80000000) 0) 31 = true ∧ bitOf (qdCfg (qdOn 0x80000000) 0) 28 = false ∧
    qdInput (qdOn 0x80000000) 0 0 true false = true ∧ qdInput (qdOn 0x80000000) 0 1 false false = false ∧ qdStep 0 0 2 = some 1 ∧ qdStep 0 0 3 = none) ∧
    ((claimants live 4 0 2).head?.any (fun p => viobOk live (bankOfPin p)) = false ∧
    (claimants (qdOn 0x84000000) 4 0 2).head?.any (fun p => viobOk (qdOn 0x84000000) (bankOfPin p)) = true ∧ fld (qdCfg (qdOn 0x84000000) 0) 27 26 = 1 ∧
    fld (qdCfg (qdOn 0x88000000) 0) 27 26 = 2 ∧ fld (qdCfg (qdOn 0x8C000000) 0) 27 26 = 3) ∧
    (bitOf ((qdFull 7 0).reg .timeQdSub 0) 31 = false ∧ bitOf ((qdFull 7 0x80000000).reg .timeQdSub 0) 31 = true ∧ (qd (qdFull 7 0x80000000) 0).q.ok = true ∧
    (qdFull 7 0x80000000).pwr.state ≠ 2 ∧ (qdFull 7 0x80000000).pwr.state ≠ 3 ∧ (qd (qdFull 7 0x80000000) 0).q.items.length < 8) ∧
    (8 ≤ (qd (qdFull 8 0x80000000) 0).q.items.length ∧ (qd (qdFull 8 0x80000000) 0).q.ok = true) ∧
    (qdReach live 0 0 = true ∧ beforeRelease live = false) ∧
    ((qd (qdFull 1 0) 0).q.items = [(1, 2, 512)] ∧ (qd (qdFull 1 0) 0).q.ok = true ∧ (qdFull 1 0).pins.asleep = false ∧ bitOf ((qdFull 1 0).reg .timeQdSub 0) 31 = false ∧
    coreLive (qdFull 1 0) = true ∧ gateFree (qdFull 1 0) (portOf (qdFull 1 0) (.pin (homeBank (qdFull 1 0) 0)) 0) (qdPktDom (qdFull 1 0) 0) = true) ∧
    (bitOf ((qdFull 1 0x80000000).reg .timeQdSub 0) 31 = true ∧
    gateFree (qdFull 1 0x80000000) (portOf (qdFull 1 0x80000000) (.pin (homeBank (qdFull 1 0x80000000) 0)) 0) (qdPktDom (qdFull 1 0x80000000) 0) = true) ∧
    (sameCycle { qd live 0 with cycle := some (0, 2) } 1 512 = true ∧ sameCycle (qd live 0) 1 512 = false ∧ bankCycle 512 = 0 ∧ bankCycle 640 = 1) :=
  by refine ⟨?_, ?_, ?_, ?_, ?_, ?_, ?_, ?_, ?_, ?_, ?_, ?_, ?_, ?_, ?_⟩ <;> decide +kernel
/-- The hypotheses of SpoolPositions, clause by clause. -/
theorem witness_SpoolPositions :
    (ready 0x01 id slotStartWs = true ∧ placed id slotStartWs = true) ∧
    (ready 0x04 id [0x04000000, 0, 0] = true ∧ placed id [0x04000000, 0, 0] = true) ∧
    (ready 0x20 id [0x20000000, 0, 0, 0, 0, 0] = true ∧ placed id [0x20000000, 0, 0, 0, 0, 0] = true ∧
    bitOf (cmdWord (cmd0 [0x20000000, 0, 0, 0, 0, 0]) 3) 29 = false) ∧
    (ready 0x10 id [0x10000000, 0, 0, 7, 9] = true ∧ placed id [0x10000000, 0, 0, 7, 9] = true ∧
    (mtRead 0 (mtHash 0 0 7) (commanded id [0x10000000, 0, 0, 7, 9])).1.isSome = true) :=
  by refine ⟨?_, ?_, ?_, ?_⟩ <;> decide +kernel
/-- The hypotheses of SpoolCommands, clause by clause. -/
theorem witness_SpoolCommands :
    (ready 0x02 (fun x => { x with slots := [(0, { SlotSt.init with state := 2 })] }) [0x02000000] = true ∧
    inRun (slotOf (commanded (fun x => { x with slots := [(0, { SlotSt.init with state := 2 })] }) [0x02000000]) 0 0) = true) ∧
    (ready 0x03 id [0x03000000] = true ∧ ready 0x05 id [0x05000000] = true ∧ ready 0x07 id [0x07000000] = true) ∧
    (ready 0x06 (fun x => { x with marks := [(0, (0, 512))] }) [0x06000000] = true ∧
    (spoolOf (commanded (fun x => { x with marks := [(0, (0, 512))] }) [0x06000000]) 0).marks.find 0 = some (0, 512)) ∧
    (ready 0x11 id [0x11000000, 7] = true ∧ ready 0x12 id [0x12000000, 7] = true) ∧
    ((mtRead 0 (mtHash 0 0 7) (mtWrite 0 (mtHash 0 0 7) 0 { valid := true, cls := 0, spool := 0, key := 7, off40 := 0, tag := 9 }
    (commanded id [0x11000000, 7]))).1.map (fun l => (mtFind (cmd0 [0x11000000, 7]) l).map (·.2.tag)) = some (some 9)) ∧
    (ready 0x21 (fun x => { x with exp := some exp0 }) [0x21000000] = true) ∧
    (ready 0x30 id [0x30000000, 1] = true ∧ fld (1 : Word) 12 0 = 1 ∧ (spoolOf (commanded id [0x30000000, 1]) 0).segs.length = 1) :=
  by refine ⟨?_, ?_, ?_, ?_, ?_, ?_, ?_⟩ <;> decide +kernel
set_option maxRecDepth 100000 in
/-- The hypotheses of SpoolEngine, clause by clause. -/
theorem witness_SpoolEngine :
    (reading (slotOf reader 0 0) = true ∧ memLive reader = true ∧ gateFree reader (portOf reader (.mem (posOf (spoolOf reader 0) 0 / 512)) 0) (spoolDom reader 0) = true ∧
    (runLimit reader 0 true false 0 0).done = false ∧ (runLimit reader 0 true false 0 0).off = 64 ∧ (readOk 0 1 64 0 16 reader).1 = true ∧
    min (min (16 - (synWords reader 0 follower).length) ((65536 - 0 % 65536) / 4)) ((64 - 0) / 4) = 16) ∧
    (tryClose 0 (active (spool0 (fun x => { x with exp := some exp0 }) live)) = active (spool0 (fun x => { x with exp := some exp0 }) live) ∧
    maySend (active (spool0 (fun x => { x with exp := some exp0 }) live)) 0 4 = true ∧ qBad (active (spool0 (fun x => { x with exp := some exp0 }) live)) 0 4 = false) ∧
    (((mtRead 0 0 { live with spl := { live.spl with sweep := 1 } }).1.map (fun l => l.all (fun e => !e.valid))) = some true) ∧
    (placeSegs (freeSegs 0 (withRegs [(.memDomArea, 0, 0x1FFF)] (spool0 id live))) 0 0 [] 1 = none) ∧
    (mayReach live 3 0 = false ∧ mayReach live 0 2111 = true) ∧
    ((spoolOf (closing id) 0).resizing = some (1, cmd0 [0x30000000, 1]) ∧ (spoolOf (closing id) 0).swap = none ∧ memLive (closing id) = true ∧
    placeSegs (freeSegs 0 (closing id)) 0 0 [] 1 = some [0] ∧ ([0].any (fun u => retained (closing id) (u / 512))) = false ∧
    (spoolGroups (spoolOf (wakeFor [0] (closing id)) 0)).filter (retained (wakeFor [0] (closing id))) = []) ∧
    (placeSegs (freeSegs 0 (closing (fun m => { m with ret := [0] }))) 0 0 [] 1 = some [0] ∧
    ([0].any (fun u => retained (closing (fun m => { m with ret := [0] })) (u / 512))) = true) ∧
    ((exp0.hash && live.sec.ledWait) = false) :=
  by refine ⟨?_, ?_, ?_, ?_, ?_, ?_, ?_, ?_⟩ <;> decide +kernel
/-- The hypotheses of PinCommands, clause by clause. -/
theorem witness_PinCommands :
    beforeRelease live = false ∧ pinCfgStatus live 0 383 0 = stOk ∧ bankCfgOk (live.reg .pinBankCfg 3) 3 0x40000000 = true ∧ pinEvtStatus live 0 0 0 = stOk ∧ pinAllow live 0 0 = stOk ∧
    bankAllow live 0 7 = stOk :=
  by decide +kernel
/-- The hypotheses of PinEvents, clause by clause. -/
theorem witness_PinEvents :
    (viobOk (withPins []) 7 = true ∧ (bankPins 7).all (fun p => pinFunc (withPins []) p == 7) = false) ∧
    (viobOk State.reset 0 = false ∧ State.reset.fab.released = false) ∧
    (edgeEvent (evtMode (withRegs [(.pinEvt, 0, 0x20000000)] (withPins [])) 0) false true = true ∧ detects (withRegs [(.pinEvt, 0, 0x20000000)] (withPins [])) 0 = true ∧
    pinFunc (withPins []) 0 ≠ 7) ∧
    (wakeEvent 0 true (withRegs [(.pinEvt, 0, 0x21000000)] { withPins [] with pwr := { live.pwr with state := 2 } }) = true) ∧
    (0 < (pinSt ((withRegs [(.pinEvt, 0, 0x20000000)] live).setPin 0 { pinSt live 0 with pulses := 1 }) 0).pulses ∧
    gateFree live (portOf live (.pin 0) 0) (bankDom live 0) = true ∧ fld ((withRegs [(.pinEvt, 0, 0x20000000)] live).reg .pinEvt 0) 31 29 = 1) ∧
    (fld (0x60000000 : Word) 31 29 = 3 ∧ (pinSt live 0).ovr = false ∧ ({ pinSt live 0 with resample := false }).resample = false) :=
  by refine ⟨?_, ?_, ?_, ?_, ?_, ?_⟩ <;> decide +kernel
/-- The hypotheses of PinGateways, clause by clause. -/
theorem witness_PinGateways :
    (firstReq (gated live (pinReq 2 [0])) (portOf live (.pin 0) 0) = some (pinReq 2 [0]) ∧ (pinReq 2 [0]).dom = 0 ∧ selOfReq (pinReq 2 [0]) = 0) ∧
    (selOfReq (pinReq 4 [0, 1, 2, 3, 4]) = 0 ∧ (pinReq 4 [0, 1, 2, 3, 4]).words.length = 5) ∧
    (readSel 1 1 (pinReq 2 [1]) = true ∧ writeSel 1 1 (pinReq 3 [1, 1, 2, 3, 4]) = true ∧ writeSel 2 2 (pinReq 4 [2, 1, 2]) = true) ∧
    (unitReach live 0 3 15 = true ∧ readSel 16 31 (pinReq 2 [31]) = true ∧ writeSel 16 31 (pinReq 3 [16, 9]) = true ∧
    bitOf ((withRegs [(.pwmCfg, 0, 0x10000000)] live).reg .pwmCfg 0) 28 = true) ∧
    (readSel 32 39 (pinReq 2 [39]) = true ∧ writeSel 32 39 (pinReq 3 [32, 64] ) = true ∧
    spiRange (withPins [(0, 0xA0000000), (3, 0xA0600000)]) 0 0x40 = stOk ∧ spiBusy (withRegs [(.spiCfg, 0, 0x80000000)] live) 0 true = stOk) ∧
    (readSel 48 51 (pinReq 2 [51]) = true ∧ i2cRange 0x820 = stOk ∧ i2cBusy (withRegs [(.i2cCfg, 0, 0x80000000)] live) 0 true = stOk) :=
  by refine ⟨?_, ?_, ?_, ?_, ?_, ?_⟩ <;> decide +kernel
/-- The hypotheses of PinUnits, clause by clause. -/
theorem witness_PinUnits :
    ((pwm { live with pins := { live.pins with pwm := [(0, { PwmSt.init with running := true })] } } 0).running = true) ∧
    (unitReach live 0 3 0 = true ∧ bitOf (live.reg .pwmCfg 0) 28 = false ∧ pwmPeriodOk 2 = true) ∧
    (spiRange (withPins [(0, 0xA0000000), (3, 0xA0600000)]) 0 0x80000001 = stOk ∧ spiBusy live 0 false = stOk ∧ i2cRange 0x80000000 = stOk ∧ i2cBusy live 0 false = stOk) ∧
    ({ live.pins with spi := [(0, xfer 0x8000000A)] }.spi.find 0 = some (xfer 0x8000000A) ∧
    bitOf (0x8000000A : Word) 30 = false ∧ (claimants (withPins [(2, 0xA0400000)]) 5 0 2).isEmpty = false) ∧
    ({ live.pins with i2c := [(3, xfer 0x80000001)] }.i2c.find 3 = some (xfer 0x80000001) ∧
    0 < (5 : BitVec 4).toNat ∧ (5 : BitVec 4).toNat < 6) ∧
    (roleDead live 5 0 2 = true ∧ (xfer 0).deaf = false ∧ { xfer 0 with deaf := true }.deaf = true) ∧
    (roleDead (withPins [(2, 0xA0400000)]) 5 0 2 = false ∧ roleDead (withPins [(9, 0xc6200000)]) 6 3 1 = false ∧ live.pins.asleep = false) :=
  by refine ⟨?_, ?_, ?_, ?_, ?_, ?_, ?_⟩ <;> decide +kernel
/-- The hypotheses of LinkStates, clause by clause. -/
theorem witness_LinkStates :
    ((port (portAt (fun x => { x with state := 1, step := 1 })) 0).state = 1 ∧ (port (portAt (fun x => { x with state := 1, step := 1 })) 0).wait = false) ∧
    ((port (portAt (fun x => { x with state := 4, step := 6 })) 0).state = 4) ∧
    ((port (portAt (fun x => { x with state := 4, wait := true })) 0).wait = true) ∧
    ((port (active live) 0).state = 5 ∧ (port (portAt (fun x => { x with state := 6 })) 0).state = 6 ∧ (port (portAt (fun x => { x with state := 3 })) 0).state = 3) ∧
    (beforeRelease live = false ∧ mayPort 3 3 = stOk ∧ mayPort 0 3 = stOk) ∧
    ((port (portAt (fun x => { x with state := 2, leftAt := some 0 })) 0).leftAt.isSome = true) ∧
    ((port (portAt (fun x => { x with state := 2, step := 2 })) 0).step = 2 ∧ (port (portAt (fun x => { x with state := 3, step := 3, aligned := 0xF })) 0).aligned = 0xF ∧
    (port (portAt (fun x => { x with state := 4, step := 5 })) 0).step = 5) ∧
    ((port (lockedAt 1 1 0x5) 0).locked = 0x5 ∧ (port (lockedAt 3 3 0xF) 0).locked = 0xF ∧ (port (lockedAt 4 6 0xF) 0).step = 6 ∧
    LossCause.lock ≠ LossCause.align) :=
  by refine ⟨?_, ?_, ?_, ?_, ?_, ?_, ?_, ?_⟩ <;> decide +kernel
/-- The hypotheses of HostPackets, clause by clause. -/
theorem witness_HostPackets :
    ((port (active live) 0).state = 5 ∧ (port (active live) 0).rxSeq = 0 ∧
    reqsWaiting (active live) = 0 ∧ (port (active live) 0).reqq.ok = true ∧ rspRoom (active live) 0 = true) ∧
    (reqCount [0x100_0000_0000] = 256 ∧ ([0x8_0000_0000, 7] : List DWord).length = 1 + (reqCount [0x8_0000_0000, 7] + 7) / 8 ∧ isStream [0x8_0000_0000, 7] = false) ∧
    ((packetOf 0x00000800 0x1080 0 (List.replicate 18 0)).op.toNat < 7 ∧ hasResponse (packetOf 0x00000800 0x1080 0 (List.replicate 18 0)).op = false ∧ outAbsent (active live) (packetOf 0x00000800 0x1080 0 (List.replicate 18 0)) = false) ∧
    ((packetOf 0x00000100 0x108F 0 [0x10000]).op.toNat < 7 ∧ hasResponse (packetOf 0x00000100 0x108F 0 [0x10000]).op = true ∧ mboxFull (mbox (active live) 0 15) = false ∧ outAbsent (active live) (packetOf 0x00000100 0x108F 0 [0x10000]) = false) ∧
    (reqsWaiting (reqsAt 0 64) = 0 ∧ (port (reqsAt 0 64) 0).reqq.ok = true ∧ rspRoom (reqsAt 0 64) 0 = false) ∧
    (64 ≤ (port (reqsAt 64 64) 0).reqq.items.length ∧ reqReady (reqsAt 64 64) 0 = false ∧ reqReady (reqsAt 64 64) 3 = false) :=
  by refine ⟨?_, ?_, ?_, ?_, ?_, ?_⟩ <;> decide +kernel
/-- The hypotheses of LinkLayer, clause by clause. -/
theorem witness_LinkLayer :
    (port (active live) 0).state = 5 ∧ (port (active live) 0).regrant.contains 4 = false ∧ 1 ≤ (4 : BitVec 4).toNat ∧ (4 : BitVec 4).toNat ≤ 4 :=
  by decide +kernel
/-- The hypotheses of PortSends, clause by clause. -/
theorem witness_PortSends :
    (maySend (serveWins 0 sendingPort) 0 1 = true ∧ (port (serveWins 0 sendingPort) 0).rspq.items = [{ tag := 1, status := 0, words := [], after := none }] ∧
    (port (serveWins 0 sendingPort) 0).rspq.ok = true) ∧
    (maySend (serveWins 0 sendingPort) 0 2 = true ∧ qBad (serveWins 0 sendingPort) 0 2 = false ∧
    nextInTurn ((List.range 16).filter (fun m => (mboxNext (mbox (serveWins 0 sendingPort) 0 m)).isSome)) none = some 0 ∧
    unsent (mbox (serveWins 0 sendingPort) 0 0).resp = none ∧ unsent (mbox (serveWins 0 sendingPort) 0 0).store = none) ∧
    ((port sendingPort 0).ntfBack = [] ∧ (port sendingPort 0).ntfq.items = [0] ∧ (port sendingPort 0).ntfq.ok = true ∧ sendingPort.memory.vret = false ∧
    maySend sendingPort 0 3 = true) ∧
    ((List.range 4).find? (fun d => !(inbox forMbox (laneKey (portOf forMbox (.mbox 0 0) 0) true d)).isEmpty) = none ∧
    (nextReq forMbox (portOf forMbox (.mbox 0 0) 0)).map (·.dest) = some 0x1080 ∧ forMbox.xng.stopped.contains 128 = false) ∧
    (memLive sendingPort = true ∧ (ntfWords 0 (ntfAddr 0 0 / 8) 4 sendingPort).1 = [0, 0, 0, 0]) ∧
    ((List.range 4).find? (fun d => !(inbox respMbox (laneKey (portOf respMbox (.mbox 0 0) 0) true d)).isEmpty) = some 0 ∧ respMbox.xng.stopped.contains 128 = false) ∧
    (reqReady live 0 = false ∧ reqReady live 1 = false ∧ reqReady live 2 = false ∧ reqReady live 3 = false ∧
    ({ tag := 1, status := 0, words := [], after := some (0x70C00000, 1) } : Rsp).after = some (0x70C00000, 1)) :=
  by refine ⟨?_, ?_, ?_, ?_, ?_, ?_, ?_⟩ <;> decide +kernel
/-- The hypotheses of BatchCommands, clause by clause. -/
theorem witness_BatchCommands :
    (((0 : Word) - live.regP 0 .hlkNtfRptr 0 0).toNat ≤ (live.regP 0 .hlkNtfWptr 0 0 - live.regP 0 .hlkNtfRptr 0 0).toNat ∧ live.ntf.owed.get 0 0 = 0) ∧
    ((batchOf live 3).checking = none ∧ (batchOf (live.setBatch 3 { staged := List.replicate 1023 (0, 0), checking := none }) 3).staged.length = 1023) ∧
    ((pendingOf live 0).length < 2) ∧
    ((batchOf (live.setBatch 0 { staged := [], checking := some ([], none) }) 0).checking.isSome = true) ∧
    (batchCheck (directStatus 0) live 0 [(w32 0x70C0000C, 0)] (nextCommit live.now) = none ∧ tickLt (nextCommit live.now) (live.now + 8192) = false) :=
  by refine ⟨?_, ?_, ?_, ?_, ?_⟩ <;> decide +kernel
set_option maxRecDepth 100000 in
/-- The hypotheses of ImageDirectory, clause by clause. -/
theorem witness_ImageDirectory :
    (loadReady 1 (imgLoad 0 2 [0x01000002, 0x70B01000, 0x60080000]) = true ∧
    firstBadPair (fun h p => fullPair h false p) putPair (loading (imgLoad 0 2 [0x01000002, 0x70B01000, 0x60080000])) (pairsOf 17 [0x70B01000, 0x60080000]) = none) ∧
    (loadReady 2 (imgLoad 0 2 [0x02000001, 0]) = true ∧ skeinOf (imgLoad 0 2 [0x02000001, 0]) 0 = none) ∧
    (loadReady 3 { imgLoad 0 2 [0x03000002, 0, 0] with skeins := [skein0] } = true ∧ skeinOf { imgLoad 0 2 [] with skeins := [skein0] } 0 = some skein0 ∧
    entryBad { imgLoad 0 2 [] with skeins := [skein0] } 0 0 (entryInst skein0 0 0 []) = false) ∧
    (loadReady 4 (imgLoad 0 2 [0x04000000]) = true ∧ fullDirError (lcmd 0x04000000 []) (imgLoad 0 2 [0x04000000]) (loading (imgLoad 0 2 [0x04000000])) = none) ∧
    (loadReady 5 (imgLoad 0 3 (0x05000043 :: 0x4004007F :: List.replicate 66 0)) = true ∧ fld (0x4004007F : Word) 31 30 = 1 ∧ fld (0x4004007F : Word) 29 19 = 0 ∧
    bitOf (0x4004007F : Word) 18 = true ∧ fld (0x4004007F : Word) 17 12 = 0 ∧ 64 * fld (0x4004007F : Word) 11 6 + fld (0x4004007F : Word) 5 0 = 127 ∧
    recordCount (lcmd 0x05000043 (0x4004007F :: List.replicate 66 0)) = 1) ∧
    (loadReady 6 (imgLoad 0 3 (0x06000043 :: 0x80000027 :: List.replicate 66 0)) = true ∧ fld (0x80000027 : Word) 31 30 = 2 ∧ fld (0x80000027 : Word) 29 18 = 0 ∧
    fld (0x80000027 : Word) 5 0 < 40 ∧ outside (loading (imgLoad 0 3 [])) 0 = false ∧ mapped (loading (imgLoad 0 3 [])) 0 = true) ∧
    (loadReady 7 { imgLoad 0 3 (0x07000043 :: 8 :: List.replicate 66 0) with skeins := [skein0] } = true ∧ 8 ≤ fld (8 : Word) 5 0 ∧ 0 < skein0.w * skein0.h) ∧
    (loadReady 12 (imgLoad 0 3 [0x0C000000]) = true ∧ unsized (loading (imgLoad 0 3 [0x0C000000])) = none ∧ shortSkein (imgLoad 0 3 [0x0C000000]) = none ∧
    brokenTile (loading (imgLoad 0 3 [0x0C000000])) [] = none) ∧
    (sysRecordOk 127 0 (List.replicate 64 0) = true ∧ sysRecordOk 0 0 (7 :: List.replicate 63 0) = true) :=
  by refine ⟨?_, ?_, ?_, ?_, ?_, ?_, ?_, ?_, ?_⟩ <;> decide +kernel
set_option maxRecDepth 100000 in
/-- The hypotheses of ImageSecurity, clause by clause. -/
theorem witness_ImageSecurity :
    (loadReady 9 (imgLoad 0x40000000 0 (0x0900000F :: List.replicate 15 0)) = true) ∧
    (loadReady 10 (imgLoad 0x40000000 1 (0x0A00000A :: List.replicate 10 0)) = true) ∧
    (loadReady 11 { imgLoad 0x40000000 1 [0] with plain := 0x0B000008 :: List.replicate 8 0 } = true) ∧
    (loadReady 8 { imgLoad 0 1 [0x08000002, 0x10000000, 1] with partial_ := true } = true ∧
    regionError (loading { imgLoad 0 1 [0x08000002, 0x10000000, 1] with partial_ := true }) (lcmd 0x08000002 [0x10000000, 1]) = none ∧
    countOf 0x08000002 = 1 + fld (0x10000000 : Word) 31 28 + fld (0x10000000 : Word) 8 0) ∧
    (loadReady 13 (imgLoad 0x80000000 4 (0x0D0000C0 :: List.replicate 192 0)) = true) ∧
    (loadReady 13 (imgLoad 0x80000000 4 (0x0D0000C0 :: sigWs)) = true) ∧
    (pssVerify (bytesOfWords (sigWs.take 96)) (bytesOfWords (sigWs.drop 96))
    (sha256 (bytesOfWords ((imgLoad 0x80000000 4 (0x0D0000C0 :: sigWs)).img.take 16))) = true) ∧
    (loadReady 10 { imgLoad 0x40000000 1 (0x0A00000A :: epochWs) with key := List.replicate 32 0 } = true ∧
    { imgLoad 0x40000000 1 (0x0A00000A :: epochWs) with key := List.replicate 32 0 }.nextEpoch = 0 ∧ (epochWs.headD 0).toNat = 0 ∧ (epochWs.getD 4 0).toNat = 1 ∧ countOf 0x0A00000A = 9 + 1) ∧
    ((gcmOpen (List.replicate 32 0) (bytesOfWords ((epochWs.drop 1).take 3)) (bytesOfWords (0x0A00000A :: epochWs.take 5))
    (bytesOfWords ((epochWs.drop 5).take 1)) (bytesOfWords ((epochWs.drop 6).take 4))).isSome = true) :=
  by refine ⟨?_, ?_, ?_, ?_, ?_, ?_, ?_, ?_, ?_⟩ <;> decide +kernel
/-- The hypotheses of LoadControl, clause by clause. -/
theorem witness_LoadControl :
    ({ live.ldr with load := some Load.init, flash := 4 }.mode = 0) ∧
    (moreWords { Load.init with port := some 1 } = true) ∧
    (chainWaits { live with ldr := { live.ldr with mode := 1, load := some Load.init } } = false) ∧
    (chainWaits { live with ldr := { live.ldr with mode := 1, state := 7 } } = true) ∧
    ((endLoad 0x15 { live with ldr := { live.ldr with mode := 1, load := some Load.init } }).ldr.fwd = none ∧ moreWords Load.init = true) ∧
    (loadRuns live = false ∧ live.ldr.state = 4) ∧
    (moreWords (inSection3 true) = true ∧ (inSection3 true).placed = true ∧ moreWords (inSection3 false) = true ∧ (inSection3 false).section_ = 3) :=
  by refine ⟨?_, ?_, ?_, ?_, ?_, ?_, ?_⟩ <;> decide +kernel
set_option maxRecDepth 100000 in
/-- The hypotheses of ImageRelease, clause by clause. -/
theorem witness_ImageRelease :
    ((match tryPlace (sortInsts placeBefore [inst0]) live with
    | (.ok _, _) => true
    | (.error _, _) => false) = true) ∧
    (verifyFrames (unverified live) live = (none, live)) ∧
    ((verifyFrames ((physTiles live (rangesHold [(0, 1)])).flatMap (fun t => (List.range 40).map (fun m => 40 * t + m))) live).1 = none) ∧
    ((match placeSpools 2112 0 live with
    | .ok _ => true
    | .error _ => false) = true ∧ live.scrub.state ≠ 2) :=
  by refine ⟨?_, ?_, ?_, ?_⟩ <;> decide +kernel
set_option maxRecDepth 100000 in
/-- The hypotheses of ScrubAndTest, clause by clause. -/
theorem witness_ScrubAndTest :
    (frameFrozen { live with scrub := { ScrubSt.init with state := 1, pos := 167934 } } (passFrame 167934) = false ∧
    (serveFailing (scrubFrame (passFrame 167934) { live with scrub := { ScrubSt.init with state := 1, pos := 167934 } })).scrub.pos + 1 < passFrames) ∧
    (live.scrub.state ≠ 2) ∧
    (bitOf (scrubOn.reg .scrubCfg 0) 31 = true ∧ testerIdle scrubOn = true ∧ gapOver scrubOn = true) ∧
    ({ live.dst with test := some { tile := 4095, requested := false, fromList := false } }.test = some { tile := 4095, requested := false, fromList := false }) ∧
    (freeTile live 1 = true ∧ live.sec.fuses.retired.contains 1 = false ∧ live.dst.retRt.any (fun e => e.tile == 1) = false) ∧
    (({ live.dst with test := some { tile := 0, requested := true, fromList := false } }).test.isSome = true ∧ 0 < (8 : BitVec 4).toNat ∧ (8 : BitVec 4).toNat ≤ 8) :=
  by refine ⟨?_, ?_, ?_, ?_, ?_, ?_⟩ <;> decide +kernel
/-- The hypotheses of UpsetsAndEvacuation, clause by clause. -/
theorem witness_UpsetsAndEvacuation :
    (triple live 255).length = 3 :=
  by decide +kernel
/-- The hypotheses of FusePrograms, clause by clause. -/
theorem witness_FusePrograms :
    (secBusy signedOpen 0 = false ∧ firstBad (fuseStatus signedOpen) = stOk ∧ secState signedOpen = 0 ∧ confirmed 0x0A5C3000 = true ∧
    signedOpen.ldr.signed = true ∧ argHash signedOpen 0 = signedOpen.ldr.modHash) ∧
    (secState (withFuses (fun x => { x with owned := true })) = 1 ∧ fld (0x0A5C3002 : Word) 1 0 = 2 ∧
    secBusy (withFuses (fun x => { x with owned := true })) 0 = false ∧ firstBad (fuseStatus (withFuses (fun x => { x with owned := true }))) = stOk ∧
    (withFuses (fun x => { x with owned := true })).sec.fuses.slots.find 2 = none) ∧
    (secBusy ownedTwo 0 = false ∧ firstBad (fuseStatus ownedTwo) = stOk ∧ secState ownedTwo ≠ 0 ∧ (ownedTwo.sec.fuses.slots.find (fld (0x0A5C3001 : Word) 1 0)).isSome = true ∧
    (List.range 3).any (fun k => k != fld (0x0A5C3001 : Word) 1 0 && slotGood ownedTwo.sec.fuses k) = true ∧ ownedTwo.sec.slotUsed.isSome = true ∧
    ownedTwo.sec.fuses.rollback < ownedTwo.ldr.rollback) ∧
    (secBusy retired9 0 = false ∧ firstBad (fuseStatus retired9) = stOk ∧ beforeRelease retired9 = false ∧ retired9.dst.retRt.any (fun e => e.tile == fld (9 : Word) 11 0) = true ∧
    retired9.sec.fuses.retired.length < 128 ∧ fuseBusy retired9 = false ∧ retired9.sec.vfuseOk = true) ∧
    ((withSec (fun x => { x with fuseOp := some (.rollback 0 3) })).sec.fuseOp = some (.rollback 0 3) ∧ fuseCode (.rollback 0 3) = some 5) :=
  by refine ⟨?_, ?_, ?_, ?_, ?_⟩ <;> decide +kernel
/-- The hypotheses of IrreversibleCommands, clause by clause. -/
theorem witness_IrreversibleCommands :
    (confirmed 0x0A5C2000 = false ∧ secBusy live 0 = false ∧ secState live ≠ 1) ∧
    ((withSec (fun x => { x with fuseOp := some (.seal 0) })).sec.fuseOp = some (.seal 0)) :=
  by refine ⟨?_, ?_⟩ <;> decide +kernel
/-- The hypotheses of ReportsAndLedger, clause by clause. -/
theorem witness_ReportsAndLedger :
    (secBusy live 3 = false ∧ reportBusy live 3 = false ∧ (withSec (fun x => { x with ledNext := 1 })).sec.ledNext ≠ 0) ∧
    ((withSec (fun x => { x with reports := [(1, 1, [])] })).sec.reports = [(1, 1, [])]) ∧
    ((withSec (fun x => { x with ledNext := 1 })).sec.ledAck ≤ seqOf live 0 .secLedgerAckHi 0 + 1 ∧
    seqOf live 0 .secLedgerAckHi 0 < (withSec (fun x => { x with ledNext := 1 })).sec.ledNext) ∧
    ((withSec (fun x => { x with reports := [(1, 2, [])] })).sec.reports = [(1, 2, [])]) ∧
    ((selectRecord 0 0 live).1 ≠ stDenied) ∧
    ((selectRecord 1 0 (withSec (fun x => { x with ledNext := 1 }))).1 = stDenied) :=
  by refine ⟨?_, ?_, ?_, ?_, ?_, ?_⟩ <;> decide +kernel
/-- The hypotheses of PowerStates, clause by clause. -/
theorem witness_PowerStates :
    (entryFree (withPwr (fun x => { x with state := 4, entering := some false })) = true) ∧
    (timerSet (withRegs [(.pwrWakeAtHi, 0, 0x80000001)] (withPwr (fun x => { x with state := 2 }))) = true) ∧
    ((withPwr (fun x => { x with state := 3, thermal := true })).pwr.thermal = true ∧ fld (live.reg .pwrTherm 0) 7 0 ≤ (0xFF : Byte).toNat) ∧
    ((withPwr (fun x => { x with state := 5, entering := some false })).pwr.heldReset = []) ∧
    (entryFree (withPwr (fun x => { x with state := 4, entering := some true })) = true ∧ (withPwr (fun x => { x with state := 5, entering := some true })).pwr.state = 5) ∧
    ((dozing id).pwr.state = 2 ∧ (dozing id).pwr.entering = none ∧ entryFree (dozing id) = true ∧
    entryFree { dozing id with sec := { live.sec with fuseOp := some (.seal 0) } } = false ∧ entryFree (dozing (fun x => { x with entering := some true })) = true) ∧
    (fld (live.reg .pwrTherm 0) 7 0 ≤ (sensors { live with dst := { live.dst with temps := setAt live.dst.temps 63 0xFF } }).getD 63 0) :=
  by refine ⟨?_, ?_, ?_, ?_, ?_, ?_, ?_⟩ <;> decide +kernel
/-- The hypotheses of GovernorAndLimits, clause by clause. -/
theorem witness_GovernorAndLimits :
    (live.ldr.cfgDone = true ∧ live.pwr.state = 0 ∧ pwrLckStatus live 0 .pwrVlim (vlimOk 0x0384026C) 0x0384026C = stOk ∧
    pwrLckStatus live 0 .pwrTherm (thermOk 0x7C7D) 0x7C7D = stOk) ∧
    (vlimOk 0x0384026C = true ∧ vlimOk (live.reg .pwrVlim 0) = false) ∧
    (live.pwr.readUsed = false ∧ (withPwr (fun x => { x with readUsed := true })).pwr.readUsed = true) :=
  by refine ⟨?_, ?_, ?_⟩ <;> decide +kernel
/-- The hypotheses of Observation, clause by clause. -/
theorem witness_Observation :
    (srcOk false 0x10000000 = true ∧ srcMine live 0 0x10000000 = true ∧ srcOk false 0 = true ∧ srcMine live 3 0 = true ∧ (3 : Fin 4).val = (511 : Fin 512).val / 128) ∧
    (srcOk true 0x10000000 = true ∧ srcClass 0x10000000 < 9 ∧ obsLevel live = 0 ∧ (3 : Fin 4).val = (15 : Fin 16).val / 4) ∧
    ((withRegs [(.obsProbeSrc, 0, 0x10000000)] live).reg .obsProbeSrc 0 ≠ 0 ∧ (probe live 0).q.length < 16) ∧
    ((probe { live with obs := { live.obs with order := [0], probes := [(0, { q := [[1]], lostFlag := false, last := [] })] } } 0).q = [[1]]) :=
  by refine ⟨?_, ?_, ?_, ?_⟩ <;> decide +kernel
/-- The hypotheses of CountersSaturate, clause by clause. -/
theorem witness_CountersSaturate :
    ((1 : Fin 4) ≠ 0 ∧ (1 : Fin 4).val ≠ (0 : Fin 512).val / 128) ∧
    (srcUnstable (withRegs [(.obsCntSrc, 0, 0x10000000)] live) 0x10000000 = false ∧
    (obsCnt ((withRegs [(.obsCntSrc, 0, 0x10000000)] live).setCnt 0 { ObsCnt.init with base := some 0xFFFF }) 0).base = some 0xFFFF) :=
  by refine ⟨?_, ?_⟩ <;> decide +kernel
/-- The hypotheses of CounterReads, clause by clause. -/
theorem witness_CounterReads :
    nextReq (cntReq 511 1) (portOf (cntReq 511 1) .obs 0) = some { pkt 0 2 [511, 1] with dest := 0x1059 } ∧ 511 + 1 ≤ 512 ∧ 512 < 512 + 1 :=
  by decide +kernel
/-- The hypotheses of StepKeepsCanonicalForm and FusesOnlyGain: the invariant holds at reset, and a step from there answers a next state. -/
theorem witness_StepKeepsCanonicalForm : Canonical State.reset ∧ ∃ t, step State.reset = .next t :=
  ⟨⟨rfl, rfl, ⟨fun _ h => nomatch h⟩⟩, ⟨_, rfl⟩⟩
theorem witness_FusesOnlyGain : Canonical State.reset ∧ ∃ t, step { State.reset with pending := [.seal 0 0xA5C3] } = .next t :=
  ⟨witness_StepKeepsCanonicalForm.1, ⟨_, rfl⟩⟩
/-- The commands that FabricFrame and UpsetsAndEvacuation speak of end in a next state. -/
theorem witness_FabricFrame_next : (∃ u, exec (.functionCellEvaluate 0 1) live = .next u) ∧ ∃ u, exec (.queuePop 0 0) live = .next u :=
  ⟨⟨_, rfl⟩, ⟨_, rfl⟩⟩
theorem witness_UpsetsAndEvacuation_next : (∃ t, exec (.upset (.frame 0 0)) live = .next t) ∧ (∃ t, exec (.upset (.reel 0 63)) live = .next t) ∧
    (∃ t, exec (.upset (.tileRam 0 0 31)) live = .next t) ∧ ∃ t, exec (.upset (.triple 255 2 0)) live = .next t :=
  ⟨⟨_, rfl⟩, ⟨_, rfl⟩, ⟨_, rfl⟩, ⟨_, rfl⟩⟩

/-- A least member exists of a list that is not empty. -/
theorem least_isSome (l : List Nat) (a : Nat) (h : a ∈ l) : (nextInTurn l none).isSome = true := by
  have step : ∀ (l : List Nat) (o : Option Nat), o.isSome = true ∨ l ≠ [] →
      (l.foldl (fun a x => match a with
        | some y => some (min y x)
        | none => some x) o).isSome = true := by
    intro l
    induction l with
    | nil => intro o h; simpa using h
    | cons x t ih => intro o _; exact ih _ (.inl (by cases o <;> rfl))
  exact step l none (.inr (List.ne_nil_of_mem h))
/-- The scrubber's tester finds a tile. -/
theorem witness_ScrubAndTest_next : ∃ t, nextFreeTile scrubOn = some t :=
  Option.isSome_iff_exists.1 (least_isSome _ 1 (List.mem_filter.2 ⟨by simp, by decide +kernel⟩))
/-- The first key slot holds the hash of a modulus. -/
theorem witness_ImageSecurity_slot (mh : List Byte) :
    [0, 1, 2].find? (fun i => slotGood (withFuses (fun x => { x with slots := [(0, mh)] })).sec.fuses i &&
      (withFuses (fun x => { x with slots := [(0, mh)] })).sec.fuses.slots.find i == some mh) = some 0 := by
  simp [slotGood, withFuses, withSec, live, State.reset, SecSt.init, FuseSt.init, NMap.find]

theorem length_xorBytes (a b : List Byte) : (xorBytes a b).length = min a.length b.length := by
  induction a generalizing b with
  | nil => simp [xorBytes]
  | cons a t ih => cases b <;> simp [xorBytes, ih]
theorem bytesOf32_append (a b c d : Byte) : bytesOf32 (d ++ c ++ b ++ a : Word) = [a, b, c, d] := by
  have e : ∀ i, (d ++ c ++ b ++ a : Word).getLsbD i =
      if i < 8 then a.getLsbD i else if i < 16 then b.getLsbD (i - 8) else if i < 24 then c.getLsbD (i - 16)
      else d.getLsbD (i - 24) := by
    intro i
    have h (x : BitVec 24) (y : BitVec 8) : (x ++ y : BitVec (24 + 8)).getLsbD i =
      if i < 8 then y.getLsbD i else x.getLsbD (i - 8) := BitVec.getLsbD_append
    have h2 (x : BitVec 16) (y : BitVec 8) (i : Nat) : (x ++ y : BitVec (16 + 8)).getLsbD i =
      if i < 8 then y.getLsbD i else x.getLsbD (i - 8) := BitVec.getLsbD_append
    have h3 (x : BitVec 8) (y : BitVec 8) (i : Nat) : (x ++ y : BitVec (8 + 8)).getLsbD i =
      if i < 8 then y.getLsbD i else x.getLsbD (i - 8) := BitVec.getLsbD_append
    refine (h _ _).trans ?_
    rw [h2, h3]
    (repeat' split) <;> first | rfl | omega | (congr 1; omega)
  simp only [bytesOf32, List.cons.injEq, and_true]
  refine ⟨?_, ?_, ?_, ?_⟩ <;> (ext i h; simp [e]; (repeat' split) <;> first | omega | (congr 1; omega) | simp_all)
/-- Whatever the key fused into the part, each text has a tag under it. -/
theorem tag_exists (iv aad ct : List Byte) : ∃ a b c d : Word, (gcmOpen kek iv aad ct (bytesOfWords [a, b, c, d])).isSome = true := by
  let ks := keySchedule kek
  let t := xorBytes (beBytes 16 (ghash (BitVec.ofNat 128 (beNat (aesEncrypt ks (List.replicate 16 0)))) aad ct).toNat)
    (aesEncrypt ks (iv ++ beBytes 4 1))
  have bl : ∀ n v, (beBytes n v).length = n := by intro n; induction n <;> simp [beBytes, *]
  have h16 : t.length = 16 := by
    have r : (roundKey ks 14).length = 16 := by decide +kernel
    have s : ∀ l, (shiftRows l).length = 16 := by intro l; simp [shiftRows]
    simp only [t, length_xorBytes, aesEncrypt, s, r, bl]
    rfl
  have : ∃ a b c d : Word, bytesOfWords [a, b, c, d] = t := by
    match t, h16 with
    | [a0,a1,a2,a3,b0,b1,b2,b3,c0,c1,c2,c3,d0,d1,d2,d3], _ =>
      exact ⟨a3 ++ a2 ++ a1 ++ a0, b3 ++ b2 ++ b1 ++ b0, c3 ++ c2 ++ c1 ++ c0, d3 ++ d2 ++ d1 ++ d0, by
        simp only [bytesOfWords, List.flatMap_cons, List.flatMap_nil, bytesOf32_append]; rfl⟩
  obtain ⟨a, b, c, d, h⟩ := this
  exact ⟨a, b, c, d, by simp only [gcmOpen, h]; simp [t, ks]⟩
/-- A KEYWRAP may act whatever its last four words. -/
theorem keywrap_ready (a b c d : Word) :
    loadReady 9 (imgLoad 0x40000000 0 (0x0900000F :: (List.replicate 11 0 ++ [a, b, c, d]))) = true := by
  have e : opOf 150994959#32 = 9 := by decide
  have f : countOf 150994959#32 = 15 := by decide
  have g : (w32 32).toNat = 32 := by decide
  have p : Load.init.plain = [] := rfl
  have m : ∀ l, (loading l).memory.initDone = true := fun _ => rfl
  simp [loadReady, imgLoad, mayAct, headError, takeCmd, ahead, inEpoch, opPlace, opCount, imgLen, p, e, f, g, m]
/-- The KEYWRAP clause: an image whose wrapped key opens, whatever the part's own key. -/
theorem witness_ImageSecurity_keywrap : ∃ a b c d : Word,
    loadReady 9 (imgLoad 0x40000000 0 (0x0900000F :: (List.replicate 11 0 ++ [a, b, c, d]))) = true ∧
    (gcmOpen kek (bytesOfWords (((List.replicate 11 0 ++ [a, b, c, d]).drop 0).take 3))
      (bytesOfWords ((imgLoad 0x40000000 0 (0x0900000F :: (List.replicate 11 0 ++ [a, b, c, d]))).img.take 16))
      (bytesOfWords (((List.replicate 11 0 ++ [a, b, c, d]).drop 3).take 8))
      (bytesOfWords (((List.replicate 11 0 ++ [a, b, c, d]).drop 11).take 4))).isSome = true := by
  obtain ⟨a, b, c, d, h⟩ := tag_exists (bytesOfWords (List.replicate 3 0))
    (bytesOfWords ([0, 0, 32, 0x40000000] ++ List.replicate 12 0)) (bytesOfWords (List.replicate 8 0))
  exact ⟨a, b, c, d, keywrap_ready a b c d, h⟩

/-! ## WellFormed: a term that each check refuses -/

theorem test_wf_policy : (Instr.policyEvaluation []).wellFormed = false := by decide
theorem test_wf_governor (c : Fin 101) (m : PmbResult) : (Instr.governorPeriod [] c m).wellFormed = false := rfl
theorem test_wf_xingUnstable (k : Fin 3) (o : Bool) (u : Fin 128) : (Instr.xingUnstable ⟨⟨0, 0⟩, k, o, u⟩).wellFormed = false := rfl
theorem test_wf_pulseArrival : (Instr.pulseArrival ⟨⟨4, 8⟩, 2, false, 0⟩).wellFormed = false := rfl
theorem test_wf_pulseDeliveryDone : (Instr.pulseDeliveryDone ⟨⟨3, 1⟩, 2, false, 0⟩).wellFormed = false := rfl
theorem test_wf_islandClockStop : (Instr.islandClockStop ⟨0, 0⟩).wellFormed = false := rfl
theorem test_wf_wakeRequest : (Instr.wakeRequest ⟨5, 1⟩).wellFormed = false := rfl
theorem test_wf_crossingPresent : (Instr.crossingPresent ⟨2, 4⟩).wellFormed = false := rfl
theorem test_wf_hostRd : (Instr.hostRd 0 0 0 (List.replicate 35 0)).wellFormed = false := rfl
theorem test_wf_hostWr : (Instr.hostWr 0 0 0 (List.replicate 35 0)).wellFormed = false := rfl
theorem test_wf_hostPly : (Instr.hostPly 0 0 0 0 (List.replicate 69 0)).wellFormed = false := rfl
theorem test_wf_spiTransferEnd : (Instr.spiTransferEnd 0 (List.replicate 65 0)).wellFormed = false := rfl
theorem test_wf_i2cTransferEnd : (Instr.i2cTransferEnd 0 4 0 []).wellFormed = false ∧ (Instr.i2cTransferEnd 0 6 0 []).wellFormed = false := ⟨rfl, rfl⟩
theorem test_wf_stretchTimeout : (Instr.stretchTimeout 0 33).wellFormed = false := rfl
theorem test_wf_tileTestEnd : (Instr.tileTestEnd 9).wellFormed = false := rfl
theorem test_wf_bypass : (Instr.bypass 1).wellFormed = false := rfl
theorem test_wf_good : (Instr.hostRd 0 0 0 (List.replicate 34 0)).wellFormed = true ∧ (Instr.crossingPresent ⟨2, 3⟩).wellFormed = true := ⟨rfl, rfl⟩
/-- The table gives no row bits, so no word spells a command. -/
theorem test_no_word_spells (n w : Nat) : decodeTableWord n w = none ∧ State.reset.withFetchWord n w = State.reset := ⟨rfl, rfl⟩

/-! ## Values computed by hand from the rules, and published vectors -/

/-- The worked examples of the commit tick: the next multiple of 65,536 that lies at least 8,192 ahead. -/
theorem test_nextCommit : nextCommit 0x123456789A = 0x1234570000 ∧ nextCommit 0x100012C00 = 0x100020000 := by decide +kernel
/-- The worked NRZI cell: inputs 0 and 1 used, lane 0 on input 0, its own latch on input 1; TABLE[1] = 1, TABLE[3] = 0. -/
theorem test_nrzi_cell :
    let s := withCfg [(20, 6), (22, 0x60), (263, 0x4A03FFFF), (264, 0xFFFFFFFF)] live
    usedSinks s 0 5 = [30, 31] ∧ selOf s 0 30 = 3 ∧ selOf s 0 31 = 0x4A ∧ cellTable s 0 5 1 = true ∧ cellTable s 0 5 3 = false := by
  decide +kernel
/-- The attachments of reel group 5 and of lane 5. -/
theorem test_attachments : portOf live (.mem 5) 1234 / 5 = tileAt 22 0 ∧ portOf live (.lane 5) 0 / 5 = tileAt 0 5 := by decide +kernel
/-- Frame 5 of tile (1, 6): its place in the pass and the address of its essential-bits map. -/
theorem test_frame_numbers : 40 * tileAt 1 6 + 5 = 2805 ∧ essAddr 2805 = 0x1F8057A8 ∧ passIndex 2805 = 2933 ∧ passFrame 2933 = 2805 := by decide +kernel
/-- The capstan of PWM 3: the registers' addresses, the pin that claims it and the reply it sends to a mailbox. -/
theorem test_capstan : (Reg.pinCfg).addr 154 0 = 0x70D019A0 ∧ (Reg.pwmPeriod).addr 3 0 = 0x70D00434 ∧ (Reg.pwmCfg).addr 3 0 = 0x70D00430 ∧
    claimants (withPins [(154, 0x660D1000)]) 3 3 0 = [154] ∧ (packetOf 0x10530205 0 0 []).dest = 0x1053 ∧ (packetOf 0x10530205 0 0 []).op = 4 ∧
    (packetOf 0x10530205 0 0 []).tag = 5 := by decide +kernel
/-- FIPS 180-4: SHA-256 of "abc". -/
theorem test_sha256 : sha256 [0x61, 0x62, 0x63] =
    beBytes 32 0xba7816bf8f01cfea414140de5dae2223b00361a396177a9cb410ff61f20015ad := by decide +kernel
/-- FIPS 197 C.3: AES-256. -/
theorem test_aes256 : aesEncrypt (keySchedule ((List.range 32).map (BitVec.ofNat 8))) (beBytes 16 0x00112233445566778899aabbccddeeff) =
    beBytes 16 0x8ea2b7ca516745bfeafc49904b496089 := by decide +kernel
/-- The published check value of CRC-32, and a block that comes through the scrambler and back. -/
theorem test_blocks : crc32 ((List.range 9).map (fun i => BitVec.ofNat 8 (0x31 + i))) = 0xCBF43926 ∧
    (descramble 5 (scramble 5 0x123456789ABCDEF0).1).1 = 0x123456789ABCDEF0 := by decide +kernel
/-- The published AES-256-GCM test cases 13 and 14. -/
theorem test_gcm : gcmOpen (List.replicate 32 0) (List.replicate 12 0) [] [] (beBytes 16 0x530f8afbc74536b9a963b4f1c4cb738b) = some [] ∧
    gcmOpen (List.replicate 32 0) (List.replicate 12 0) [] (beBytes 16 0xcea7403d4d606b6e074ec5d3baf39d18)
      (beBytes 16 0xd0d1c8a799996bf0265b98b5d48ab919) = some (List.replicate 16 0) := by decide +kernel
/-- LANE_CFG at reset (R238). -/
theorem test_reset_laneCfg : State.reset.reg .laneCfg 5 = 0x60080000 := by decide +kernel
/-- Reel memory keeps its canonical form: writing 0 where a byte was listed drops the entry. -/
theorem test_memory_canonical : NMap.set 0 (NMap.set 0 (NMap.set 0 [] 9 (7 : Byte)) 3 5) 9 0 = [(3, 5)] := by decide +kernel
/-- DOZE from a tenant is DENIED; a write to an address no chapter assigns is RANGE. -/
theorem test_statuses :
    (match exec (.doze 1) live with
      | .next t => t.done.status == stDenied && t.pwr.state == 0
      | .fault _ => false
      | .refused _ => false) = true ∧
    (match exec (.registerWrite 0 0 0) live with
      | .next t => t.done.status == stRange
      | .fault _ => false
      | .refused _ => false) = true := by decide +kernel
/-- An idle cycle of the timebase island advances time by a cycle of the tick register. -/
theorem test_idle :
    (match step live with
      | .next t => t.time.count == 256 && t.pending.isEmpty
      | .fault _ => false
      | .refused _ => false) = true ∧
    (match step { live with pending := [.idcode, .testLogicReset] } with
      | .next t => t.pending.length == 1 && t.done.data.length == 1
      | .fault _ => false
      | .refused _ => false) = true := by decide +kernel

end Sys2Proof.Tests
end

section
/-! Every command ends in a next state and keeps what Ev says. -/
namespace Sys2Proof.Machine

/-- Every command of the table ends in a next state, which keeps what Ev says. -/
theorem exec_evolves (c : Instr) (s : State) : ∃ t, exec c s = .next t ∧ Ev s t :=
  match c with
  | .registerWrite port addr val => execRegisterWrite_evolves port addr val s
  | .functionCellEvaluate tile cell => execFunctionCellEvaluate_evolves tile cell s
  | .mergeForward tile cell => execMergeForward_evolves tile cell s
  | .arbiterGrant tile cell tie => execArbiterGrant_evolves tile cell tie s
  | .sourceRefill tile cell => execSourceRefill_evolves tile cell s
  | .sinkAcknowledge tile cell => execSinkAcknowledge_evolves tile cell s
  | .constantSelectRepeat tile sink => execConstantSelectRepeat_evolves tile sink s
  | .ramPortOperation tile portB met => execRamPortOperation_evolves tile portB met s
  | .railError tile sink => execRailError_evolves tile sink s
  | .macOperation tile unit => execMacOperation_evolves tile unit s
  | .queuePush tile q => execQueuePush_evolves tile q s
  | .edgeCollision tile east wire => execEdgeCollision_evolves tile east wire s
  | .queuePop tile q => execQueuePop_evolves tile q s
  | .tileRamWindowRead tile met => execTileRamWindowRead_evolves tile met s
  | .tileRamWindowWrite tile met => execTileRamWindowWrite_evolves tile met s
  | .plyTxPacket tile => execPlyTxPacket_evolves tile s
  | .packetInjection router side vc dom => execPacketInjection_evolves router side vc dom s
  | .flitAdvance router out => execFlitAdvance_evolves router out s
  | .rxDelivery tile => execRxDelivery_evolves tile s
  | .holdQueueForward router side dom => execHoldQueueForward_evolves router side dom s
  | .memGatewayRd g k => execMemGatewayRd_evolves g k s
  | .memGatewayWr g k => execMemGatewayWr_evolves g k s
  | .memGatewaySet g k => execMemGatewaySet_evolves g k s
  | .migrationDecision => execMigrationDecision_evolves s
  | .memGatewayClr g k => execMemGatewayClr_evolves g k s
  | .instanceQuiescent => execInstanceQuiescent_evolves s
  | .quiescenceTimeout => execQuiescenceTimeout_evolves s
  | .migrationCopyDone badTile => execMigrationCopyDone_evolves badTile s
  | .sourceTilesCleared => execSourceTilesCleared_evolves s
  | .policyEvaluation temps => execPolicyEvaluation_evolves temps s
  | .pin port inst => execPin_evolves port inst s
  | .unpin port inst => execUnpin_evolves port inst s
  | .migrate port inst => execMigrate_evolves port inst s
  | .retireTile port => execRetireTile_evolves port s
  | .unretire port => execUnretire_evolves port s
  | .headerBlock lane payload => execHeaderBlock_evolves lane payload s
  | .eventBlock lane payload => execEventBlock_evolves lane payload s
  | .gapBlock lane payload => execGapBlock_evolves lane payload s
  | .blockError lane sync payload => execBlockError_evolves lane sync payload s
  | .trainBlock lane payload => execTrainBlock_evolves lane payload s
  | .idleBlock lane payload => execIdleBlock_evolves lane payload s
  | .blockLock lane => execBlockLock_evolves lane s
  | .lockLost lane silent => execLockLost_evolves lane silent s
  | .syncLost lane => execSyncLost_evolves lane s
  | .laneGatewaySend lane => execLaneGatewaySend_evolves lane s
  | .spoolWrite writer => execSpoolWrite_evolves writer s
  | .laneWriterTimeout spool => execLaneWriterTimeout_evolves spool s
  | .trainingAttemptStart => execTrainingAttemptStart_evolves s
  | .trainingStepDone feId feVersion => execTrainingStepDone_evolves feId feVersion s
  | .trainingStepLate check => execTrainingStepLate_evolves check s
  | .eyeSample lane height width => execEyeSample_evolves lane height width s
  | .laneEnable port lane => execLaneEnable_evolves port lane s
  | .laneDisable port lane => execLaneDisable_evolves port lane s
  | .laneRetrain port lane => execLaneRetrain_evolves port lane s
  | .laneResetEnd lane => execLaneResetEnd_evolves lane s
  | .laneIslandReset port lane => execLaneIslandReset_evolves port lane s
  | .feRead port lane => execFeRead_evolves port lane s
  | .feWrite port lane => execFeWrite_evolves port lane s
  | .laneCfgWrite port lane val => execLaneCfgWrite_evolves port lane val s
  | .laneChEnWrite port lane val => execLaneChEnWrite_evolves port lane val s
  | .laneSubWrite port ch val => execLaneSubWrite_evolves port ch val s
  | .clrPeak port ch => execClrPeak_evolves port ch s
  | .timebaseStart => execTimebaseStart_evolves s
  | .tbrefStartTimeout => execTbrefStartTimeout_evolves s
  | .tbrefLost => execTbrefLost_evolves s
  | .tbrefBack => execTbrefBack_evolves s
  | .holdoverEnd => execHoldoverEnd_evolves s
  | .tbsyncEnWrite port val => execTbsyncEnWrite_evolves port val s
  | .wrapNear => execWrapNear_evolves s
  | .timebaseWrap => execTimebaseWrap_evolves s
  | .tbsyncPulse => execTbsyncPulse_evolves s
  | .commitTick => execCommitTick_evolves s
  | .timebaseSnapshot => execTimebaseSnapshot_evolves s
  | .senseEdge k rise time => execSenseEdge_evolves k rise time s
  | .filterWindowClosed k => execFilterWindowClosed_evolves k s
  | .senseEventSend k => execSenseEventSend_evolves k s
  | .quadratureStep q a b => execQuadratureStep_evolves q a b s
  | .indexEdge q => execIndexEdge_evolves q s
  | .qdSample port q => execQdSample_evolves port q s
  | .qdClear port q => execQdClear_evolves port q s
  | .qdSampleSend q => execQdSampleSend_evolves q s
  | .qdCfgWrite port q val => execQdCfgWrite_evolves port q val s
  | .senseSubWrite port k val => execSenseSubWrite_evolves port k val s
  | .timeNowRead port => execTimeNowRead_evolves port s
  | .qdLastCntRead port q => execQdLastCntRead_evolves port q s
  | .slotStart src => execSlotStart_evolves src s
  | .slotStop src => execSlotStop_evolves src s
  | .slotQuery src => execSlotQuery_evolves src s
  | .markSet src => execMarkSet_evolves src s
  | .slotPacketSend spool slotB => execSlotPacketSend_evolves spool slotB s
  | .markClear src => execMarkClear_evolves src s
  | .markQuery src => execMarkQuery_evolves src s
  | .spoolQuery src => execSpoolQuery_evolves src s
  | .mtInsert src => execMtInsert_evolves src s
  | .slotFlushTimeout spool slotB => execSlotFlushTimeout_evolves spool slotB s
  | .mtLookup src => execMtLookup_evolves src s
  | .mtDelete src => execMtDelete_evolves src s
  | .exportStart src => execExportStart_evolves src s
  | .exportStop src => execExportStop_evolves src s
  | .mtSweep => execMtSweep_evolves s
  | .resize src => execResize_evolves src s
  | .spoolClose spool => execSpoolClose_evolves spool s
  | .exportPacketSend spool => execExportPacketSend_evolves spool s
  | .splWptrRead port spool => execSplWptrRead_evolves port spool s
  | .splLiveRead port spool => execSplLiveRead_evolves port spool s
  | .reelWordAccess g bank => execReelWordAccess_evolves g bank s
  | .memoryInitDone => execMemoryInitDone_evolves s
  | .correctedWriteBack g bank => execCorrectedWriteBack_evolves g bank s
  | .regionTestStart => execRegionTestStart_evolves s
  | .regionTestEnd fail => execRegionTestEnd_evolves fail s
  | .bankTestStart port g bank => execBankTestStart_evolves port g bank s
  | .bankTestStop port => execBankTestStop_evolves port s
  | .bankTestRegionTimer => execBankTestRegionTimer_evolves s
  | .memCtlWrite port val => execMemCtlWrite_evolves port val s
  | .groupWakeDone g => execGroupWakeDone_evolves g s
  | .groupIdleTimeout g => execGroupIdleTimeout_evolves g s
  | .memConfRead port m => execMemConfRead_evolves port m s
  | .bundleEntryTaken router side => execBundleEntryTaken_evolves router side s
  | .xingUnstable x => execXingUnstable_evolves x s
  | .pulseArrival x => execPulseArrival_evolves x s
  | .pulseDeliveryDone x => execPulseDeliveryDone_evolves x s
  | .islandClockStop isl => execIslandClockStop_evolves isl s
  | .functionSwitch port pin val => execFunctionSwitch_evolves port pin val s
  | .wakeRequest isl => execWakeRequest_evolves isl s
  | .crossingPresent isl => execCrossingPresent_evolves isl s
  | .pinBankCfgWrite port b val => execPinBankCfgWrite_evolves port b val s
  | .viobFault b => execViobFault_evolves b s
  | .viobRestore b => execViobRestore_evolves b s
  | .pinLevelAccept pin level => execPinLevelAccept_evolves pin level s
  | .pinWakeEvent pin level => execPinWakeEvent_evolves pin level s
  | .pinEvtWrite port pin val => execPinEvtWrite_evolves port pin val s
  | .pinArm port pin => execPinArm_evolves port pin s
  | .pinPendClear port b hi val => execPinPendClear_evolves port b hi val s
  | .pinOutWrite port b hi val => execPinOutWrite_evolves port b hi val s
  | .pinEventSend pin => execPinEventSend_evolves pin s
  | .pinSet port b hi val => execPinSet_evolves port b hi val s
  | .pinClr port b hi val => execPinClr_evolves port b hi val s
  | .gatewayPinsRead b dom => execGatewayPinsRead_evolves b dom s
  | .pinTgl port b hi val => execPinTgl_evolves port b hi val s
  | .pinDirWrite port b hi val => execPinDirWrite_evolves port b hi val s
  | .gatewayPinsWrite b dom => execGatewayPinsWrite_evolves b dom s
  | .gatewayOeRead b dom => execGatewayOeRead_evolves b dom s
  | .gatewayOeWrite b dom => execGatewayOeWrite_evolves b dom s
  | .pwmPeriodBoundary c => execPwmPeriodBoundary_evolves c s
  | .gatewayRearm b dom => execGatewayRearm_evolves b dom s
  | .gatewayPwmRead b dom => execGatewayPwmRead_evolves b dom s
  | .gatewayPwmWrite b dom => execGatewayPwmWrite_evolves b dom s
  | .pwmCfgWrite port c val => execPwmCfgWrite_evolves port c val s
  | .gatewaySpiRead b dom => execGatewaySpiRead_evolves b dom s
  | .gatewaySpiWrite b dom => execGatewaySpiWrite_evolves b dom s
  | .gatewayI2cRead b dom => execGatewayI2cRead_evolves b dom s
  | .pwmDutyWrite port c val => execPwmDutyWrite_evolves port c val s
  | .gatewayI2cWrite b dom => execGatewayI2cWrite_evolves b dom s
  | .pwmPeriodWrite port c val => execPwmPeriodWrite_evolves port c val s
  | .spiTransferStart port u val => execSpiTransferStart_evolves port u val s
  | .spiTransferEnd u rx => execSpiTransferEnd_evolves u rx s
  | .i2cTransferStart port u val => execI2cTransferStart_evolves port u val s
  | .i2cTransferEnd u cause xferred rx => execI2cTransferEnd_evolves u cause xferred rx s
  | .stretchTimeout u xferred => execStretchTimeout_evolves u xferred s
  | .linkTrainingStep p => execLinkTrainingStep_evolves p s
  | .trainTimeout p => execTrainTimeout_evolves p s
  | .trainRetry p => execTrainRetry_evolves p s
  | .linkDown p cause => execLinkDown_evolves p cause s
  | .hostTrain p ack => execHostTrain_evolves p ack s
  | .alignBlock p lane => execAlignBlock_evolves p lane s
  | .hostRd p seq tag words => execHostRd_evolves p seq tag words s
  | .hostWr p seq tag words => execHostWr_evolves p seq tag words s
  | .hostPly p seq tag arg words => execHostPly_evolves p seq tag arg words s
  | .packetCrcError p => execPacketCrcError_evolves p s
  | .linkAck p seq => execLinkAck_evolves p seq s
  | .linkNak p seq => execLinkNak_evolves p seq s
  | .linkCredit p cls count => execLinkCredit_evolves p cls count s
  | .replayTimeout p => execReplayTimeout_evolves p s
  | .rspSend p => execRspSend_evolves p s
  | .mbxSend p => execMbxSend_evolves p s
  | .ntfSend p => execNtfSend_evolves p s
  | .ntfRptrWrite port val => execNtfRptrWrite_evolves port val s
  | .packetLayerTimeout p => execPacketLayerTimeout_evolves p s
  | .batchDataWrite port val => execBatchDataWrite_evolves port val s
  | .commit port => execCommit_evolves port s
  | .commitAt port => execCommitAt_evolves port s
  | .discard port => execDiscard_evolves port s
  | .batchCheckDone port => execBatchCheckDone_evolves port s
  | .portRetrain port target => execPortRetrain_evolves port target s
  | .portIslandReset port target => execPortIslandReset_evolves port target s
  | .portResetEnd p => execPortResetEnd_evolves p s
  | .domainReset port dom => execDomainReset_evolves port dom s
  | .flashReadDone words dqs => execFlashReadDone_evolves words dqs s
  | .cfgStreamWrite port val => execCfgStreamWrite_evolves port val s
  | .wreg => execWreg_evolves s
  | .skein => execSkein_evolves s
  | .inst => execInst_evolves s
  | .dirEnd => execDirEnd_evolves s
  | .placementComplete => execPlacementComplete_evolves s
  | .startFull port => execStartFull_evolves port s
  | .framesP => execFramesP_evolves s
  | .framesL => execFramesL_evolves s
  | .skeinFrames => execSkeinFrames_evolves s
  | .region => execRegion_evolves s
  | .keywrap => execKeywrap_evolves s
  | .startPartial port => execStartPartial_evolves port s
  | .epoch => execEpoch_evolves s
  | .nextkey => execNextkey_evolves s
  | .endCheck => execEndCheck_evolves s
  | .signature => execSignature_evolves s
  | .ioRelease => execIoRelease_evolves s
  | .abort port => execAbort_evolves port s
  | .clearRegion port => execClearRegion_evolves port s
  | .streamLost => execStreamLost_evolves s
  | .regionRelease => execRegionRelease_evolves s
  | .chainInputTimeout => execChainInputTimeout_evolves s
  | .chainSync => execChainSync_evolves s
  | .scrubFrameRead => execScrubFrameRead_evolves s
  | .tileTestEnd failUnit => execTileTestEnd_evolves failUnit s
  | .tripleVote => execTripleVote_evolves s
  | .tileTestStart => execTileTestStart_evolves s
  | .tileTest port val => execTileTest_evolves port val s
  | .fuseRetire port val => execFuseRetire_evolves port val s
  | .fuseProgramDone => execFuseProgramDone_evolves s
  | .takeOwnership port val => execTakeOwnership_evolves port val s
  | .programSlot port val => execProgramSlot_evolves port val s
  | .revokeSlot port val => execRevokeSlot_evolves port val s
  | .attest port => execAttest_evolves port s
  | .seal port val => execSeal_evolves port val s
  | .advanceRollback port val => execAdvanceRollback_evolves port val s
  | .signHead port => execSignHead_evolves port s
  | .reportDone => execReportDone_evolves s
  | .ledgerAckWrite port val => execLedgerAckWrite_evolves port val s
  | .recSelWrite port val => execRecSelWrite_evolves port val s
  | .ledgerSeqRead port => execLedgerSeqRead_evolves port s
  | .doze port => execDoze_evolves port s
  | .park port => execPark_evolves port s
  | .wake port => execWake_evolves port s
  | .powerEntryProceed => execPowerEntryProceed_evolves s
  | .wakeTimer => execWakeTimer_evolves s
  | .thermalRelease => execThermalRelease_evolves s
  | .thermTrip region temp => execThermTrip_evolves region temp s
  | .wakeComplete => execWakeComplete_evolves s
  | .governorPeriod temps cong pmb => execGovernorPeriod_evolves temps cong pmb s
  | .pmbAlert ack status => execPmbAlert_evolves ack status s
  | .pwrVlimWrite port val => execPwrVlimWrite_evolves port val s
  | .pwrThermWrite port val => execPwrThermWrite_evolves port val s
  | .powerOnReset => execPowerOnReset_evolves s
  | .pwrWakeAtWrite port val => execPwrWakeAtWrite_evolves port val s
  | .sysLockWrite port val => execSysLockWrite_evolves port val s
  | .fullReset => execFullReset_evolves s
  | .sysResetFull port val mode pulldef => execSysResetFull_evolves port val mode pulldef s
  | .sysResetFabric port val => execSysResetFabric_evolves port val s
  | .railBrownout rail => execRailBrownout_evolves rail s
  | .obsCntSrcWrite port k val => execObsCntSrcWrite_evolves port k val s
  | .obsProbeSrcWrite port j val => execObsProbeSrcWrite_evolves port j val s
  | .snap port => execSnap_evolves port s
  | .tallyRead => execTallyRead_evolves s
  | .probeRecord j data time => execProbeRecord_evolves j data time s
  | .traceWrite => execTraceWrite_evolves s
  | .obsCntRead port k => execObsCntRead_evolves port k s
  | .counterRead dom => execCounterRead_evolves dom s
  | .idcode => execIdcode_evolves s
  | .samplePreload balls => execSamplePreload_evolves balls s
  | .bypass code => execBypass_evolves code s
  | .testLogicReset => execTestLogicReset_evolves s
  | .mailboxArrival p k => execMailboxArrival_evolves p k s
  | .chainInputWord val => execChainInputWord_evolves val s
  | .laneCmdComplete port data => execLaneCmdComplete_evolves port data s
  | .evacuationCapRelease => execEvacuationCapRelease_evolves s
  | .upset u => execUpset_evolves u s
  | .porstNDeasserted mode pulldef => execPorstNDeasserted_evolves mode pulldef s
  | .rstNDeasserted mode pulldef => execRstNDeasserted_evolves mode pulldef s
  | .vfuseLost => execVfuseLost_evolves s

/-- Settles O2: of what every command keeps, the queue. -/
theorem everyCommandCompletes : Obligations.EveryCommandCompletes := by
  intro c s
  obtain ⟨t, hnext, hev⟩ := exec_evolves c s
  exact ⟨t, hnext, hev.pending⟩

end Sys2Proof.Machine
end

section
/-! The state at reset, and the timebase. -/
namespace Sys2Proof.Machine

/-- The invariant holds at reset: nothing is stored in memory or in the registers, and no fuse program runs. -/
theorem canonical_reset : Canonical State.reset where
  mem := rfl
  regs := rfl
  sec := ⟨fun f h => by cases h⟩

/-- Settles O5: the tables of State.reset are empty, so what is read of them is each one's default. -/
theorem resetState : Obligations.ResetState :=
  ⟨canonical_reset, fun _ _ _ _ => rfl, fun _ => rfl, rfl, rfl, fun _ => rfl, fun _ => rfl, rfl, rfl, rfl⟩

/-! ## The timebase -/

/-- Where no value crossing of an island is unstable or absent, its readers have the present values (R382). -/
theorem accepted_of_agree {s : State} {isl idx : Nat}
    (h : s.xng.xings.any (fun e => valueOf isl idx e.1 && (e.2.unstable || e.2.absent)) = false) :
    accepted s isl idx = xingWords s isl idx := by
  have hnone : s.xng.xings.find? (fun e => valueOf isl idx e.1 && (e.2.unstable || e.2.absent)) = none := by
    rw [List.find?_eq_none]
    intro e he
    exact List.any_eq_false.1 h e he
  simp only [accepted, hnone]

/-- Where no value crossing of an island is unstable or absent, none is unstable (R384). -/
theorem unstable_of_agree {s : State} {isl idx : Nat}
    (h : s.xng.xings.any (fun e => valueOf isl idx e.1 && (e.2.unstable || e.2.absent)) = false) :
    unstable s isl idx = false := by
  rw [unstable, List.any_eq_false]
  rw [List.any_eq_false] at h
  intro e he hbad
  obtain ⟨hval, huns⟩ := Bool.and_eq_true_iff.1 hbad
  exact h e he (by simp [hval, huns])

/-- A read of TIME_NOW_LO while the timebase's values agree: the count, its high half latched for the port (R289). -/
theorem nowRead_of_agree {s : State} (p : Nat)
    (h : s.xng.xings.any (fun e => valueOf 5 0 e.1 && (e.2.unstable || e.2.absent)) = false) :
    nowRead p s = (s.setRegP p .timeNowHi 0 0 (hi32 s.now)).finish stOk [lo32 s.now &&& 0xFFFFFF00] := by
  have hacc : accepted s 5 0 = [lo32 s.now, hi32 s.now] := accepted_of_agree h
  have hst : unstable (s.setRegP p .timeNowHi 0 0 (hi32 s.now)) 5 0 = false := unstable_of_agree (by exact h)
  simp [nowRead, readFrom, hacc, hst]

/-- What is served of a block other than SYS, CFG, SEC and PWR after release (R509). -/
theorem servedRead_of_released {s : State} (h : beforeRelease s = false) (act : State → State) : servedRead act s = act s := by
  simp [servedRead, h]

/-- The start of the timebase (R266). -/
theorem timeStart_of_unlocked {s : State} (h : s.time.locked = false) :
    timeStart s = { s with time := { s.time with locked := true, count := 0 } } := by
  simp [timeStart, h, State.onTime]

/-- A start without TBREF goes into holdover and tells the owner (R266). -/
theorem startTimeout_of_unlocked {s : State} (h : s.time.locked = false) :
    startTimeout s = notifyOwner 0xA0 0 (tickPair 0)
      { s with time := { s.time with locked := true, count := 0, refLost := true, holdover := true,
                                     holdStart := if s.time.holdover then s.time.holdStart else 0 } } := by
  simp [startTimeout, h, refGone, timeStart_of_unlocked h, State.onTime]

/-- The loss of TBREF is counted and told to the owner (R268). -/
theorem tbrefGone_of_locked {s : State} (h : s.time.locked = true) (hl : s.time.refLost = false) :
    tbrefGone s = notifyOwner 0xA0 0 (tickPair s.now)
      ((s.onTime (fun x => { x with refLost := true, holdover := true,
                                    holdStart := if x.holdover then x.holdStart else x.count })).bump .timeRefCount 0 1) := by
  simp [tbrefGone, h, hl, refGone]

/-- The return of TBREF (R268). -/
theorem tbrefFound_of_lost {s : State} (h : s.time.refLost = true) :
    tbrefFound s = { s with time := { s.time with refLost := false } } := by
  simp [tbrefFound, h, State.onTime]

/-- The end of holdover tells the owner its length (R268). -/
theorem holdEnd_of_back {s : State} (h : s.time.holdover = true) (hl : s.time.refLost = false) :
    holdEnd s = notifyOwner 0xA1 0 (tickPair s.now ++ tickPair (s.now - s.time.holdStart))
      { s with time := { s.time with holdover := false } } := by
  simp [holdEnd, h, hl, State.onTime]

/-- The first nearness of the wrap is told to the owner (R267). -/
theorem nearWrap_of_top {s : State} (h : topSet s.now = true) (hw : s.time.wrapNear = false) :
    nearWrap s = notifyOwner 0xA2 0 [] { s with time := { s.time with wrapNear := true } } := by
  simp [nearWrap, h, hw, State.onTime]

/-- The wrap sets the count to 0 (R267). -/
theorem wrap_of_near {s : State} (hw : s.time.wrapNear = true) (h : topSet s.now = true) :
    wrap s = { s with time := { s.time with wrapNear := false, count := 0 } } := by
  have hc : topSet s.time.count = true := h
  simp [wrap, hw, hc, State.onTime]

/-- The commit tick of a locked timebase falls at the tick that is due (R273). -/
theorem commitAct_of_locked {s s1 : State} {t : Tick} (h : s.time.locked = true) (ht : t = dueAt 16 s.now s.time.lastCommit)
    (hs : s1 = (advanceTo t s).onTime (fun x => { x with lastCommit := t })) :
    commitAct s = wakeDue t (tally 8 0 0 (sampleTick t (s1.time.lastPulse == t) (applyDue t s1))) := by
  rw [hs, ht, commitAct, if_pos h]

/-- The TBSYNC value of a locked timebase falls at the tick that is due (R270). -/
theorem pulseAct_of_locked {s s1 : State} {t : Tick} (h : s.time.locked = true) (ht : t = dueAt 20 s.now s.time.lastPulse)
    (hs : s1 = (advanceTo t s).onTime (fun x =>
      { x with lastPulse := t, emitted := if bitOf (s.reg .timeTbsync 0) 31 then some (t.toNat / 2 ^ 20) else x.emitted })) :
    pulseAct s = takeUtil (tally 8 0 1 (pwmAlign (sampleTick t ((newInterval s1).time.lastCommit == t)
      (loadTime (pulseTime (newInterval s1)))))) := by
  rw [hs, ht, pulseAct, if_pos h]

/-- The snapshot of a locked timebase falls at the tick that is due (R383). -/
theorem snapshot_of_locked {s : State} {t : Tick} (h : s.time.locked = true) (ht : t = dueAt 12 s.now s.time.lastSnap) :
    snapshot s = agree 5 ((advanceTo t s).onTime (fun x => { x with snap := t, lastSnap := t })) := by
  rw [ht, snapshot, if_pos h]

/-- Settles O32: each command of the timebase under the condition of its rule. -/
theorem timebase : Obligations.Timebase := by
  intro s
  refine ⟨?start, ?startTimeout, ?lost, ?back, ?holdoverEnd, ?wrapNear, ?wrap, ?nowRead, fun hlocked => ⟨?commitTick, ?pulse, ?snapshot⟩⟩
  case start => exact fun h => congrArg Host.Outcome.next (timeStart_of_unlocked h)
  case startTimeout => exact fun h => congrArg Host.Outcome.next (startTimeout_of_unlocked h)
  case lost => exact fun h hl => congrArg Host.Outcome.next (tbrefGone_of_locked h hl)
  case back => exact fun h => congrArg Host.Outcome.next (tbrefFound_of_lost h)
  case holdoverEnd => exact fun h hl => congrArg Host.Outcome.next (holdEnd_of_back h hl)
  case wrapNear => exact fun h hw => congrArg Host.Outcome.next (nearWrap_of_top h hw)
  case wrap => exact fun hw h => congrArg Host.Outcome.next (wrap_of_near hw h)
  case nowRead =>
    intro p hrel hagree
    exact congrArg Host.Outcome.next ((servedRead_of_released hrel _).trans (nowRead_of_agree p hagree))
  case commitTick => exact fun t s1 ht hs => congrArg Host.Outcome.next (commitAct_of_locked hlocked ht hs)
  case pulse => exact fun t s1 ht hs => congrArg Host.Outcome.next (pulseAct_of_locked hlocked ht hs)
  case snapshot => exact fun t ht => congrArg Host.Outcome.next (snapshot_of_locked hlocked ht)

end Sys2Proof.Machine
end

section
/-! Writes of registers at an address. -/
namespace Sys2Proof.Machine

/-- A register access changes at most which islands' clocks stand (R390). -/
theorem toBlock_eq (r : Reg) (i : Nat) (s : State) : ∃ l, toBlock r i s = { s with xng := { s.xng with stopped := l } } := by
  unfold toBlock
  split
  · exact ⟨_, rfl⟩
  · exact ⟨s.xng.stopped, rfl⟩

/-- What a write finds at its register's block: the state, with at most an island's clock started. -/
theorem reached_eq (r : Reg) (i : Nat) (s : State) :
    ∃ l, (if servedBlock r.block then s else toBlock r i s) = { s with xng := { s.xng with stopped := l } } := by
  split
  · exact ⟨s.xng.stopped, rfl⟩
  · exact toBlock_eq r i s

/-- A write at an address that is not a multiple of 4 (R38). -/
theorem writeReg_of_unaligned {a : Nat} (h : a % 4 ≠ 0) (p : Fin 4) (v : Word) (s : State) :
    writeReg p a v s = s.stat stUnsupported :=
  if_pos h

/-- A write at an address that no chapter assigns (R21). -/
theorem writeReg_of_unassigned {a : Nat} (h : a % 4 = 0) (hr : regAt a = none) (p : Fin 4) (v : Word) (s : State) :
    writeReg p a v s = s.stat stRange := by
  simp [writeReg, h, hr]

/-- A write at a register's address, where its block serves the port (R509): it reaches the block and writes the register. -/
theorem writeReg_of_assigned {a : Nat} {r : Reg} {i j : Nat} {s : State} (h : a % 4 = 0) (hr : regAt a = some (r, i, j))
    (hserves : (servedBlock r.block || !beforeRelease s) = true) (p : Fin 4) (v : Word) :
    writeReg p a v s = writeOf p r i j v (if servedBlock r.block then s else toBlock r i s) := by
  by_cases hb : servedBlock r.block = true
  · simp [writeReg, h, hr, hb]
  · have hrel : beforeRelease s = false := by simpa [hb] using hserves
    simp [writeReg, h, hr, hb, served, hrel]

/-- A plain write that its checks let through stores the setting (R19). -/
theorem plainWrite_of_ok {p : Fin 4} {r : Reg} {i j : Nat} {v : Word} {s : State} (hd : isDesc r = false)
    (hset : hasSetting r = true) (hok : settingStatus s p r i j v = stOk) :
    plainWrite p r i j v s = (putSetting p r i j v s).stat stOk := by
  simp [plainWrite, hd, hset, settingWrite, checked, hok, firstBad, okAfter]

/-- What a register reads for the port that has written its fields. -/
theorem regP_putFields_same (s : State) (p : Nat) (r : Reg) (i j : Nat) (v : Word) :
    (s.putFields p r i j v).regP p r i j = written r (s.regP p r i j) v := by
  simp [State.putFields, regP_setRegP]

/-- Another port's copy of a register that each port holds for itself stands (R638). -/
theorem regP_putFields_other {p q : Nat} {r : Reg} (hport : (regDesc r).perPort = true) (hne : q ≠ p) (s : State) (i j : Nat) (v : Word) :
    (s.putFields p r i j v).regP q r i j = s.regP q r i j := by
  have hkey : regKey r i j q ≠ regKey r i j p := by
    simp only [regKey, hport, if_true]
    omega
  simp [State.putFields, regP_setRegP, hkey]

/-! ## Notify masks (R638) -/

/-- The NOTIFY_MASK registers of the blocks. -/
def notifyMasks : List Reg :=
  [.sysNotifyMask, .cfgNotifyMask, .scrubNotifyMask, .secNotifyMask, .pwrNotifyMask, .plyNotifyMask, .memNotifyMask, .splNotifyMask,
    .laneNotifyMask, .timeNotifyMask, .pinNotifyMask, .hlkNotifyMask, .obsNotifyMask]

/-- Each stands alone at an aligned address, has settings, and is held for each port. -/
theorem notifyMask_table : ∀ r ∈ notifyMasks, r.addr 0 0 % 4 = 0 ∧ regAt (r.addr 0 0) = some (r, 0, 0) ∧ isDesc r = false ∧
    hasSetting r = true ∧ (regDesc r).perPort = true := by
  decide

/-- A write of a mask has no operation of its own, its value passes every check, and its setting is its fields. -/
theorem notifyMask_write (p : Fin 4) (v : Word) (s : State) : ∀ r ∈ notifyMasks, writeOf p r 0 0 v s = plainWrite p r 0 0 v s ∧
    valueStatus s p r 0 0 v = stOk ∧ putSetting p r 0 0 v s = s.putFields p r 0 0 v := by
  simp only [notifyMasks, List.forall_mem_cons, List.not_mem_nil, false_implies, implies_true, and_true]
  and_intros <;> rfl

/-- Every port may write its masks. -/
theorem mayWrite_notifyMask (s : State) (p : Nat) : ∀ r ∈ notifyMasks, mayWrite s p r 0 = true := by
  simp only [notifyMasks, List.forall_mem_cons, List.not_mem_nil, false_implies, implies_true, and_true]
  and_intros <;> simp [mayWrite, isDesc, regDesc, ownerCopy]

/-- A write of a mask stores the mask's fields for the writing port and completes with OK. -/
theorem writeOf_notifyMask {r : Reg} (hr : r ∈ notifyMasks) (p : Fin 4) (v : Word) (s : State) :
    writeOf p r 0 0 v s = (s.putFields p r 0 0 v).stat stOk := by
  obtain ⟨-, -, hdesc, hset, -⟩ := notifyMask_table r hr
  obtain ⟨hplain, hvalue, hput⟩ := notifyMask_write p v s r hr
  have hok : settingStatus s p r 0 0 v = stOk := by rw [settingStatus, mayWrite_notifyMask s p r hr, if_pos rfl, hvalue]
  rw [hplain, plainWrite_of_ok hdesc hset hok, hput]

/-- Settles O9: the clauses of an address, of a setting, and of the masks. -/
theorem registerWrites : Obligations.RegisterWrites := by
  intro s p a v
  refine ⟨?unaligned, ?unassigned, ?setting, fun r i => toBlock_eq r i s, ?mask⟩
  case unaligned => exact fun h => congrArg Host.Outcome.next (writeReg_of_unaligned h p v s)
  case unassigned => exact fun h hr => congrArg Host.Outcome.next (writeReg_of_unassigned h hr p v s)
  case setting =>
    rintro r i j u h hr hserves rfl hplain hd hset hok
    exact congrArg Host.Outcome.next ((writeReg_of_assigned h hr hserves p v).trans (hplain.trans (plainWrite_of_ok hd hset hok)))
  case mask =>
    intro r hr ha hrel
    obtain ⟨h4, hat, -, -, hport⟩ := notifyMask_table r hr
    obtain ⟨l, hu⟩ := reached_eq r 0 s
    have hwrite : writeReg p a.toNat v s = (State.putFields { s with xng := { s.xng with stopped := l } } p r 0 0 v).stat stOk := by
      rw [ha, writeReg_of_assigned h4 hat (by simp [hrel]), writeOf_notifyMask hr, hu]
    exact ⟨_, congrArg Host.Outcome.next hwrite, rfl, rfl, regP_putFields_same ..,
      fun q hq => regP_putFields_other hport (by omega) ..⟩

end Sys2Proof.Machine
end

section
/-! Logic cells (R53–R58): what each mode does where its condition holds. -/
namespace Sys2Proof.Machine

/-- A function cell that can evaluate fires with its TABLE's bit and takes its used inputs (R53). -/
theorem evalCell_of_ready {s : State} {t c : Nat} (hrun : running s t = true) (hmode : cellMode s t c = 0)
    (hin : inputsReady s t c = true) (hlatch : latchReady s t c = true) :
    evalCell t c s = fireCell t c (cellTable s t c (cellIndex s t c)) (usedSinks s t c) s := by
  simp [evalCell, canEval, hrun, hmode, hin, hlatch]

/-- A merge cell forwards the token of the side it serves, and notes whether both held (R55, R58). -/
theorem mergeCell_of_side {s : State} {t c side : Nat} {v : Bool} (hrun : running s t = true) (hmode : cellMode s t c = 1)
    (hlatch : latchReady s t c = true) (hside : mergeSide s t c = some (side, v)) :
    mergeCell t c s = forward t c side v (s.onTile t (fun x =>
      { x with mergeBoth := x.mergeBoth || bothHold s t c, mergeOwe := putNat c (bothHold s t c && side == 0) x.mergeOwe })) := by
  simp [mergeCell, hrun, hmode, hlatch, hside]

/-- An arbiter cell forwards the token of the side it grants; the other side's request waits from then on (R56, R58). -/
theorem arbCell_of_side {s : State} {t c side : Nat} {tie v : Bool} (hrun : running s t = true) (hmode : cellMode s t c = 2)
    (hlatch : latchReady s t c = true) (hside : arbSide s t c tie = some (side, v)) :
    arbCell t c tie s = forward t c side v ((if tie = true ∧ bothHold s t c = true then s.nextFree else s).onTile t (fun x =>
      { x with lastGrant := x.lastGrant.put c (side == 1),
               arbWait := if bothHold s t c then insertNat (6 * c + (1 - side)) x.arbWait else x.arbWait })) := by
  simp [arbCell, hrun, hmode, hlatch, hside]

/-- Of two requests that hold at an arbiter cell, the order says which is granted (R56). -/
theorem arbSide_of_both {s : State} {t c : Nat} {v w : Bool} (h0 : tokenOn s t (6 * c) = some v)
    (h1 : tokenOn s t (6 * c + 1) = some w) (tie : Bool) :
    arbSide s t c tie = some (if arbOrder s t c tie = 0 then (0, v) else (1, w)) := by
  simp [arbSide, h0, h1]

/-- The request at input 0 that alone has waited is granted (R56). -/
theorem arbOrder_of_waited_zero {s : State} {t c : Nat} (h0 : (tileSt s t).arbWait.contains (6 * c) = true)
    (h1 : (tileSt s t).arbWait.contains (6 * c + 1) = false) (tie : Bool) : arbOrder s t c tie = 0 := by
  simp [arbOrder, -List.contains_eq_mem, h0, h1]

/-- The request at input 1 that alone has waited is granted (R56). -/
theorem arbOrder_of_waited_one {s : State} {t c : Nat} (h0 : (tileSt s t).arbWait.contains (6 * c) = false)
    (h1 : (tileSt s t).arbWait.contains (6 * c + 1) = true) (tie : Bool) : arbOrder s t c tie = 1 := by
  simp [arbOrder, -List.contains_eq_mem, h0, h1]

/-- A source cell refills its latch with SRCVAL (R57). -/
theorem refillCell_of_ready {s : State} {t c : Nat} (hrun : running s t = true) (hmode : cellMode s t c = 3)
    (hlatch : latchReady s t c = true) : refillCell t c s = fireCell t c (bitOf (cellCtl s t c) 11) [] s := by
  simp [refillCell, hrun, hmode, hlatch]

/-- A sink cell takes its used inputs (R57). -/
theorem sinkCell_of_ready {s : State} {t c : Nat} (hrun : running s t = true) (hmode : cellMode s t c = 4)
    (hin : inputsReady s t c = true) : sinkCell t c s = settle t (raiseAcks s t (usedSinks s t c)) := by
  simp [sinkCell, hrun, hmode, hin]

/-- What a merge or an arbiter cell puts out is looked up in its TABLE, which the cell's own notes leave alone. -/
theorem forward_noted {s s1 : State} {t c side : Nat} {v : Bool} {f : TileSt → TileSt} (hcfg : s1.fab.cfg = s.fab.cfg) :
    forward t c side v (s1.onTile t f) = settle t (raiseAcks
      ((s1.onTile t f).onTile t (fun x => { x with latch := x.latch.put c (cellTable s t c (2 * side + b2n v)) })) t [6 * c + side]) := by
  have htable : sideOut (s1.onTile t f) t c side v = cellTable s t c (2 * side + b2n v) := by
    rw [sideOut, cellTable, cellTable, cfgWord, cfgWord]
    exact congrArg (fun m : NMap Word => bitOf (m.get 0 _) _) hcfg
  rw [forward, htable, fireCell]

/-- Settles O11: a clause for each mode, and for the request that alone has waited. -/
theorem logicCells : Obligations.LogicCells := by
  intro s t c hrun
  refine ⟨?function, ?merge, ?arbiter, ?waited, ?source, ?sink⟩
  case function => exact fun hmode hin hlatch => congrArg Host.Outcome.next (evalCell_of_ready hrun hmode hin hlatch)
  case merge =>
    exact fun side v hmode hlatch hside =>
      congrArg Host.Outcome.next ((mergeCell_of_side hrun hmode hlatch hside).trans (forward_noted rfl))
  case arbiter =>
    rintro tie side v s1 hmode hlatch hside rfl
    refine congrArg Host.Outcome.next ((arbCell_of_side hrun hmode hlatch hside).trans (forward_noted ?_))
    split <;> rfl
  case waited =>
    intro tie v w k h0 h1 hwait hother
    rw [arbSide_of_both h0 h1]
    match k with
    | 0 => rw [arbOrder_of_waited_zero hwait hother]; rfl
    | 1 => rw [arbOrder_of_waited_one hother hwait]; rfl
  case source => exact fun hmode hlatch => congrArg Host.Outcome.next (refillCell_of_ready hrun hmode hlatch)
  case sink => exact fun hmode hin => congrArg Host.Outcome.next (sinkCell_of_ready hrun hmode hin)

end Sys2Proof.Machine
end

section
/-! The frame of the tiles' own operations (R53–R70): a cell, a constant, a MAC or a sound queue changes tiles alone, and no tile's RAM. -/
namespace Sys2Proof.Machine

/-- A state from which another differs in its tiles alone, and in no tile's RAM. -/
structure TilesAlone (s u : State) : Prop where
  rest : u = { s with fab := { s.fab with tiles := u.fab.tiles } }
  ram : ∀ j, (tileSt u j).ram = (tileSt s j).ram

theorem TilesAlone.refl (s : State) : TilesAlone s s := ⟨rfl, fun _ => rfl⟩
theorem TilesAlone.trans {s t u : State} (h : TilesAlone s t) (k : TilesAlone t u) : TilesAlone s u where
  rest := by rw [k.rest, h.rest]
  ram j := (k.ram j).trans (h.ram j)
theorem Settles.tilesAlone {s u : State} (h : Settles s u) : TilesAlone s u := ⟨h.rest, h.ram⟩
/-- A change of a tile that leaves its RAM may come first. -/
theorem TilesAlone.of_onTile {s u : State} {t : Nat} {f : TileSt → TileSt} (h : TilesAlone (s.onTile t f) u)
    (hram : ∀ x, (f x).ram = x.ram) : TilesAlone s u := by
  refine TilesAlone.trans ⟨rfl, fun j => ?_⟩ h
  rw [tileSt_onTile]
  split
  · rw [hram, ‹j = t›]
  · rfl
/-- The end of most operations: inputs are acknowledged, and the handshakes go on. -/
theorem raiseAcks_settle_tilesAlone (s : State) (t : Nat) (ks : List Nat) : TilesAlone s (settle t (raiseAcks s t ks)) :=
  ((raiseAcks_settles ..).trans (settle_settles ..)).tilesAlone

/-! ## Cells, constants and MACs -/

theorem fireCell_tilesAlone (t c : Nat) (v : Bool) (ks : List Nat) (s : State) : TilesAlone s (fireCell t c v ks s) :=
  (raiseAcks_settle_tilesAlone ..).of_onTile fun _ => rfl
theorem evalCell_tilesAlone (t c : Nat) (s : State) : TilesAlone s (evalCell t c s) := by
  unfold evalCell
  split
  · exact fireCell_tilesAlone ..
  · exact .refl s
theorem mergeCell_tilesAlone (t c : Nat) (s : State) : TilesAlone s (mergeCell t c s) := by
  unfold mergeCell
  split
  · split
    · exact (fireCell_tilesAlone ..).of_onTile fun _ => rfl
    · exact .refl s
  · exact .refl s
/-- An arbiter cell changes tiles alone, at a tie from the state whose free value it has taken. -/
theorem arbCell_tilesAlone (t c : Nat) (tie : Bool) (s : State) :
    ∃ n, (tie = false → n = s.fresh) ∧ TilesAlone { s with fresh := n } (arbCell t c tie s) := by
  unfold arbCell
  split
  · split
    · extract_lets both s1
      refine ⟨s1.fresh, fun h => by simp [s1, h], ?_⟩
      have hs1 : s1 = { s with fresh := s1.fresh } := by unfold s1; split <;> rfl
      rw [← hs1]
      exact (fireCell_tilesAlone ..).of_onTile fun _ => rfl
    · exact ⟨s.fresh, fun _ => rfl, .refl s⟩
  · exact ⟨s.fresh, fun _ => rfl, .refl s⟩
theorem refillCell_tilesAlone (t c : Nat) (s : State) : TilesAlone s (refillCell t c s) := by
  unfold refillCell
  split
  · exact fireCell_tilesAlone ..
  · exact .refl s
theorem sinkCell_tilesAlone (t c : Nat) (s : State) : TilesAlone s (sinkCell t c s) := by
  unfold sinkCell
  split
  · exact raiseAcks_settle_tilesAlone ..
  · exact .refl s
theorem repeatConst_tilesAlone (t k : Nat) (s : State) : TilesAlone s (repeatConst t k s) := by
  unfold repeatConst
  split
  · exact (settle_settles ..).tilesAlone.of_onTile fun _ => rfl
  · exact .refl s
theorem macUnit_tilesAlone (t m : Nat) (s : State) : TilesAlone s (macUnit t m s) := by
  unfold macUnit
  split
  · split
    · extract_lets ctl wants ks p acc s1 s2
      split
      · exact .refl s
      · have hresult : TilesAlone s1 s2 := by
          unfold s2
          split
          · exact (emit_settles ..).tilesAlone
          · exact .refl s1
        exact (hresult.trans (raiseAcks_settle_tilesAlone ..)).of_onTile fun x => by split <;> rfl
    · exact .refl s
  · exact .refl s

/-! ## Queues whose pointers agree -/

/-- A queue that is stored with its pointers as sound as before changes queues alone. -/
theorem setTileQ_settles {s : State} {t q : Nat} {x : HQ (BitVec 36)} (hok : (tileQ s t q).ok = true → x.ok = true) :
    Settles s (s.setTileQ t q x) := by
  by_cases hq : q = 0
  · subst hq
    exact Settles.setTile (x := { tileSt s t with q0 := x }) rfl rfl ⟨rfl, rfl⟩ rfl rfl rfl ⟨hok, id⟩
  · have hq1 : tileQ s t q = (tileSt s t).q1 := if_neg hq
    have hset : s.setTileQ t q x = s.setTile t { tileSt s t with q1 := x } := by simp [State.setTileQ, State.onTile, hq]
    rw [hset]
    exact Settles.setTile rfl rfl ⟨rfl, rfl⟩ rfl rfl rfl ⟨id, hq1 ▸ hok⟩
/-- The head of a queue is taken as shown no more. -/
theorem unshow_settles (s : State) (t q : Nat) :
    Settles s (s.onTile t (fun x => if q = 0 then { x with shown0 := false } else { x with shown1 := false })) := by
  by_cases hq : q = 0
  · subst hq
    exact Settles.setTile (x := { tileSt s t with shown0 := false }) rfl rfl ⟨rfl, rfl⟩ rfl rfl rfl ⟨id, id⟩
  · simp only [hq, if_false]
    exact Settles.setTile (x := { tileSt s t with shown1 := false }) rfl rfl ⟨rfl, rfl⟩ rfl rfl rfl ⟨id, id⟩
/-- A queue whose pointers agree pops its head and nothing else (R70, R399). -/
theorem popTileQ_settles {s : State} {t q : Nat} (hok : tileQOk s t q = true) : Settles s (popTileQ t q s) := by
  unfold popTileQ
  split
  · rw [if_neg (by simp [hok])]
    exact (setTileQ_settles (HQ.pop_ok 32 _)).trans ((unshow_settles ..).trans (settle_settles ..))
  · exact .refl s
/-- A queue whose pointers agree takes a push, or lets it wait, and changes nothing else (R70, R399). -/
theorem takePush_settles {s : State} {t q : Nat} (hok : tileQOk s t q = true) : Settles s (takePush t q s) := by
  unfold takePush
  split
  · split
    · simp only [hok, Bool.not_true, Bool.false_eq_true, if_false]
      split
      · exact (setTileQ_settles (HQ.push_ok 32 _ _)).trans ((raiseAcks_settles ..).trans (settle_settles ..))
      · split
        · refine Settles.trans (setTileQ_settles ?_) ((raiseAcks_settles ..).trans (settle_settles ..))
          exact id
        · exact .refl s
    · exact .refl s
  · exact .refl s
/-- The pointers of a queue agree as long as only automatic moves happen. -/
theorem Settles.tileQOk {s u : State} (h : Settles s u) {t q : Nat} (hok : tileQOk s t q = true) : tileQOk u t q = true := by
  have hch : chained u t = chained s t := by rw [h.rest]; rfl
  have hq (p : Nat) (hp : (tileQ s t p).ok = true) : (tileQ u t p).ok = true := by
    by_cases h0 : p = 0
    · rw [tileQ, if_pos h0] at hp ⊢
      exact (h.okq t).1 hp
    · rw [tileQ, if_neg h0] at hp ⊢
      exact (h.okq t).2 hp
  simp only [Machine.tileQOk, hch, Bool.and_eq_true, Bool.or_eq_true] at hok ⊢
  exact ⟨hq _ hok.1, hok.2.imp_right (hq _)⟩
/-- The queue from which the items of a sound queue leave is sound. -/
theorem tileQOk_outQ {s : State} {t : Nat} {q : Fin 2} (hok : tileQOk s t q = true) : tileQOk s t (outQ s t q) = true := by
  unfold outQ
  split
  case isFalse => exact hok
  case isTrue hch =>
    match q with
    | 0 => simpa [tileQOk, hch, And.comm] using hok
    | 1 => exact hok
theorem pushTileQ_settles {s : State} {t : Nat} {q : Fin 2} (hok : tileQOk s t q = true) : Settles s (pushTileQ t q s) := by
  unfold pushTileQ
  split
  · exact takePush_settles hok
  · have hpop := popTileQ_settles (tileQOk_outQ hok)
    exact hpop.trans (takePush_settles (hpop.tileQOk hok))

/-! ## The frame -/

/-- What the obligation says of a command that changes tiles alone, from a state whose counter of free values may have moved on. -/
theorem TilesAlone.frame {s u : State} {n : Nat} {p : Prop} [Decidable p] (hn : ¬ p → n = s.fresh)
    (h : TilesAlone { s with fresh := n } u) :
    u = { s with fab := { s.fab with tiles := u.fab.tiles }, fresh := if p then u.fresh else s.fresh } ∧
      ∀ j, (tileSt u j).ram = (tileSt s j).ram := by
  have hfresh : (if p then u.fresh else s.fresh) = n := by
    split
    · rw [h.rest]
    · exact (hn ‹_›).symm
  refine ⟨?_, h.ram⟩
  rw [hfresh]
  exact h.rest

/-- Settles O13: each of the commands changes tiles alone; an arbiter at a tie also takes a free value. -/
theorem fabricFrame : Obligations.FabricFrame := by
  intro s u t c q k i hi hexec
  suffices h : ∃ n, (¬ i = .arbiterGrant t c true → n = s.fresh) ∧ TilesAlone { s with fresh := n } u by
    obtain ⟨n, hn, hu⟩ := h
    exact hu.frame hn
  simp only [List.mem_cons, List.not_mem_nil, or_false] at hi
  have same (h : TilesAlone s u) : ∃ n, (¬ i = .arbiterGrant t c true → n = s.fresh) ∧ TilesAlone { s with fresh := n } u :=
    ⟨s.fresh, fun _ => rfl, h⟩
  rcases hi with (rfl | rfl | rfl | rfl | rfl | rfl | rfl | rfl) | ⟨rfl | rfl, hok⟩ <;> cases hexec
  · exact same (evalCell_tilesAlone ..)
  · exact same (mergeCell_tilesAlone ..)
  · obtain ⟨n, hn, h⟩ := arbCell_tilesAlone t c false s
    exact ⟨n, fun _ => hn rfl, h⟩
  · obtain ⟨n, -, h⟩ := arbCell_tilesAlone t c true s
    exact ⟨n, fun hne => absurd rfl hne, h⟩
  · exact same (refillCell_tilesAlone ..)
  · exact same (sinkCell_tilesAlone ..)
  · exact same (repeatConst_tilesAlone ..)
  · exact same (macUnit_tilesAlone ..)
  · exact same (pushTileQ_settles hok).tilesAlone
  · exact same (popTileQ_settles hok).tilesAlone
end Sys2Proof.Machine
end

section
/-! Upsets (R78, R347, R535, R542): an upset flips the bit it names and no other of its kind. -/
namespace Sys2Proof.Machine

/-- A word in which one bit of a table may be flipped, read at any place: the bit is flipped there and nowhere else. -/
theorem NMap.get_set_flipBit {n : Nat} (m : NMap (BitVec n)) (k j b : Nat) :
    NMap.get 0 (m.set 0 k (flipBit (NMap.get 0 m k) b)) j = NMap.get 0 m j ^^^ (if j = k then BitVec.ofNat n (2 ^ b) else 0) := by
  rw [NMap.get_set]
  by_cases h : j = k
  · rw [if_pos h, if_pos h, h, flipBit]
  · rw [if_neg h, if_neg h]
    exact (BitVec.xor_zero).symm

/-! ## Frames -/

theorem settleRunning_settles (t : Nat) (s : State) : Settles s (settleRunning t s) := by
  unfold settleRunning
  split
  · exact settle_settles ..
  · exact .refl s
@[simp] theorem settleRunning_mem (t : Nat) (s : State) : (settleRunning t s).mem = s.mem := by rw [(settleRunning_settles t s).rest]
@[simp] theorem settleRunning_regs (t : Nat) (s : State) : (settleRunning t s).regs = s.regs := by rw [(settleRunning_settles t s).rest]
@[simp] theorem settleRunning_cfg (t : Nat) (s : State) : (settleRunning t s).fab.cfg = s.fab.cfg := by
  rw [(settleRunning_settles t s).rest]
@[simp] theorem upsetFrame_mem (f b : Nat) (s : State) : (upsetFrame f b s).mem = s.mem := by
  unfold upsetFrame
  split <;> split <;> simp
@[simp] theorem upsetFrame_regs (f b : Nat) (s : State) : (upsetFrame f b s).regs = s.regs := by
  unfold upsetFrame
  split <;> split <;> simp
/-- An upset of a frame flips the bit in its configuration word, or a bit of the frame's code and no word (R535). -/
theorem upsetFrame_cfg (f b k : Nat) (s : State) : (upsetFrame f b s).fab.cfg.get 0 k =
    s.fab.cfg.get 0 k ^^^ (if k = 64 * f + b / 32 ∧ b < 2048 then BitVec.ofNat 32 (2 ^ (b % 32)) else 0) := by
  have hcfg : (upsetFrame f b s).fab.cfg =
      (if b < 2048 then s.setCfg (64 * f + b / 32) (flipBit (s.fab.cfg.get 0 (64 * f + b / 32)) (b % 32)) else s).fab.cfg := by
    unfold upsetFrame
    split <;> split <;> simp
  rw [hcfg]
  by_cases hb : b < 2048
  · simp only [hb, if_true, and_true]
    exact NMap.get_set_flipBit ..
  · simp [hb]

/-! ## Reel words -/

/-- Byte `i` of a little-endian byte string, from the number that it spells. -/
theorem leNat_byte (l : List Byte) (i : Nat) : BitVec.ofNat 8 (leNat l / 2 ^ (8 * i)) = l.getD i 0 := by
  induction l generalizing i with
  | nil => simp [leNat]
  | cons b l ih =>
    cases i with
    | zero =>
      apply BitVec.eq_of_toNat_eq
      simp [leNat]
      omega
    | succ i =>
      have hdiv : leNat (b :: l) / 2 ^ (8 * (i + 1)) = leNat l / 2 ^ (8 * i) := by
        rw [show 8 * (i + 1) = 8 + 8 * i by omega, pow_add, ← Nat.div_div_eq_div_mul, leNat]
        congr 1
        omega
      rw [hdiv, ih, List.getD_cons_succ]
/-- Byte `i` of 64 bits. -/
theorem bytesOf64_getD (d : DWord) {i : Nat} (hi : i < 8) : (bytesOf64 d).getD i 0 = BitVec.ofNat 8 (d.toNat / 2 ^ (8 * i)) := by
  apply BitVec.eq_of_toNat_eq
  interval_cases i <;> simp [bytesOf64, bytesOf32, lo32, hi32, Nat.shiftRight_eq_div_pow] <;> omega
theorem memBytes_getD (s : State) (a : Nat) {n i : Nat} (hi : i < n) : (memBytes s a n).getD i 0 = memByte s (a + i) := by
  induction n generalizing a i with
  | zero => omega
  | succ n ih =>
    cases i with
    | zero => rfl
    | succ i =>
      rw [memBytes, List.getD_cons_succ, ih _ (by omega)]
      congr 1
      omega
theorem leNat_lt (l : List Byte) : leNat l < 256 ^ l.length := by
  induction l with
  | nil => simp [leNat]
  | cons b l ih =>
    have := b.isLt
    rw [leNat, List.length_cons, pow_succ]
    omega
theorem memBytes_length (s : State) (a n : Nat) : (memBytes s a n).length = n := by
  induction n generalizing a with
  | zero => rfl
  | succ n ih => rw [memBytes, List.length_cons, ih]
/-- Byte `i` of a reel word is the byte at its place in reel memory (R9). -/
theorem reelWord_byte (s : State) (w : Nat) {i : Nat} (hi : i < 8) :
    BitVec.ofNat 8 ((reelWord s w).toNat / 2 ^ (8 * i)) = memByte s (8 * w + i) := by
  have hlt : leNat (memBytes s (8 * w) 8) < 2 ^ 64 := by
    have := leNat_lt (memBytes s (8 * w) 8)
    rwa [memBytes_length] at this
  rw [reelWord, BitVec.toNat_ofNat, Nat.mod_eq_of_lt hlt, leNat_byte, memBytes_getD s _ hi]
/-- A flip of a bit of 64 flips it in its byte. -/
theorem flipBit_byte (d : DWord) (i : Nat) {b : Nat} (hb : b < 64) : BitVec.ofNat 8 ((flipBit d b).toNat / 2 ^ (8 * i)) =
    BitVec.ofNat 8 (d.toNat / 2 ^ (8 * i)) ^^^ (if i = b / 8 then BitVec.ofNat 8 (2 ^ (b % 8)) else 0) := by
  have hword : 2 ^ b % 2 ^ 64 = 2 ^ b := Nat.mod_eq_of_lt (Nat.pow_lt_pow_right (by omega) hb)
  have hplace (j : Nat) (hj : j < 8) : decide (b = 8 * i + j) = decide (i = b / 8 ∧ b % 8 = j) := by
    rw [decide_eq_decide]
    omega
  apply BitVec.eq_of_getLsbD_eq
  intro j hj
  rw [flipBit, BitVec.toNat_xor, BitVec.toNat_ofNat, hword, BitVec.getLsbD_xor, BitVec.getLsbD_ofNat, Nat.testBit_div_two_pow,
    Nat.testBit_xor, Nat.testBit_two_pow, Nat.add_comm j, hplace j hj, BitVec.getLsbD_ofNat, Nat.testBit_div_two_pow]
  by_cases hbyte : i = b / 8
  · rw [if_pos hbyte, BitVec.getLsbD_ofNat, Nat.testBit_two_pow]
    simp [hbyte, hj, Nat.add_comm]
  · simp [hbyte, hj, Nat.add_comm]
@[simp] theorem State.putBytes_regs (s : State) (a : Nat) (l : List Byte) : (s.putBytes a l).regs = s.regs := by rw [State.putBytes_eq]
@[simp] theorem State.putBytes_fab (s : State) (a : Nat) (l : List Byte) : (s.putBytes a l).fab = s.fab := by rw [State.putBytes_eq]
@[simp] theorem upsetReel_regs (w b : Nat) (s : State) : (upsetReel w b s).regs = s.regs := by
  unfold upsetReel
  split <;> simp
@[simp] theorem upsetReel_fab (w b : Nat) (s : State) : (upsetReel w b s).fab = s.fab := by
  unfold upsetReel
  split <;> simp
/-- An upset of a reel word flips the bit in its byte, or a check bit and no byte (R347). -/
theorem upsetReel_byte (w b a : Nat) (s : State) : memByte (upsetReel w b s) a =
    memByte s a ^^^ (if a = 8 * w + b / 8 ∧ b < 64 then BitVec.ofNat 8 (2 ^ (b % 8)) else 0) := by
  have hmem : memByte (upsetReel w b s) a =
      memByte (if b < 64 then s.putBytes (8 * w) (bytesOf64 (flipBit (reelWord s w) b)) else s) a := by
    unfold upsetReel
    split <;> rfl
  rw [hmem]
  by_cases hb : b < 64
  case neg => simp [hb]
  rw [if_pos hb, memByte_putBytes, show (bytesOf64 _).length = 8 from rfl]
  by_cases ha : 8 * w ≤ a ∧ a < 8 * w + 8
  · obtain ⟨i, rfl⟩ := Nat.exists_eq_add_of_le ha.1
    have hi : i < 8 := by omega
    have hplace : (8 * w + i = 8 * w + b / 8 ∧ b < 64) = (i = b / 8) := by
      rw [eq_iff_iff]
      omega
    rw [if_pos ha, Nat.add_sub_cancel_left, bytesOf64_getD _ hi, flipBit_byte _ i hb, reelWord_byte s w hi]
    simp only [hplace]
  · rw [if_neg ha, if_neg (by omega)]
    exact BitVec.xor_zero.symm

/-! ## Tile RAM and triples -/

/-- An upset of a tile RAM word flips its bit, or its parity and no data (R78). -/
theorem upsetRam_ram (t w b q k : Nat) (s : State) : (tileSt (upsetRam t w b s) q).ram.get 0 k =
    (tileSt s q).ram.get 0 k ^^^ (if q = t ∧ k = w ∧ b < 32 then BitVec.ofNat 32 (2 ^ b) else 0) := by
  rw [upsetRam, tileSt_onTile]
  by_cases hq : q = t
  · subst hq
    by_cases hb : b < 32
    · simp only [hb, if_true, true_and, and_true]
      exact NMap.get_set_flipBit ..
    · simp [hb]
  · simp [hq]
theorem triple_setTriple (s : State) (i : Nat) (l : List Word) : triple (s.setTriple i l) i = l := by
  rw [triple, State.setTriple, State.onScrub]
  exact (NMap.get_set ..).trans (if_pos rfl)
/-- An upset of a triple flips the bit in its copy and leaves the other copies (R542). -/
theorem upsetTriple_getD {s : State} {i c : Nat} (hc : c < (triple s i).length) (b e : Nat) :
    (triple (upsetTriple i c b s) i).getD e 0 = if e = c then flipBit ((triple s i).getD c 0) b else (triple s i).getD e 0 := by
  rw [upsetTriple, triple_setTriple, setAt, List.getD_eq_getElem?_getD, List.getElem?_set]
  by_cases he : e = c
  · subst he
    simp [hc]
  · simp [he, Ne.symm he]

/-- Settles O51: a clause for each kind of memory that an upset meets. -/
theorem upsetsAndEvacuation : Obligations.UpsetsAndEvacuation := by
  intro s
  refine ⟨rfl, fun _ => rfl, ?frame, ?reel, ?ram, ?triple⟩
  case frame =>
    rintro f b t ⟨⟩
    exact ⟨upsetFrame_mem .., upsetFrame_regs .., fun k => upsetFrame_cfg f b k s⟩
  case reel =>
    rintro w b t ⟨⟩
    exact ⟨upsetReel_regs .., upsetReel_fab .., fun a => upsetReel_byte w b a s⟩
  case ram =>
    rintro p w b t ⟨⟩
    exact ⟨rfl, rfl, fun q k => upsetRam_ram p w b q k s⟩
  case triple =>
    rintro i c b t ⟨⟩ hlen
    have hget := upsetTriple_getD (s := s) (i := i) (c := c) (by omega) b
    exact ⟨(hget c).trans (if_pos rfl), fun e he => (hget e).trans (if_neg he)⟩

end Sys2Proof.Machine
end

section
/-! Hard blocks (R62–R78): RAM ports, MACs, queues and constants of a running tile. -/
namespace Sys2Proof.Machine

/-! ## RAM ports -/

/-- The end of an operation at a RAM port, from the state after its access: the word is put out and the bundle taken (R68, R76). -/
def ramAnswer (t : Nat) (b : Bool) (s : State) (w : Word) (s1 : State) : State :=
  settle t (raiseAcks
    (if b then (emit s1 t (32 * b2n b) 32 w.toNat).onTile t (userServed (winWaiting s t).isSome) else emit s1 t (32 * b2n b) 32 w.toNat)
    t (bundleSinks s t (44 * b2n b) 44))

/-- A write that is due stores its word and answers it (R68). -/
theorem ramPort_of_write {s : State} {t a : Nat} {b met : Bool} {w : Word} (hrun : running s t = true)
    (hwait : ramWaiting s t b = some (a, w, true)) (hdue : ramDue s t b met (a, w, true) = true) :
    ramPort t b met s = ramAnswer t b s w (ramPut t a w s) := by
  simp [ramPort, hrun, hwait, hdue, ramAnswer]
/-- A read of a word of good parity answers the word and changes nothing (R68, R78). -/
theorem ramGet_of_good {s : State} {t a : Nat} (hgood : (tileSt s t).ramBad.contains a = false) :
    ramGet t a s = ((tileSt s t).ram.get 0 a, s) := by
  rw [ramGet, hgood, if_neg Bool.false_ne_true]
/-- A read that is due answers its word (R68). -/
theorem ramPort_of_read {s : State} {t a : Nat} {b met : Bool} {w : Word} (hrun : running s t = true)
    (hwait : ramWaiting s t b = some (a, w, false)) (hdue : ramDue s t b met (a, w, false) = true)
    (hgood : (tileSt s t).ramBad.contains a = false) :
    ramPort t b met s = ramAnswer t b s ((tileSt s t).ram.get 0 a) s := by
  simp [ramPort, hrun, hwait, hdue, ramAnswer, ramGet_of_good hgood]
/-- An answer leaves every tile's RAM as the access left it. -/
theorem ramAnswer_ram (t : Nat) (b : Bool) (s : State) (w : Word) (s1 : State) (j : Nat) :
    (tileSt (ramAnswer t b s w s1) j).ram = (tileSt s1 j).ram := by
  refine TilesAlone.ram ((emit_settles s1 t (32 * b2n b) 32 w.toNat).tilesAlone.trans ?_) j
  unfold ramAnswer
  split
  · exact (raiseAcks_settle_tilesAlone ..).of_onTile fun _ => rfl
  · exact raiseAcks_settle_tilesAlone ..
/-- A word of a tile's RAM after one has been written. -/
theorem ramPut_ram (s : State) (t a k : Nat) (w : Word) :
    (tileSt (ramPut t a w s) t).ram.get 0 k = if k = a then w else (tileSt s t).ram.get 0 k := by
  rw [ramPut, tileSt_onTile, if_pos rfl]
  exact NMap.get_set ..

/-! ## MACs -/

/-- The accumulator of MAC `m`. -/
def macAcc (s : State) (t m : Nat) : BitVec 48 := if m = 0 then (tileSt s t).acc0 else (tileSt s t).acc1
/-- Store it. -/
def putAcc (m : Nat) (acc : BitVec 48) (x : TileSt) : TileSt := if m = 0 then { x with acc0 := acc } else { x with acc1 := acc }

/-- A MAC operation that puts no result out stores its accumulator and takes its bundle (R69). -/
theorem macUnit_of_quiet {s : State} {t m v : Nat} (hrun : running s t = true) (hv : bundle s t (88 + 39 * m) 39 = some v)
    (hctl : v / 2 ^ 36 % 8 < 4) : macUnit t m s = settle t (raiseAcks (s.onTile t (putAcc m (macNext (v / 2 ^ 36 % 8) (macAcc s t m)
      (macProduct (bitOf (hbMode s t) (3 + m)) (v % 2 ^ 18) (v / 2 ^ 18 % 2 ^ 18))))) t (bundleSinks s t (88 + 39 * m) 39)) := by
  have hquiet : decide (4 ≤ v / 2 ^ 36 % 8) = false := decide_eq_false (by omega)
  simp only [macUnit, hrun, hv, hquiet]
  rfl
/-- The accumulators after one has been stored and the handshakes have gone on. -/
theorem settled_acc (s : State) (t m : Nat) (acc : BitVec 48) (ks : List Nat) :
    (tileSt (settle t (raiseAcks (s.onTile t (putAcc m acc)) t ks)) t).acc0 = (if m = 0 then acc else (tileSt s t).acc0) ∧
    (tileSt (settle t (raiseAcks (s.onTile t (putAcc m acc)) t ks)) t).acc1 = (if m = 0 then (tileSt s t).acc1 else acc) := by
  have hs : Settles (s.onTile t (putAcc m acc)) (settle t (raiseAcks (s.onTile t (putAcc m acc)) t ks)) :=
    (raiseAcks_settles ..).trans (settle_settles ..)
  rw [hs.acc0, hs.acc1, tileSt_onTile, if_pos rfl, putAcc]
  split <;> exact ⟨rfl, rfl⟩

/-! ## Queues and constants -/

/-- A sound queue with room takes the item of a push (R70). -/
theorem takePush_of_room {s : State} {t q v : Nat} (hrun : running s t = true) (hv : bundle s t (166 + 36 * q) 36 = some v)
    (hok : tileQOk s t q = true) (hroom : (tileQ s t q).items.length < 32) : takePush t q s =
      settle t (raiseAcks (s.setTileQ t q ((tileQ s t q).push 32 (BitVec.ofNat 36 v))) t (bundleSinks s t (166 + 36 * q) 36)) := by
  simp [takePush, hrun, hv, hok, hroom]
/-- A sound queue that is full discards the item of a push in drop mode, and says so in Qn_OVR (R70). -/
theorem takePush_of_drop {s : State} {t q v : Nat} (hrun : running s t = true) (hv : bundle s t (166 + 36 * q) 36 = some v)
    (hok : tileQOk s t q = true) (hfull : 32 ≤ (tileQ s t q).items.length) (hdrop : bitOf (hbMode s t) q = true) : takePush t q s =
      settle t (raiseAcks (s.setTileQ t q { tileQ s t q with ovr := true }) t (bundleSinks s t (166 + 36 * q) 36)) := by
  simp [takePush, hrun, hv, hok, Nat.not_lt.2 hfull, hdrop]
/-- A push at a queue with room, or where the pointers disagree, meets no pop (R397, R398). -/
theorem pushTileQ_alone {s : State} {t q : Nat} (h : (tileQ s t q).items.length < 32 ∨ tileQOk s t q = false) :
    pushTileQ t q s = takePush t q s := by
  rw [pushTileQ, if_pos (by simpa using h)]
/-- A push at a sound queue that is full comes after the pop of a head that is taken (R397). -/
theorem pushTileQ_of_full {s : State} {t q : Nat} (hfull : 32 ≤ (tileQ s t q).items.length) (hok : tileQOk s t q = true) :
    pushTileQ t q s = takePush t q (popTileQ t (outQ s t q) s) := by
  rw [pushTileQ, if_neg (by simp [hok, hfull])]
/-- A head that is not taken is not popped (R70). -/
theorem popTileQ_of_untaken {s : State} {t q : Nat} (h : headTaken s t q = false) : popTileQ t q s = s := by
  simp [popTileQ, h]
/-- A pop of a sound queue takes the oldest entry (R70). -/
theorem popTileQ_of_taken {s : State} {t q : Nat} (hrun : running s t = true) (hne : (tileQ s t q).items ≠ [])
    (htaken : headTaken s t q = true) (hok : tileQOk s t q = true) : popTileQ t q s =
      settle t ((s.setTileQ t q ((tileQ s t q).pop 32)).onTile t
        (fun x => if q = 0 then { x with shown0 := false } else { x with shown1 := false })) := by
  simp [popTileQ, hrun, hne, htaken, hok]
/-- A constant select that is due presents its token again (R62). -/
theorem repeatConst_of_due {s : State} {t k : Nat} (hrun : running s t = true) (hdue : constDue s t k = true) :
    repeatConst t k s = settle t (s.onTile t (fun x => { x with constIdle := removeNat k x.constIdle })) := by
  simp [repeatConst, hrun, hdue]

/-- Settles O12: a clause for each block's operation. -/
theorem hardBlocks : Obligations.HardBlocks := by
  intro s t hrun
  refine ⟨?write, ?read, ?mac, ?push, ?drop, ?meets, ?pop, ?const⟩
  case write =>
    intro b met a w hwait hdue
    have hram (k : Nat) : (tileSt (ramAnswer t b s w (ramPut t a w s)) t).ram.get 0 k = if k = a then w else (tileSt s t).ram.get 0 k := by
      rw [ramAnswer_ram, ramPut_ram]
    exact ⟨_, congrArg Host.Outcome.next (ramPort_of_write hrun hwait hdue), (hram a).trans (if_pos rfl),
      fun k hk => (hram k).trans (if_neg hk)⟩
  case read =>
    rintro b met a w hwait hdue hgood s1 rfl
    exact congrArg Host.Outcome.next (ramPort_of_read hrun hwait hdue hgood)
  case mac =>
    intro m v hv hctl
    refine ⟨_, congrArg Host.Outcome.next (macUnit_of_quiet hrun hv hctl), ?_⟩
    rw [(settled_acc ..).1, (settled_acc ..).2]
    match m with
    | 0 => exact ⟨rfl, rfl⟩
    | 1 => exact ⟨rfl, rfl⟩
  case push =>
    exact fun q v hv hok hroom =>
      congrArg Host.Outcome.next ((pushTileQ_alone (.inl hroom)).trans (takePush_of_room hrun hv hok hroom))
  case drop =>
    intro q v hv hok hfull hdrop huntaken
    refine congrArg Host.Outcome.next ((pushTileQ_of_full hfull hok).trans ?_)
    rw [popTileQ_of_untaken huntaken, takePush_of_drop hrun hv hok hfull hdrop]
  case meets =>
    exact fun q => ⟨fun hfull hok => congrArg Host.Outcome.next (pushTileQ_of_full hfull hok),
      fun hbad => congrArg Host.Outcome.next (pushTileQ_alone (.inr hbad))⟩
  case pop =>
    intro q v rest hitems htaken hok
    have hne : (tileQ s t q).items ≠ [] := by simp [hitems]
    refine congrArg Host.Outcome.next ((popTileQ_of_taken hrun hne htaken hok).trans ?_)
    simp only [Fin.val_eq_zero_iff]
  case const => exact fun k hdue => congrArg Host.Outcome.next (repeatConst_of_due hrun hdue)

end Sys2Proof.Machine
end

section
/-! The ply interface of a tile (R72–R76, R125–R131): TX, RX and the RAM window; rail errors at a tile's inputs (R50). -/
namespace Sys2Proof.Machine

/-! ## TX and RX -/

/-- A word that fits joins the packet that TX assembles (R125). -/
theorem txTaken_of_room {x : TileIf} (hover : x.txOver = false) (hroom : x.txWords.length < 19) (v : Nat) :
    txTaken x v = (false, x.txWords ++ [w32 v]) := by
  simp [txTaken, hover, Nat.not_le.2 hroom]
/-- A TX word without LAST is kept (R72, R125). -/
theorem txWord_of_more {s : State} {t v l : Nat} (hrun : running s t = true) (hen : txEnabled s t = true)
    (hv : bundle s t 238 33 = some v) (hl : logicalAt s t = some l) (hmore : v / 2 ^ 32 % 2 = 0)
    (hover : (tileSt s t).ifc.txOver = false) (hroom : (tileSt s t).ifc.txWords.length < 19) : txWord t s =
      settle t (raiseAcks (s.onIfc t (fun x => { x with txWords := (tileSt s t).ifc.txWords ++ [w32 v], txOver := false })) t
        (bundleSinks s t 238 33)) := by
  simp only [txWord, hrun, hen, hv, hl, txTaken_of_room hover hroom, hmore, Bool.and_self, if_true, zero_ne_one, if_false]
/-- A TX word with LAST hands its packet to the injection port, where that has room and the OP is below 7 (R72, R125). -/
theorem txWord_of_last {s : State} {t v l : Nat} {p : Packet} (hrun : running s t = true) (hen : txEnabled s t = true)
    (hv : bundle s t 238 33 = some v) (hl : logicalAt s t = some l) (hlast : v / 2 ^ 32 % 2 = 1)
    (hover : (tileSt s t).ifc.txOver = false) (hroom : (tileSt s t).ifc.txWords.length < 19)
    (hp : p = packetOf (((tileSt s t).ifc.txWords ++ [w32 v]).headD 0) l (tileDom s l) (((tileSt s t).ifc.txWords ++ [w32 v]).drop 1))
    (hop : p.op.toNat < 7) (hfree : assembled s t < 2) : txWord t s =
      settle t (raiseAcks (queueOut (5 * t + 4) p (s.onIfc t (fun x => { x with txWords := [], txOver := false }))) t
        (bundleSinks s t 238 33)) := by
  simp only [txWord, hrun, hen, hv, hl, txTaken_of_room hover hroom, hlast, ← hp, Bool.and_self, if_true, Bool.false_eq_true, if_false,
    Nat.not_le.2 hop, decide_false, hfree]
/-- An arrival is offered on free RX pins with its arrival word first (R72, R126). -/
theorem deliver_of_arrival {s : State} {t : Nat} {p : Packet} {x : TileIf} (hrun : running s t = true) (hen : rxEnabled s t = true)
    (hidle : (tileSt s t).ifc.rx = none) (hfree : resultFree s t 232 39 = true) (hnext : rxNext (tileSt s t).ifc = some (p, x)) :
    deliver t s = settle t (emit (s.onIfc t (fun _ => { x with rx := some { pkt := p, idx := 1 } })) t 232 39 (rxWord p 0)) := by
  simp [deliver, hrun, hen, hidle, rxOffer, hfree, hnext]

/-! ## The RAM window -/

/-- A window word that is due, with more to come, meets tile RAM, and the window goes on to its next word (R74, R131). -/
theorem winStep_of_due {s s1 : State} {t a : Nat} {wr met : Bool} {w : WinCur} {x : TileIf} {r : Word × State}
    (hrun : running s t = true) (hstart : winStart s t = some (w, x)) (hkind : (w.pkt.op != 2) = wr) (hform : winOk w.pkt = true)
    (ha : a = fld (w.pkt.words.getD 0 0) 10 0 + w.idx) (hdue : winDue s t met a wr = true) (hmore : w.idx + 1 < winWords w.pkt)
    (hs1 : s1 = s.onTile t (winServed (ramWaiting s t true).isSome))
    (hr : r = if wr then (w.pkt.words.getD (1 + w.idx) 0, ramPut t a (w.pkt.words.getD (1 + w.idx) 0) s1) else ramGet t a s1) :
    winStep t wr met s =
      r.2.onIfc t (fun _ => { x with win := some { w with idx := w.idx + 1, acc := if wr then [] else w.acc ++ [r.1] } }) := by
  subst ha hs1 hr
  simp only [winStep, hrun, hstart, hkind, hform, hdue, Nat.ne_of_lt hmore, bne_self_eq_false, Bool.not_true, Bool.false_eq_true, if_false]
/-- A word of a window's write that is due, with more to come, is written to tile RAM. -/
theorem winWrite_of_due {s : State} {t a : Nat} {met : Bool} {w : WinCur} {x : TileIf} (hrun : running s t = true)
    (hstart : winStart s t = some (w, x)) (hop : w.pkt.op ≠ 2) (hform : winOk w.pkt = true)
    (ha : a = fld (w.pkt.words.getD 0 0) 10 0 + w.idx) (hdue : winDue s t met a true = true) (hmore : w.idx + 1 < winWords w.pkt) :
    winWrite t met s = (ramPut t a (w.pkt.words.getD (1 + w.idx) 0) (s.onTile t (winServed (ramWaiting s t true).isSome))).onIfc t
      (fun _ => { x with win := some { w with idx := w.idx + 1, acc := [] } }) :=
  winStep_of_due hrun hstart (bne_iff_ne.2 hop) hform ha hdue hmore rfl rfl
/-- A word of a window's read that is due, with more to come, joins those read before. -/
theorem winRead_of_due {s : State} {t a : Nat} {met : Bool} {w : WinCur} {x : TileIf} (hrun : running s t = true)
    (hstart : winStart s t = some (w, x)) (hop : w.pkt.op = 2) (hform : winOk w.pkt = true)
    (ha : a = fld (w.pkt.words.getD 0 0) 10 0 + w.idx) (hdue : winDue s t met a false = true) (hmore : w.idx + 1 < winWords w.pkt)
    (hgood : (tileSt s t).ramBad.contains a = false) :
    winRead t met s = (s.onTile t (winServed (ramWaiting s t true).isSome)).onIfc t
      (fun _ => { x with win := some { w with idx := w.idx + 1, acc := w.acc ++ [(tileSt s t).ram.get 0 a] } }) := by
  have hserved : tileSt (s.onTile t (winServed (ramWaiting s t true).isSome)) t = winServed (ramWaiting s t true).isSome (tileSt s t) :=
    (tileSt_onTile ..).trans (if_pos rfl)
  have hread : ramGet t a (s.onTile t (winServed (ramWaiting s t true).isSome)) =
      ((tileSt s t).ram.get 0 a, s.onTile t (winServed (ramWaiting s t true).isSome)) := by
    rw [ramGet_of_good (by rw [hserved]; exact hgood), hserved]
    rfl
  exact winStep_of_due hrun hstart (by simp [hop]) hform ha hdue hmore rfl hread.symm

/-! ## Rail errors -/

/-- A rail error at an input that shows none yet is recorded, counted and raised (R50). -/
theorem railFault_of_new {s : State} {t k l pin : Nat} (hrun : running s t = true) (hl : logicalAt s t = some l)
    (hpin : inputName s t k = some pin) (hsel : selOf s t k ≠ 0xFF) (hnew : (tileSt s t).railBad.contains k = false) {s1 : State}
    (hs1 : s1 = (s.onTile t (fun x => { x with railBad := insertNat k x.railBad, railErr := true })).bump .fabRailCount 0 1) :
    railFault t k s = notify 0x6B (tileDom s1 l) [w32 l, w32 pin] s1 := by
  subst hs1
  simp only [railFault, hl, hpin, hrun, hnew, bne_iff_ne.2 hsel, Bool.not_false, Bool.and_self, if_true]

/-- Settles O15: a clause for each port, and for rail errors. -/
theorem tilePorts : Obligations.TilePorts := by
  intro s t hrun
  refine ⟨?more, ?last, ?arrival, ?winWrite, ?winRead, ?rail⟩
  case more =>
    exact fun v l hen hv hl hmore hover hroom => congrArg Host.Outcome.next (txWord_of_more hrun hen hv hl hmore hover hroom)
  case last =>
    exact fun v l p hen hv hl hlast hover hroom hp hop hfree =>
      congrArg Host.Outcome.next (txWord_of_last hrun hen hv hl hlast hover hroom hp hop hfree)
  case arrival => exact fun p x hen hidle hfree hnext => congrArg Host.Outcome.next (deliver_of_arrival hrun hen hidle hfree hnext)
  case winWrite =>
    exact fun met w x a hstart hop hform ha hdue hmore =>
      congrArg Host.Outcome.next (winWrite_of_due hrun hstart hop hform ha hdue hmore)
  case winRead =>
    exact fun met w x a hstart hop hform ha hdue hmore hgood =>
      congrArg Host.Outcome.next (winRead_of_due hrun hstart hop hform ha hdue hmore hgood)
  case rail =>
    exact fun l k s1 pin hl hpin hsel hnew hs1 => congrArg Host.Outcome.next (railFault_of_new hrun hl hpin hsel hnew hs1)

end Sys2Proof.Machine
end

section
/-! Distaff's policy evaluation (R181–R186), and collisions at edge wires (R83). -/
namespace Sys2Proof.Machine

@[simp] theorem notifyWire_fab (code id : Nat) (s : State) : (notifyWire code id s).fab = s.fab := notifyPorts_fab ..
@[simp] theorem notifyWire_dst_mig (code id : Nat) (s : State) : (notifyWire code id s).dst.mig = s.dst.mig := notifyPorts_dst_mig ..
theorem mem_insertNat_self (k : Nat) (l : List Nat) : k ∈ insertNat k l := by
  induction l with
  | nil => exact List.mem_singleton_self k
  | cons a l ih =>
    unfold insertNat
    split
    · exact List.mem_cons.2 (.inl ‹k = a›)
    · split
      · exact List.mem_cons_self
      · exact List.mem_cons_of_mem a ih
/-- A wire that both its tiles drive, outside a migration: it is held, which is counted, recorded and raised (R83). -/
theorem collide_of_new {s : State} {t e k : Nat} {east : Bool} (he : e = if east then 8 + k else k) (hcol : colliding s t e = true)
    (hnew : wireId t e ∉ s.fab.held) (hlive : coreLive s = true) (hmig : s.dst.mig = none) : collide t east k s =
      notifyWire 0x68 (wireId t e) ((State.bump { s with fab := { s.fab with
        held := insertNat (wireId t e) s.fab.held, heldSince := s.fab.heldSince.set 0 (wireId t e) (s.scrub.pos + 1) } }
          .fabCollideCount 0 1).setReg .fabCollideLast 0
            (w32 (place 31 1 1 + place 11 6 (colOf t) + place 5 6 (rowOf t) + place 3 2 (b2n east) + k))) := by
  have hearly (u : State) (j : Nat) (hu : u.dst.mig = none) : inEarlyMig u j = false := by simp only [inEarlyMig, hu]
  subst he
  simp [collide, hcol, hnew, hlive, hearly, hmig]

/-- Settles O21: the evaluation's steps in turn; a collision outside a migration holds the wire and changes no tile or frame. -/
theorem policyAndCollision : Obligations.PolicyAndCollision := by
  refine ⟨?policy, ?collision⟩
  case policy =>
    rintro s s1 s2 temps rfl rfl
    rfl
  case collision =>
    rintro s t e w id rfl hcol hnew hlive hmig
    refine ⟨_, congrArg Host.Outcome.next (collide_of_new rfl hcol hnew hlive hmig), ?_, ?_, ?_, ?_⟩
    · rw [notifyWire_fab]
      exact mem_insertNat_self ..
    · rw [notifyWire_dst_mig]
      exact hmig
    · rw [notifyWire_fab]
      rfl
    · rw [notifyWire_fab]
      rfl

end Sys2Proof.Machine
end

section
/-! The words of a ply packet (R121–R123, R126): its flits in flight, and its words on RX. -/
namespace Sys2Proof.Machine

theorem b2n_lt (b : Bool) : b2n b < 2 := by cases b <;> decide
theorem b2n_eq_one {b : Bool} : b2n b = 1 ↔ b = true := by cases b <;> decide
/-- A number that fits the field it is placed in. -/
theorem place_of_lt {n v : Nat} (h : v < 2 ^ n) (lo : Nat) : place lo n v = v * 2 ^ lo := by
  rw [place, Nat.mod_eq_of_lt h]
@[simp] theorem place_toNat {n : Nat} (lo : Nat) (x : BitVec n) : place lo n x.toNat = x.toNat * 2 ^ lo := place_of_lt x.isLt lo
@[simp] theorem place_b2n (lo : Nat) (b : Bool) : place lo 1 (b2n b) = b2n b * 2 ^ lo := place_of_lt (b2n_lt b) lo
/-- A bit that holds a flag. -/
theorem bitOf_eq_of_b2n {n k : Nat} {w : BitVec n} {b : Bool} (h : w.toNat / 2 ^ k % 2 = b2n b) : bitOf w k = b := by
  have hbit : bitOf w k = decide (w.toNat / 2 ^ k % 2 = 1) := Nat.testBit_eq_decide_div_mod_eq
  rw [hbit, h]
  cases b <;> rfl
theorem w32_toNat_of_lt {n : Nat} (h : n < 2 ^ 32) : (w32 n).toNat = n := Nat.mod_eq_of_lt h

/-! ## Words on RX -/

/-- The payload bits of word `i` on RX (R126): the arrival word, then the packet's words. -/
def rxData (p : Packet) (i : Nat) : Word := if i = 0 then arrivalWord p else p.words.getD (i - 1) 0
/-- A word on RX is its payload bits with END, SLOT and RESP above them. -/
theorem rxWord_eq (p : Packet) (i : Nat) :
    rxWord p i = (rxData p i).toNat + b2n (i == p.words.length) * 2 ^ 32 + p.slot.toNat * 2 ^ 33 + b2n p.vc * 2 ^ 38 := by
  simp only [rxWord, rxData, place_toNat, place_b2n]
theorem rxWord_data (p : Packet) (i : Nat) : rxWord p i % 2 ^ 32 = (rxData p i).toNat := by
  have hdata := (rxData p i).isLt
  rw [rxWord_eq]
  omega
theorem rxWord_end (p : Packet) (i : Nat) : rxWord p i / 2 ^ 32 % 2 = b2n (i == p.words.length) := by
  have hdata := (rxData p i).isLt
  have hend := b2n_lt (i == p.words.length)
  rw [rxWord_eq]
  omega
theorem rxWord_slot (p : Packet) (i : Nat) : rxWord p i / 2 ^ 33 % 32 = p.slot.toNat := by
  have hdata := (rxData p i).isLt
  have hend := b2n_lt (i == p.words.length)
  have hslot := p.slot.isLt
  rw [rxWord_eq]
  omega
theorem rxWord_resp (p : Packet) (i : Nat) : rxWord p i / 2 ^ 38 % 2 = b2n p.vc := by
  have hdata := (rxData p i).isLt
  have hend := b2n_lt (i == p.words.length)
  have hslot := p.slot.isLt
  have hresp := b2n_lt p.vc
  rw [rxWord_eq]
  omega
/-- The fields of the arrival word add up, bit 7 left 0 (R126). -/
theorem arrivalWord_toNat (p : Packet) : (arrivalWord p).toNat =
    p.src.toNat * 2 ^ 16 + p.status.toNat * 2 ^ 12 + p.op.toNat * 2 ^ 8 + p.tag.toNat := by
  have hsrc := p.src.isLt
  have hstatus := p.status.isLt
  have hop := p.op.isLt
  have htag := p.tag.isLt
  simp only [arrivalWord, place_toNat, pow_zero, mul_one]
  exact w32_toNat_of_lt (by omega)
/-- The fields of the arrival word as RX offers it. -/
theorem rxWord_arrival (p : Packet) : rxWord p 0 / 2 ^ 16 % 2 ^ 16 = p.src.toNat ∧ rxWord p 0 / 2 ^ 12 % 16 = p.status.toNat ∧
    rxWord p 0 / 2 ^ 8 % 16 = p.op.toNat ∧ rxWord p 0 / 2 ^ 7 % 2 = 0 ∧ rxWord p 0 % 2 ^ 7 = p.tag.toNat := by
  have hword : rxWord p 0 % 2 ^ 32 = p.src.toNat * 2 ^ 16 + p.status.toNat * 2 ^ 12 + p.op.toNat * 2 ^ 8 + p.tag.toNat :=
    (rxWord_data p 0).trans (arrivalWord_toNat p)
  have hsrc := p.src.isLt
  have hstatus := p.status.isLt
  have hop := p.op.isLt
  have htag := p.tag.isLt
  omega
/-- The next word of a packet under way is offered on free RX pins (R72, R126). -/
theorem deliver_of_underway {s : State} {t i : Nat} {p : Packet} (hrun : running s t = true) (hen : rxEnabled s t = true)
    (hfree : resultFree s t 232 39 = true) (hrx : (tileSt s t).ifc.rx = some { pkt := p, idx := i }) (hi : i ≤ p.words.length) :
    deliver t s = settle t ((emit s t 232 39 (rxWord p i)).onIfc t (fun x => { x with rx := some { pkt := p, idx := i + 1 } })) := by
  simp [deliver, hrun, hen, hrx, Nat.not_lt.2 hi, rxOffer, hfree, hi]

/-- Settles O14: the fields of a word on RX one by one, and the delivery that offers it. -/
theorem rxWords : Obligations.RxWords := by
  rintro p i w hi rfl
  refine ⟨?arrival, ?payload, ?last, rxWord_slot p i, ?resp, ?delivery⟩
  case arrival =>
    rintro rfl
    exact rxWord_arrival p
  case payload =>
    rintro j rfl
    exact rxWord_data p (j + 1)
  case last => rw [rxWord_end, b2n_eq_one, beq_iff_eq]
  case resp => rw [rxWord_resp, b2n_eq_one]
  case delivery =>
    intro s t hrun hen hfree hrx
    exact congrArg Host.Outcome.next (deliver_of_underway hrun hen hfree hrx hi)

/-! ## Words in flits -/

theorem lo32_join32 (a b : Word) : lo32 (join32 a b) = a := by
  simp only [lo32, join32]
  exact BitVec.setWidth_append_eq_right
theorem hi32_join32 (a b : Word) : hi32 (join32 a b) = b := by
  ext i hi
  have hbit : (join32 a b).getLsbD (32 + i) = b.getLsbD i := by
    rw [join32, BitVec.getLsbD_append]
    simp
  simpa [hi32, BitVec.getLsbD_eq_getElem hi] using hbit
theorem dwordsOfWords_length (ws : List Word) : (dwordsOfWords ws).length = (ws.length + 1) / 2 := by
  induction ws using dwordsOfWords.induct with
  | case1 => rfl
  | case2 a => simp [dwordsOfWords]
  | case3 a b t ih =>
    simp only [dwordsOfWords, List.length_cons, ih]
    omega
/-- The halves of 64-bit word `k` are words `2k` and `2k + 1`, or 0 past the end. -/
theorem halves_of_dwordsOfWords {ws : List Word} {k : Nat} {d : DWord} (h : (dwordsOfWords ws)[k]? = some d) :
    lo32 d = ws.getD (2 * k) 0 ∧ hi32 d = ws.getD (2 * k + 1) 0 := by
  induction ws using dwordsOfWords.induct generalizing k with
  | case1 => cases h
  | case2 a =>
    cases k with
    | zero =>
      cases h
      exact ⟨lo32_join32 a 0, hi32_join32 a 0⟩
    | succ k => cases h
  | case3 a b t ih =>
    cases k with
    | zero =>
      cases h
      exact ⟨lo32_join32 a b, hi32_join32 a b⟩
    | succ k => exact ih h
/-- The words come back from their 64-bit words, where the last upper half of an odd number is cut off. -/
theorem take_wordsOfDwords_dwordsOfWords (ws : List Word) : (wordsOfDwords (dwordsOfWords ws)).take ws.length = ws := by
  induction ws using dwordsOfWords.induct with
  | case1 => rfl
  | case2 a => simp [dwordsOfWords, wordsOfDwords, lo32_join32]
  | case3 a b t ih =>
    simpa [dwordsOfWords, wordsOfDwords, lo32_join32, hi32_join32] using ih
/-- The bits of the payload flits are the payload as 64-bit words (R123). -/
theorem payloadFlits_bits (exit : Nat) (src : BitVec 16) (k : Nat) (ws : List Word) :
    (payloadFlits exit src k ws).map (·.bits) = dwordsOfWords ws := by
  induction ws using dwordsOfWords.induct generalizing k with
  | case1 => rfl
  | case2 a => rfl
  | case3 a b t ih => exact congrArg (join32 a b :: ·) (ih (k + 1))

/-! ## A packet's flits -/

/-- The header flit of a packet: its header word and its route word (R123). -/
def headFlit (p : Packet) (exit : Nat) : Flit :=
  { bits := join32 (headerWord p) (routeWord p), idx := 0, tail := p.words.isEmpty, exit := exit, src := p.src,
    refuses := p.refuses, room := p.room }
/-- The flits of a packet behind its header flit (R123). -/
def bodyFlits (p : Packet) (exit : Nat) : List Flit :=
  (payloadFlits exit p.src 1 p.words).map (fun f => if f.idx = 1 then { f with rep := p.rep } else f)
theorem flitsOf_eq (p : Packet) (exit : Nat) : flitsOf p exit = headFlit p exit :: bodyFlits p exit := rfl
/-- What a packet reports rides beside its payload and changes none of it. -/
theorem bodyFlits_bits (p : Packet) (exit : Nat) : (bodyFlits p exit).map (·.bits) = dwordsOfWords p.words := by
  rw [← payloadFlits_bits exit p.src 1, bodyFlits, List.map_map]
  refine List.map_congr_left fun f _ => ?_
  dsimp only [Function.comp]
  split <;> rfl
theorem bodyFlits_length (p : Packet) (exit : Nat) : (bodyFlits p exit).length = (p.words.length + 1) / 2 := by
  rw [← dwordsOfWords_length, ← bodyFlits_bits p exit, List.length_map]
/-- The flit after the header carries what the packet reports; without payload there is none. -/
theorem bodyFlits_report (p : Packet) (exit : Nat) :
    ((bodyFlits p exit).head?.map (·.rep)).getD { } = if p.words = [] then { } else p.rep := by
  unfold bodyFlits
  match p.words with
  | [] => rfl
  | [a] => rfl
  | a :: b :: t => rfl
/-- The fields of the header word add up (R121). -/
theorem headerWord_toNat (p : Packet) : (headerWord p).toNat =
    p.dest.toNat * 2 ^ 16 + p.slot.toNat * 2 ^ 11 + p.op.toNat * 2 ^ 7 + p.tag.toNat := by
  have hdest := p.dest.isLt
  have hslot := p.slot.isLt
  have hop := p.op.isLt
  have htag := p.tag.isLt
  simp only [headerWord, place_toNat]
  exact w32_toNat_of_lt (by omega)
/-- The fields of the header word are the packet's (R121). -/
theorem headerWord_fields (p : Packet) : fld (headerWord p) 31 16 = p.dest.toNat ∧ fld (headerWord p) 15 11 = p.slot.toNat ∧
    fld (headerWord p) 10 7 = p.op.toNat ∧ fld (headerWord p) 6 0 = p.tag.toNat := by
  have hdest := p.dest.isLt
  have hslot := p.slot.isLt
  have hop := p.op.isLt
  have htag := p.tag.isLt
  simp only [fld, headerWord_toNat]
  omega
/-- The fields of the route word add up where LEN fits its five bits (R122). -/
theorem routeWord_toNat {p : Packet} (hlen : p.words.length < 32) : (routeWord p).toNat = p.src.toNat * 2 ^ 16 +
    p.status.toNat * 2 ^ 12 + p.words.length * 2 ^ 7 + p.dom.val * 2 ^ 5 + b2n p.vc * 2 ^ 4 + b2n p.isSeal * 2 ^ 3 := by
  have hsrc := p.src.isLt
  have hstatus := p.status.isLt
  have hdom := p.dom.isLt
  have hvc := b2n_lt p.vc
  have hseal := b2n_lt p.isSeal
  simp only [routeWord, place_toNat, place_b2n, place_of_lt (n := 5) hlen, place_of_lt (n := 2) hdom]
  exact w32_toNat_of_lt (by omega)
/-- The fields of the route word are the packet's (R122). -/
theorem routeWord_fields {p : Packet} (hlen : p.words.length < 32) : fld (routeWord p) 31 16 = p.src.toNat ∧
    fld (routeWord p) 15 12 = p.status.toNat ∧ fld (routeWord p) 11 7 = p.words.length ∧ fld (routeWord p) 6 5 = p.dom.val ∧
    bitOf (routeWord p) 4 = p.vc ∧ bitOf (routeWord p) 3 = p.isSeal := by
  have hsrc := p.src.isLt
  have hstatus := p.status.isLt
  have hdom := p.dom.isLt
  have hvc := b2n_lt p.vc
  have hseal := b2n_lt p.isSeal
  have hword := routeWord_toNat hlen
  simp only [fld, hword]
  refine ⟨?_, ?_, ?_, ?_, bitOf_eq_of_b2n ?_, bitOf_eq_of_b2n ?_⟩ <;> omega
/-- The flits of a packet spell it again, but for its order of arrival and a report without payload. -/
theorem packetFrom_flitsOf {p : Packet} (hlen : p.words.length < 32) (exit : Nat) :
    packetFrom (flitsOf p exit) = some { p with seq := 0, rep := if p.words = [] then { } else p.rep } := by
  obtain ⟨hdest, hslot, hop, htag⟩ := headerWord_fields p
  obtain ⟨hsrc, hstatus, hcount, hdom, hvc, hseal⟩ := routeWord_fields hlen
  rw [flitsOf_eq]
  simp only [packetFrom, packetOf, headFlit, lo32_join32, hi32_join32, hdest, hslot, hop, htag, hsrc, hstatus, hcount, hdom, hvc, hseal,
    bodyFlits_bits, bodyFlits_report, take_wordsOfDwords_dwordsOfWords, BitVec.ofNat_toNat, BitVec.setWidth_eq, Fin.ofNat_eq_cast,
    Fin.cast_val_eq_self]

/-- Settles O16: the payload flits hold the payload's 64-bit words, and the header's two words give back the packet's fields. -/
theorem packetFlits : Obligations.PacketFlits := by
  intro p exit hlen
  refine ⟨?count, ⟨_, _, flitsOf_eq p exit, lo32_join32 _ _, hi32_join32 _ _, ?payload⟩, packetFrom_flitsOf (by omega) exit⟩
  case count => rw [flitsOf_eq, List.length_cons, bodyFlits_length, Nat.add_comm]
  case payload =>
    intro k g hg
    refine halves_of_dwordsOfWords ?_
    rw [← bodyFlits_bits p exit, List.getElem?_map, hg]
    rfl

end Sys2Proof.Machine
end

section
/-! Routing (R116, R132): the side by which a packet leaves each router, and the hops that it saves. -/
namespace Sys2Proof.Machine

/-- The side of a router that a packet takes (R132): east or west while the exit lies in another column, else north or south while
it lies in another row, else the exit's own. -/
theorem nextSide_cases (r e : Nat) :
    (colOf r < colOf (e / 5) ∧ nextSide r e = 1) ∨ (colOf (e / 5) < colOf r ∧ nextSide r e = 3) ∨
    (colOf r = colOf (e / 5) ∧ rowOf r < rowOf (e / 5) ∧ nextSide r e = 0) ∨
    (colOf r = colOf (e / 5) ∧ rowOf (e / 5) < rowOf r ∧ nextSide r e = 2) ∨ (r = e / 5 ∧ nextSide r e = e % 5) := by
  unfold nextSide colOf rowOf
  dsimp only
  split_ifs <;> omega
/-- East and west are taken while the exit lies in another column, or at the exit itself. -/
theorem nextSide_row_iff (r e : Nat) :
    nextSide r e ∈ [1, 3] ↔ colOf r ≠ colOf (e / 5) ∨ (r = e / 5 ∧ e % 5 ∈ [1, 3]) := by
  rcases nextSide_cases r e with ⟨hcol, hside⟩ | ⟨hcol, hside⟩ | ⟨hcol, hrow, hside⟩ | ⟨hcol, hrow, hside⟩ | ⟨rfl, hside⟩
  · simp [hside, hcol.ne]
  · simp [hside, hcol.ne']
  · have hne : r ≠ e / 5 := fun h => hrow.ne (congrArg rowOf h)
    simp [hside, hcol, hne]
  · have hne : r ≠ e / 5 := fun h => hrow.ne' (congrArg rowOf h)
    simp [hside, hcol, hne]
  · simp [hside]
theorem lt_iff_colOf_lt (t : Nat) : t < 4096 ↔ colOf t < 64 := by
  unfold colOf
  omega
theorem rowOf_lt (t : Nat) : rowOf t < 64 := Nat.mod_lt t (by decide)
theorem neighbour_north {r : Nat} (h : rowOf r < 63) : colOf (neighbour r 0) = colOf r ∧ rowOf (neighbour r 0) = rowOf r + 1 := by
  change colOf (r + 1) = _ ∧ rowOf (r + 1) = _
  unfold colOf rowOf at *
  omega
theorem neighbour_east (r : Nat) : colOf (neighbour r 1) = colOf r + 1 ∧ rowOf (neighbour r 1) = rowOf r := by
  change colOf (r + 64) = _ ∧ rowOf (r + 64) = _
  unfold colOf rowOf
  omega
theorem neighbour_south {r : Nat} (h : 0 < rowOf r) : colOf (neighbour r 2) = colOf r ∧ rowOf (neighbour r 2) + 1 = rowOf r := by
  change colOf (r - 1) = _ ∧ rowOf (r - 1) + 1 = _
  unfold colOf rowOf at *
  omega
theorem neighbour_west {r : Nat} (h : 0 < colOf r) : colOf (neighbour r 3) + 1 = colOf r ∧ rowOf (neighbour r 3) = rowOf r := by
  change colOf (r - 64) + 1 = _ ∧ rowOf (r - 64) = _
  unfold colOf rowOf at *
  omega
/-- Away from its exit a packet's next hop reaches a router that is one hop nearer (R116, R132). -/
theorem nextSide_closer {r e : Nat} (hr : r < 4096) (he : e < 20480) (hne : r ≠ e / 5) : nextSide r e < 4 ∧
    neighbour r (nextSide r e) < 4096 ∧ hops (neighbour r (nextSide r e)) (e / 5) + 1 = hops r (e / 5) := by
  have hexit : e / 5 < 4096 := by omega
  have hexitrow := rowOf_lt (e / 5)
  rw [lt_iff_colOf_lt] at hr hexit
  rw [lt_iff_colOf_lt, hops, hops]
  rcases nextSide_cases r e with ⟨hcol, hside⟩ | ⟨hcol, hside⟩ | ⟨hcol, hrow, hside⟩ | ⟨hcol, hrow, hside⟩ | ⟨hat, -⟩
  · obtain ⟨hcol', hrow'⟩ := neighbour_east r
    rw [hside, hcol', hrow']
    omega
  · obtain ⟨hcol', hrow'⟩ := neighbour_west (Nat.zero_lt_of_lt hcol)
    rw [hside, hrow']
    omega
  · obtain ⟨hcol', hrow'⟩ := neighbour_north (Nat.lt_of_lt_of_le hrow (Nat.le_of_lt_succ hexitrow))
    rw [hside, hcol', hrow']
    omega
  · obtain ⟨hcol', hrow'⟩ := neighbour_south (Nat.zero_lt_of_lt hrow)
    rw [hside, hcol']
    omega
  · exact absurd hat hne
theorem nextSide_at_exit (e : Nat) : nextSide (e / 5) e = e % 5 := by simp [nextSide]

/-- Settles O17: the exit's column decides first, then its row, and each hop leads closer. -/
theorem dimensionOrder : Obligations.DimensionOrder := by
  intro r e he
  exact ⟨nextSide_row_iff r e, nextSide_closer r.isLt he, fun h => h ▸ nextSide_at_exit e⟩

end Sys2Proof.Machine
end

section
/-! The routers' steps (R132–R142) and delivery at an attachment (R379, R380). -/
namespace Sys2Proof.Machine

/-- A packet whose sender's domain stands, which passes the checks, has its response space and need not park, enters its free lane
(R127, R139, R142, R143). -/
theorem inject_of_free {s s1 : State} {port : Nat} {vc : Bool} {d : Fin 4} {p : Packet} {rest : List Packet} (hlive : coreLive s = true)
    (hcopy : copyingPort s port = false) (hout : (plane s (laneKey port vc d)).out = p :: rest) (hsender : senderDom s p = d)
    (hdom : p.dom = d) (hwait : (holdQ s port d).wait.any (· != vc) = false) (hreserve : reserve p s = some s1)
    (hpass : injectStatus s p = none) (hgo : mustPark s port p = false) (hfree : (plane s (laneKey port vc d)).rest = []) :
    inject port vc d s = hostInjected p (slotEntered p (tallyInject p (enterLane port p
      ((s1.setPlane (laneKey port vc d) { plane s1 (laneKey port vc d) with out := rest }).setHold port d
        { holdQ s port d with wait := none })))) := by
  have hpresent : { p with dom := d } = p := by rw [← hdom]
  simp only [inject, hout, hsender, hpresent, hlive, hcopy, hwait, hreserve, hpass, hgo, hfree, List.isEmpty_nil, Bool.not_true, Bool.or_self,
    Bool.false_eq_true, if_false, if_true]
/-- Where one virtual channel alone has flits ready, the flit that its round picks moves on (R134). -/
theorem advance_of_picked {s : State} {r out d i : Nat} {vc : Bool} {turns : Nat → Nat} {f : Flit} (hlive : coreLive s = true)
    (hready : (List.range 4).any (laneReady s r out vc) = true) (hother : (List.range 4).any (laneReady s r out (!vc)) = false)
    (hpick : roundPick s (fun d => (outArb s (5 * r + out)).left.get 0 (4 * b2n vc + d)) (laneReady s r out vc) = some (d, turns))
    (hin : inputFor s r out vc d = some i) (hhead : headFor s r out i vc d = some f) :
    advance r out s = moveFlit r out i vc (Fin.ofNat 4 d) f
      (tally 3 r (if out != 4 && leaves? r out then 5 else out) (s.setOutArb (5 * r + out)
        { outArb s (5 * r + out) with
          lastVc := vc, left := putTurns (outArb s (5 * r + out)).left (b2n vc) turns,
          cur := if f.tail then (outArb s (5 * r + out)).cur.erase (4 * b2n vc + d)
            else (outArb s (5 * r + out)).cur.put (4 * b2n vc + d) (8 * (65536 * f.exit + f.src.toNat) + i),
          last := (outArb s (5 * r + out)).last.put (4 * b2n vc + d) i, busy := (outArb s (5 * r + out)).busy + 1 })) := by
  cases vc
  all_goals
    simp only [Bool.not_false, Bool.not_true] at hother
    simp [advance, hlive, hready, hother, hpick, hin, hhead]
/-- The first parked packet whose destination is not fenced, and which still passes the checks, enters its free lane (R140). -/
theorem forwardHeld_of_free {s : State} {port dom : Nat} {p : Packet} (hlive : coreLive s = true)
    (hfirst : (holdQ s port dom).pkts.find? (fun q => match target q.dest.toNat with
      | .tile l => !fenced s l
      | _ => true) = some p)
    (hfree : (plane s (laneKey port p.vc p.dom)).rest = []) (hpass : injectStatus s p = none) :
    forwardHeld port dom s = enterLane port p (s.setHold port dom { holdQ s port dom with pkts := (holdQ s port dom).pkts.erase p }) := by
  unfold forwardHeld
  dsimp only
  split
  · next hnone => cases hfirst.symm.trans hnone
  · next q hq =>
    cases hfirst.symm.trans hq
    simp [hlive, hfree, hpass]
/-- The last flit of a packet leaves the ring of a ready attachment, and the packet that it completes is delivered (R379, R380). -/
theorem takeEntry_of_last {s : State} {port a : Nat} {t : Target} {e : RingEnt} {rest : List RingEnt} {p : Packet}
    (hat : attachedAt port = some (t, a)) (hring : ring s port = e :: rest) (hpresent : (xing s (attachXing t a)).absent = false)
    (hawake : s.xng.stopped.contains (attachIsland t) = false) (hroom : attachFull s port t e.vc = false)
    (hbegun : asmOf s (laneKey port e.vc e.dom) ≠ []) (htail : e.flit.tail = true)
    (hwhole : packetFrom (asmOf s (laneKey port e.vc e.dom) ++ [e.flit]) = some p) :
    takeEntry port s = landAttach t a port p
      (({ s with ply := { s.ply with ring := s.ply.ring.set [] port rest } }).setAsm (laneKey port e.vc e.dom) []) := by
  have hlater : (asmOf s (laneKey port e.vc e.dom)).isEmpty = false := by simpa using hbegun
  simp only [takeEntry, hat, hring, hpresent, hawake, hroom, hlater, htail, hwhole, Bool.or_self, Bool.false_and, Bool.false_eq_true, if_false,
    if_true]

/-- Settles O18: each step of a router under the condition of its rule. -/
theorem routers : Obligations.Routers := by
  refine ⟨?injection, ?advance, ?held, ?delivery⟩
  case injection =>
    rintro s s1 r side vc d p rest k rfl hlive hcopy hout hsender hdom hwait hreserve hpass hgo hfree
    exact congrArg Host.Outcome.next (inject_of_free hlive hcopy hout hsender hdom hwait hreserve hpass hgo hfree)
  case advance =>
    rintro s r out vc d i turns f a hlive rfl hready hother hpick hin hhead
    exact congrArg Host.Outcome.next (advance_of_picked hlive hready hother hpick hin hhead)
  case held =>
    intro s r side d p hlive hfirst hfree hpass
    exact congrArg Host.Outcome.next (forwardHeld_of_free hlive hfirst hfree hpass)
  case delivery =>
    rintro s r side t a e rest p k hat hring rfl hpresent hawake hroom hbegun htail hwhole
    exact congrArg Host.Outcome.next (takeEntry_of_last hat hring hpresent hawake hroom hbegun htail hwhole)

end Sys2Proof.Machine
end

section
/-! The memory gateways (R130, R352): a request that is taken goes to the bank queues. -/
namespace Sys2Proof.Machine

/-- A round picks a domain that is ready (R134, R145). -/
theorem ready_of_roundPick {s : State} {left : Nat → Nat} {ready : Nat → Bool} {d : Nat} {turns : Nat → Nat}
    (h : roundPick s left ready = some (d, turns)) : ready d = true := by
  unfold roundPick roundPickN at h
  dsimp only at h
  split at h
  · next c hc =>
    cases h
    have hturn := List.find?_some hc
    exact (Bool.and_eq_true_iff.1 hturn).1
  · split at h
    · next c hc =>
      cases h
      exact List.find?_some hc
    · cases h
/-- The request that is served next is one that may be (R145). -/
theorem ok_of_nextReqIf {ok : Packet → Bool} {s : State} {port : Nat} {p : Packet} (h : nextReqIf ok s port = some p) : ok p = true := by
  unfold nextReqIf at h
  split at h
  · next d turns hdom =>
    have hready : (inbox s (laneKey port false d)).head?.any ok = true := ready_of_roundPick hdom
    rwa [h] at hready
  · cases h
/-- A request that a gateway can take and need not refuse has room in its bank queues (R352). -/
theorem bankRoom_of_goes {s : State} {g : Nat} {p : Packet} (hgoes : gwGoes s g p = true) (hinit : s.memory.initDone = true)
    (hrange : gwRange g p = true)
    (hallowed : memAllowed s false p.dom.val (p.op != 2) ((p.words.getD 0 0).toNat % 0x20000000) = true) :
    bankRoom s (64 + g) (1 + p.dom.val) ((p.words.getD 0 0).toNat % 0x20000000) (fld (p.words.getD 1 0) 6 0) = true := by
  simpa only [gwGoes, hinit, hrange, hallowed, Bool.not_true, Bool.false_or] using hgoes
/-- A request of a gateway's row that is in range and allowed is taken, and its operation starts (R130). -/
theorem gatewayOp_of_allowed {s : State} {g k : Nat} {ops : List (BitVec 4)} {p : Packet}
    (hnext : nextReqIf (gwGoes s g) s (portOf s (.mem g) k) = some p) (hop : ops.contains p.op = true) (hvret : s.memory.vret = false)
    (hinit : s.memory.initDone = true) (hrange : gwRange g p = true)
    (hallowed : memAllowed s false p.dom.val (p.op != 2) ((p.words.getD 0 0).toNat % 0x20000000) = true) :
    gatewayOp g k ops s = startOp { kind := gwKind p, master := 64 + g, dom := p.dom, src := .ply p (portOf s (.mem g) k),
                                    addr := (p.words.getD 0 0).toNat % 0x20000000, count := fld (p.words.getD 1 0) 6 0,
                                    left := 0, got := [], status := stOk, refused := false }
      (bytesOfWords (p.words.drop 2)) (takeReqIf (gwGoes s g) (portOf s (.mem g) k) s) := by
  simp only [gatewayOp, hnext, hop, hvret, hinit, hrange, hallowed, Bool.not_true, Bool.or_self, Bool.false_eq_true, if_false]
/-- The four rows of a gateway are one operation on the OPs of the row (R130). -/
theorem exec_gateway {g : Fin 16} {k : Fin 4} {c : Instr} {ops : List (BitVec 4)}
    (h : (c, ops) ∈ [(Instr.memGatewayRd g k, [2]), (Instr.memGatewayWr g k, [3, 4]), (Instr.memGatewaySet g k, [5]),
      (Instr.memGatewayClr g k, [6])]) (s : State) : exec c s = .next (gatewayOp g k ops s) := by
  simp only [List.mem_cons, List.not_mem_nil, or_false, Prod.mk.injEq] at h
  rcases h with ⟨rfl, rfl⟩ | ⟨rfl, rfl⟩ | ⟨rfl, rfl⟩ | ⟨rfl, rfl⟩ <;> rfl

/-- Settles O22: the request that is picked can go on, so it has room, and its row starts it. -/
theorem memGateways : Obligations.MemGateways := by
  intro s g k c ops p hrow hnext hop hvret hrange hallowed hinit
  refine ⟨bankRoom_of_goes (ok_of_nextReqIf hnext) hinit hrange hallowed, ?_⟩
  rw [exec_gateway hrow, gatewayOp_of_allowed hnext hop hvret hinit hrange hallowed]

end Sys2Proof.Machine
end

section
/-! Distaff's migrations (R171–R178): each step of the one that runs, under the condition of its rule. -/
namespace Sys2Proof.Machine

section
variable {s : State} {m : Mig} {i : Inst} (hmig : s.dst.mig = some m) (hinst : instAt s m.base = some i)
include hmig hinst

/-- A decision whose destination's wires are apart puts the fence into effect (R139, R172 steps 1 and 2). -/
theorem decide1_of_apart (hstep : m.step = 0) (hapart : edgesApart s (rect i.w i.h m.col m.row) = true) :
    decide1 s = sendSeals i (setFence i true (s.onDst (fun d => { d with mig := some { m with step := 2 } }))) := by
  simp only [decide1, hmig, hinst, hstep, hapart, if_true]
/-- What is quiescent behind its fence begins to be copied (R171, R172 step 3). -/
theorem beginCopy_of_quiescent (hstep : m.step = 2) (hquiet : quiescent s i = true) :
    beginCopy s = s.onDst (fun d => { d with mig := some { m with step := 4 } }) := by
  simp only [beginCopy, hmig, hinst, hstep, hquiet, and_self, if_true]
/-- A migration whose shape is not quiescent in time aborts, and the shape counts as unmovable (R178). -/
theorem quiesceTimeout_of_busy (hstep : m.step = 2) (hbusy : quiescent s i = false) :
    quiesceTimeout s = serveFailing (abortMig stFault true s) := by
  simp only [quiesceTimeout, hmig, hinst, hstep, hbusy, and_self, if_true]
/-- With the scrubber halted no frame can be read, so the copy fails its check (R544; log 90). -/
theorem copyDone_of_halted (hstep : m.step = 4) (hhalted : s.scrub.state = 2) (badTile : Option (Fin 16)) :
    copyDone badTile s = serveFailing (abortMig stFault false s) := by
  simp only [copyDone, hmig, hinst, hstep, hhalted, and_self, if_true]
/-- A copy whose sources could all be read, and whose check passes, commits (R173, R174). -/
theorem copyDone_of_clean {s1 : State} (hstep : m.step = 4) (hruns : s.scrub.state ≠ 2)
    (hread : (instTiles i).foldl (fun (a : Bool × State) t => ((a.1 && (readSource t a.2).1), (readSource t a.2).2)) (true, s) = (true, s1)) :
    copyDone none s = commitMig m i s1 := by
  simp only [copyDone, hmig, hinst, hstep, hruns, hread, and_false, Bool.not_true, Bool.false_eq_true, if_false, if_true]
/-- The cleared source ends a migration that neither a test nor a pin waits for (R172 step 7). -/
theorem sourcesCleared_of_plain (hstep : m.step = 6) (htest : m.test = none) (hpin : m.pinAfter = none) {s2 s3 : State}
    (h2 : s2 = forEach (rect i.w i.h m.oldCol m.oldRow) clearTile (if s.scrub.state = 2 then s else
      forEach (s.fab.held.filter (fun id => (rect i.w i.h m.oldCol m.oldRow).contains (wireAt id).1 ||
        (rect i.w i.h m.oldCol m.oldRow).contains (wireFar id))) releaseWire s))
    (h3 : s3 = lastMig m stOk (s2.onDst (fun d => { d with mig := none }))) :
    sourcesCleared s = serveFailing (notify 0x50 (instDom s3 i)
      [w32 m.base, w32 m.reason.toNat, cornerItem m.oldCol m.oldRow, cornerItem m.col m.row,
       w32 ((s3.now - m.start).toNat / 12800)] s3) := by
  simp only [sourcesCleared, hmig, hinst, hstep, htest, hpin, ← h2, ← h3, if_true]
end

/-- Settles O19: each step of the migration that runs, under the condition of its rule. -/
theorem migrationSteps : Obligations.MigrationSteps := by
  intro s m i hmig hinst
  refine ⟨?decision, ?quiescence, ?timeout, ?halted, ?clean, ?cleared⟩
  case decision => exact fun hstep hapart => congrArg Host.Outcome.next (decide1_of_apart hmig hinst hstep hapart)
  case quiescence => exact fun hstep hquiet => congrArg Host.Outcome.next (beginCopy_of_quiescent hmig hinst hstep hquiet)
  case timeout => exact fun hstep hbusy => congrArg Host.Outcome.next (quiesceTimeout_of_busy hmig hinst hstep hbusy)
  case halted => exact fun hstep hhalted => congrArg Host.Outcome.next (copyDone_of_halted hmig hinst hstep hhalted none)
  case clean => exact fun s1 hstep hruns hread => congrArg Host.Outcome.next (copyDone_of_clean hmig hinst hstep hruns hread)
  case cleared =>
    exact fun hstep s2 s3 htest hpin h2 h3 =>
      congrArg Host.Outcome.next (sourcesCleared_of_plain hmig hinst hstep htest hpin h2 h3)

end Sys2Proof.Machine
end

section
/-! Distaff's commands (R198–R201): what each does from a port that may give it, once the part is released. -/
namespace Sys2Proof.Machine

/-- A register's command acts once the part is released (R509). -/
theorem served_of_released {s u : State} {act : State → State} (hreleased : beforeRelease s = false) (hact : act s = u) :
    served act s = u := by
  simp only [served, hreleased, hact, Bool.false_eq_true, if_false]

section
variable {s : State} {p : Fin 4} (hidle : dstBusy s p = false)
include hidle

/-- PIN and UNPIN at a base tile where a shape stands (R199). -/
theorem dstPin_of_may {base : Nat} {x : Inst} (hmay : mayCommand s p base = true) (hinst : instAt s base = some x) (b : Bool) :
    dstPin p base b s = dstDone p (if b then 1 else 2) stOk (setPin base b s) := by
  simp only [dstPin, hidle, hmay, hinst, Option.isNone_some, Bool.not_true, Bool.false_eq_true, if_false]
/-- MIGRATE whose check finds a corner starts a migration there (R199, R201). -/
theorem dstMigrate_of_found {base c r : Nat} {x : Inst} {st : Status} (hmay : mayCommand s p base = true)
    (hinst : instAt s base = some x) (hfound : migrateCheck s x (s.regP p .dstCmdArg 0 0) = (st, some (c, r))) :
    dstMigrate p base s = ((startMig x 5 c r (some p) none s).setRegP p .dstCmdStat 0 0
      (w32 (place 31 1 1 + place 30 1 1 + place 4 4 3))).stat stOk := by
  simp only [dstMigrate, hidle, hmay, hinst, hfound, Bool.not_true, Bool.false_eq_true, if_false]
end

section
variable {s : State} {t : Nat} (hidle : dstBusy s 0 = false) (harg : t = fld (s.regP (0 : Fin 4) .dstCmdArg 0 0) 11 0)
include hidle harg

/-- The owner's RETIRE_TILE of a tile that is not retired, while the runtime list has room (R184, R199). -/
theorem dstRetire_of_room (hfresh : retired s t = false) (hroom : s.dst.retRt.length < 256) :
    dstRetire 0 s = dstDone 0 4 stOk (failTile t 0 s) := by
  simp only [dstRetire, hidle, ← harg, hfresh, Nat.not_le.2 hroom, bne_self_eq_false, Bool.false_eq_true, if_false]
/-- The owner's UNRETIRE of a tile on the runtime list (R199). -/
theorem dstUnretire_of_listed (hfuse : s.sec.fuses.retired.contains t = false)
    (hlisted : s.dst.retRt.any (fun e => e.tile == t) = true) :
    dstUnretire 0 s = dstDone 0 5 stOk (s.onDst (fun d => { d with retRt := d.retRt.filter (fun e => e.tile != t) })) := by
  simp only [dstUnretire, hidle, ← harg, hfuse, hlisted, bne_self_eq_false, Bool.not_true, Bool.false_eq_true, if_false]
end

/-- Settles O20: after release each command is served, and its checks pass. -/
theorem distaffCommands : Obligations.DistaffCommands := by
  intro s p i x hreleased hidle hmay hinst
  refine ⟨?pin, ?unpin, ?migrate, ?retire, ?unretire⟩
  case pin => exact congrArg Host.Outcome.next (served_of_released hreleased (dstPin_of_may hidle hmay hinst true))
  case unpin => exact congrArg Host.Outcome.next (served_of_released hreleased (dstPin_of_may hidle hmay hinst false))
  case migrate =>
    exact fun st c r hfound =>
      congrArg Host.Outcome.next (served_of_released hreleased (dstMigrate_of_found hidle hmay hinst hfound))
  case retire =>
    rintro t rfl harg hfresh hroom
    exact congrArg Host.Outcome.next (served_of_released hreleased (dstRetire_of_room hidle harg hfresh hroom))
  case unretire =>
    rintro t rfl harg hfuse hlisted
    exact congrArg Host.Outcome.next (served_of_released hreleased (dstUnretire_of_listed hidle harg hfuse hlisted))

end Sys2Proof.Machine
end

section
/-! Placement and release of an image (R166–R169, R503, R507, R523). -/
namespace Sys2Proof.Machine

section
variable {s s1 : State} {l : Load} {insts : List Inst} (hload : s.ldr.load = some l) (hsection : l.section_ = 3) (hwaits : l.placed = false)
  (hplaces : tryPlace (sortInsts placeBefore l.insts) s = (.ok insts, s1))
include hload hsection hwaits hplaces

/-- A partial image whose instances find places is mapped; it brings no spools (R166, R503). -/
theorem placementDone_of_partial (hpart : l.partial_ = true) :
    placementDone s = scan (notifyOwner 0x57 0 [w32 insts.length]
      ((forEach insts enterInst s1).onLoad (fun l => { l with placed := true }))) := by
  simp only [placementDone, hload, hsection, hwaits, hplaces, hpart, Bool.not_false, and_self, if_true]
/-- A full image whose instances and spools find places is mapped, and its frames are awaited (R166, R189, R503). -/
theorem placementDone_of_full {s2 : State} (hfull : l.partial_ = false)
    (hspools : placeSpools 2112 0 (forEach insts enterInst s1) = .ok s2) :
    placementDone s = scan (notifyOwner 0x57 0 [w32 insts.length]
      ((s2.onLdr (fun x => { x with state := 1 })).onLoad (fun l => { l with placed := true }))) := by
  simp only [placementDone, hload, hsection, hwaits, hplaces, hfull, hspools, Bool.not_false, and_self, Bool.false_eq_true, if_true, if_false]
end

/-- A full image that is complete and verifies clean is put in force, and the part released (R507 steps 8 and 9):
the verifying pass ends here with the frames that it has not read yet (log 90). -/
theorem ioRelease_of_clean {s s1 : State} {l : Load} (hload : s.ldr.load = some l) (hfull : l.partial_ = false) (hsection : l.section_ = 6)
    (hinit : s.memory.initDone = true) (hruns : s.scrub.state ≠ 2) (hclean : verifyFrames (unverified s) s = (none, s1)) {s2 s3 : State}
    (h2 : s2 = serveFailing (releaseIo (flushHeld (genesis (openSpools (inForce l (withPairs l.wregs
      (clearStaging (clearReel 0x1F000000 0x800000 (passVerified s1))))))))))
    (h3 : s3 = notifyOwner 0x10 0 [imgDesign l, w32 s2.ldr.source.toNat] s2) :
    ioRelease s = notifyPorts 0x00 0 [w32 (fld (s3.reg .sysResetCause 0) 3 0)] [0, 1, 2, 3] s3 := by
  have hgo : (!l.partial_ && l.section_ == 6 && s.memory.initDone && s.scrub.state != 2) = true := by
    simp only [hfull, hsection, hinit, bne_iff_ne.2 hruns, beq_self_eq_true, Bool.not_false, Bool.and_self]
  simp only [ioRelease, hload, hgo, hclean, ← h2, ← h3, if_true]

/-- A region that verifies clean is applied, its tiles started and its pins released (R523). -/
theorem regionRelease_of_clean {s s1 : State} {l : Load} {r : RegionSt} (hload : s.ldr.load = some l) (hpart : l.partial_ = true)
    (hsection : l.section_ = 6) (hruns : s.scrub.state ≠ 2) (hregion : s.ldr.region = some r)
    (hclean : verifyFrames ((physTiles s (rangesHold r.ranges)).flatMap (fun t => (List.range 40).map (fun m => 40 * t + m))) s = (none, s1))
    {s2 s3 s4 : State}
    (h2 : s2 = (closeRegion r.ranges (clearStaging s1)).onLdr (fun x =>
      { x with region := none, load := none, phashPort := r.port, image := l.wregs.foldl (fun m p => m.put p.addr p.val) x.image }))
    (h3 : s3 = startTiles (rangesHold r.ranges) (forEach l.wregs (applyPair r.port) s2))
    (h4 : s4 = forEach r.pins (fun e s => releasePin (drive s e.1) e.1 s) s3) :
    regionRelease s = serveFailing (notify 0x12 r.port [w32 r.port, imgDesign l]
      (ledgerRecord 6 r.port 0 0 0 [imgDesign l, w32 r.port] l.hash
        ((putPortRegs 0 .cfgPhash 0 (wordsOfBytes l.hash) (s4.setReg .cfgPdesign 0 (imgDesign l))).bump .cfgPartials 0 1))) := by
  have hgo : (l.partial_ && l.section_ == 6 && s.scrub.state != 2) = true := by
    simp only [hpart, hsection, bne_iff_ne.2 hruns, beq_self_eq_true, Bool.and_self]
  simp only [regionRelease, hload, hregion, hgo, hclean, ← h2, ← h3, ← h4, if_true]

/-- Settles O49: placement of either kind of image, after which what waited goes on (log 88), and the release of each after a clean
verification. -/
theorem imageRelease : Obligations.ImageRelease := by
  intro s l hload
  refine ⟨?partialPlaced, ?fullPlaced, ?released, ?regionReleased⟩
  case partialPlaced =>
    intro insts s1 hpart hsection hwaits hplaces
    exact congrArg (Host.Outcome.next ∘ serveAll) (placementDone_of_partial hload hsection hwaits hplaces hpart)
  case fullPlaced =>
    intro insts s1 s2 hfull hsection hwaits hplaces hspools
    exact congrArg (Host.Outcome.next ∘ serveAll) (placementDone_of_full hload hsection hwaits hplaces hfull hspools)
  case released =>
    intro s1 s2 hfull hsection hinit hruns hclean h2 s3 h3
    exact congrArg Host.Outcome.next (ioRelease_of_clean hload hfull hsection hinit hruns hclean h2 h3)
  case regionReleased =>
    intro r s1 hpart hsection hruns hregion hclean s2 s3 s4 h2 h3 h4
    exact congrArg Host.Outcome.next (regionRelease_of_clean hload hpart hsection hruns hregion hclean h2 h3 h4)

end Sys2Proof.Machine
end

section
/-! Blocks that a lane receives, and its lock (R212–R227). -/
namespace Sys2Proof.Machine

/-- A listening lane descrambles a block and counts it, and the block's command takes what results (R213, R226). -/
theorem onBlock_of_listening {s s1 : State} {n : Nat} {payload d : DWord} {scr : BitVec 58} {valid bad : Bool} {is : DWord → Bool}
    (hlisten : listening (lane s n) = true) (hscr : descramble (lane s n).scr payload = (d, scr)) (his : is d = true)
    (h1 : s1 = tally 1 n 1 (s.setLane n ({ lane s n with scr := scr, cdr := true }.note valid bad))) (act : DWord → State → State) :
    onBlock n payload valid bad is act s = act d s1 := by
  simp only [onBlock, hlisten, hscr, his, h1, if_true]
/-- In RUN a block of a locked lane that drops no frame acts as a block of a running lane. -/
theorem inRunOrTrain_of_run {s : State} {n : Nat} (hlock : (lane s n).lock = true) (hrun : (lane s n).state = 3)
    (hskip : (lane s n).skip = false) (data : Bool) (run train : State → State) : inRunOrTrain n data run train s = run s := by
  simp only [inRunOrTrain, hlock, hrun, hskip, Bool.not_true, Bool.false_eq_true, beq_self_eq_true, if_false, if_true]

/-- So does a block that comes well to such a lane, in the state that has counted it (R213, R227). -/
theorem onBlock_of_run {s s1 : State} {n : Nat} {payload d : DWord} {scr : BitVec 58} {is : DWord → Bool}
    (hlisten : listening (lane s n) = true) (hscr : descramble (lane s n).scr payload = (d, scr))
    (h1 : s1 = tally 1 n 1 (s.setLane n ({ lane s n with scr := scr, cdr := true }.note true false)))
    (hlock : (lane s1 n).lock = true) (hrun : (lane s1 n).state = 3) (hskip : (lane s1 n).skip = false) (his : is d = true)
    (data : Bool) (run train : DWord → State → State) :
    onBlock n payload true false is (fun d => inRunOrTrain n data (run d) (train d)) s = run d s1 :=
  (onBlock_of_listening hlisten hscr his h1 _).trans (inRunOrTrain_of_run hlock hrun hskip data (run d) (train d))

/-- Settles O26: the commands are one rule, each with its own type of block; an event block is of any type. -/
theorem laneBlocks : Obligations.LaneBlocks := by
  intro s s1 n payload d scr hlisten hscr h1 hlock hrun hskip
  have acts {type : Nat} (htype : blockType d = type) (run train : DWord → State → State) :=
    onBlock_of_run (is := fun d => blockType d == type) hlisten hscr h1 hlock hrun hskip (beq_iff_eq.2 htype) false run train
  refine ⟨?header, ?event, ?gap, ?train, ?idle⟩
  case header => exact fun htype => congrArg Host.Outcome.next (acts htype (runHeader n) _)
  case event => exact congrArg Host.Outcome.next (onBlock_of_run hlisten hscr h1 hlock hrun hskip rfl true (runEvents n) _)
  case gap => exact fun htype => congrArg Host.Outcome.next (acts htype (runGap n) _)
  case train => exact fun htype => congrArg Host.Outcome.next (acts htype _ _)
  case idle => exact fun htype => congrArg Host.Outcome.next (acts htype (fun _ => _) (fun _ => _))

/-- A listening lane without block lock has it once 64 blocks were good (R226). -/
theorem gainLock_of_good {s : State} {n : Nat} (hlisten : listening (lane s n) = true) (hlock : (lane s n).lock = false)
    (hgood : 64 ≤ (lane s n).good) : gainLock n s = s.setLane n { (lane s n).noLock with lock := true } := by
  simp only [gainLock, hlisten, hlock, hgood, Bool.not_false, Bool.and_self, decide_true, if_true]
/-- A block with an invalid sync header, or a control block of an unknown type that no earlier block error discards, is a block error
of a locked lane in RUN and drops the frame (R227). -/
theorem errorBlk_of_run {s s1 : State} {n : Nat} {sync : BitVec 2} {payload d : DWord} {scr : BitVec 58}
    (hlisten : listening (lane s n) = true) (hscr : descramble (lane s n).scr payload = (d, scr))
    (hbad : sync = 0 ∨ sync = 3 ∨ (sync = 1 ∧ knownType d = false ∧ (lane s n).skip = false))
    (h1 : s1 = tally 1 n 1 (s.setLane n ({ lane s n with scr := scr, cdr := true }.note (sync == 1 || sync == 2) true)))
    (hlock : (lane s1 n).lock = true) (hrun : (lane s1 n).state = 3) :
    errorBlk n sync payload s = blkErr n (s1.setLane n { (lane s1 n).noFrame with skip := true, trains := 0 }) := by
  have hjudged : ((sync == 1 || sync == 2) && ((lane s n).lock && (lane s n).state == 3 && (lane s n).skip)) = false := by
    rcases hbad with rfl | rfl | ⟨rfl, -, hskip⟩
    · rfl
    · rfl
    · rw [hskip, Bool.and_false, Bool.and_false]
  have hevent : (!(sync == 1 || sync == 2) || (sync == 1 && !knownType d)) = true := by
    rcases hbad with rfl | rfl | ⟨rfl, htype, -⟩
    · rfl
    · rfl
    · rw [htype]
      rfl
  simp only [errorBlk, hjudged, Bool.not_false]
  rw [onBlock_of_listening hlisten hscr hevent h1]
  simp only [hlock, hrun, beq_self_eq_true, Bool.and_self, Bool.false_eq_true, if_false, if_true]
/-- The receiver of a lane stays on through silence. -/
theorem listening_silent (x : LaneSt) (k : Nat) : listening (x.silent k) = listening x := by
  unfold LaneSt.silent
  split <;> rfl
/-- A lane in RUN whose window holds 16 errors loses its lock, with a notice that lasts, and is LOST, or with RETRAIN queued again
(R226, R235, R254). -/
theorem lockLost_of_errors {s s1 : State} {n k : Nat} (hlisten : listening (lane s n) = true)
    (hlost : losesLock ((lane s n).silent k) = true) (hrun : ((lane s n).silent k).state = 3)
    (h1 : s1 = laneGap 1 true n (laneGo n 4 (s.setLane n ((lane s n).silent k).noLock))) :
    lockLost n k s = if bitOf (laneCfg s1 n) 30 then laneGo n 1 s1 else s1 := by
  simp only [lockLost, listening_silent, hlisten, hlost, hrun, h1, Bool.not_true, Bool.false_eq_true, beq_self_eq_true, if_false, if_true]
/-- Of a lane whose window holds fewer errors the silence alone is counted (R226). -/
theorem lockLost_of_held {s : State} {n k : Nat} (hlisten : listening (lane s n) = true)
    (hheld : losesLock ((lane s n).silent k) = false) : lockLost n k s = s.setLane n ((lane s n).silent k) := by
  simp only [lockLost, listening_silent, hlisten, hheld, Bool.not_true, Bool.false_eq_true, if_false]
/-- A lane in RUN that misses four echoes loses the pulse once (R224). -/
theorem syncGone_of_missing {s : State} {n : Nat} (hrun : (lane s n).state = 3) (hheld : (lane s n).syncLost = false)
    (hmissing : 4 ≤ (lane s n).noEcho) :
    syncGone n s = laneGap 9 true n (notifyOwner 0x95 0 [w32 n] (s.setLane n { lane s n with syncLost := true })) := by
  simp only [syncGone, hrun, hheld, hmissing, beq_self_eq_true, Bool.not_false, Bool.and_self, decide_true, if_true]

/-- Settles O27: each loss, and the gain of block lock, under the condition of its rule. -/
theorem laneFaults : Obligations.LaneFaults := by
  rintro s n x rfl hlisten
  refine ⟨?gain, ?error, ?lost, ?held, ?sync⟩
  case gain => exact fun hlock hgood => congrArg Host.Outcome.next (gainLock_of_good hlisten hlock hgood)
  case error =>
    exact fun sync payload d scr s1 hscr hbad h1 hlock hrun =>
      congrArg Host.Outcome.next (errorBlk_of_run hlisten hscr hbad h1 hlock hrun)
  case lost =>
    rintro k y s1 rfl hlost hrun h1
    exact congrArg Host.Outcome.next (lockLost_of_errors hlisten hlost hrun h1)
  case held => exact fun k hheld => congrArg Host.Outcome.next (lockLost_of_held hlisten hheld)
  case sync => exact fun hrun hheld hmissing => congrArg Host.Outcome.next (syncGone_of_missing hrun hheld hmissing)

end Sys2Proof.Machine
end

section
/-! What leaves a lane (R228–R231, R345, R352): its gateway's events, and its writer's records. -/
namespace Sys2Proof.Machine

/-- The channel whose turn it is sends its oldest event, and the turn passes on (R231). -/
theorem laneSend_of_turn {s : State} {n i : Nat} (hlive : coreLive s = true)
    (hturn : nextInTurn ((List.range 32).filter (fun i => !(chan s (32 * n + i)).q.items.isEmpty &&
      gateFree s (portOf s (.lane n) 0) (spoolDom s (32 * n + i))))
      (if (lane s n).turn = 0 then none else some ((lane s n).turn - 1)) = some i) :
    laneSend n s = chanSend (32 * n + i) (0x1000 + n) (portOf s (.lane n) 0) (s.reg .laneSub (32 * n + i))
      (s.setLane n { lane s n with turn := i + 1 }) := by
  simp only [laneSend, hturn, hlive, if_true]
/-- A lane writer whose crossing is present, of a lane that is not in RESET, takes a record up and writes on (R228, R345). -/
theorem spoolWrite_of_present {s s1 s2 : State} {k : Nat} (hlive : memLive s = true) (hpresent : (xing s (writerXing k)).absent = false)
    (h1 : s1 = takeRecord k s) (h2 : s2 = writerGo k (((lane s1 k).cur.map (fun c => c.words.length)).getD 0) s1)
    (hreset : (lane s2 k).state ≠ 7) : spoolWrite k s = s2 := by
  have hstays : ((lane s2 k).state == 7) = false := beq_false_of_ne hreset
  subst h1 h2
  simp only [spoolWrite, hlive, hpresent, hstays, Bool.not_true, Bool.false_and, Bool.false_eq_true, if_false]
/-- A lane writer's step appends the first word that it has left; with the last one the record is done (R345). -/
theorem writerStep_of_word {s : State} {k : Nat} {c : WCur} {v : Word} {ws : List Word} (hcur : (lane s k).cur = some c)
    (hwords : c.words = v :: ws) :
    writerStep k s = if ws = [] then recDone c (putRecWord c.spool v (s.setLane k { lane s k with cur := none, slot := false }))
      else putRecWord c.spool v (s.setLane k { lane s k with cur := some { c with words := ws }, slot := false }) := by
  cases ws
  all_goals simp [writerStep, hcur, hwords]
/-- A half word that waits too long in a spool whose writer is not at it is written alone, in a retained group once it is awake
(R345, R364). -/
theorem writerTimeout_of_half {s : State} {n : Nat} (hlive : memLive s = true) (hhalf : (spoolOf s n).half.isSome = true)
    (hfirst : (spoolOf s n).w % 8 = 0) (hidle : (lane s (writerOf n)).cur.any (fun c => c.spool == n) = false) :
    writerTimeout n s = if retained s (offAddr (spoolOf s n) (spoolOf s n).w / 2 ^ 25)
      then askWake (offAddr (spoolOf s n) (spoolOf s n).w / 2 ^ 25) s else flushHalf n s := by
  simp only [writerTimeout, hlive, hhalf, hfirst, hidle, beq_self_eq_true, Bool.not_false, Bool.and_self, if_true]

/-- Settles O28: the gateway's turn, and the writer's records, words and half words. -/
theorem laneWriters : Obligations.LaneWriters := by
  refine ⟨?gateway, ?record, ?word, ?half⟩
  case gateway => exact fun s n i hlive hturn => congrArg Host.Outcome.next (laneSend_of_turn hlive hturn)
  case record =>
    exact fun s s1 s2 k hlive hpresent h1 h2 hreset =>
      congrArg Host.Outcome.next (spoolWrite_of_present hlive hpresent h1 h2 hreset)
  case word => exact fun s k c v ws hcur hwords => writerStep_of_word hcur hwords
  case half =>
    exact fun s n hlive hhalf hfirst hidle => congrArg Host.Outcome.next (writerTimeout_of_half hlive hhalf hfirst hidle)

end Sys2Proof.Machine
end

section
/-! Training (R222, R238, R239) and the eye monitor (R244). -/
namespace Sys2Proof.Machine

/-- In Run the queued lane with the lowest index starts its first attempt when no lane trains (R238). -/
theorem nextTraining_of_queued {s : State} {n : Nat} (hfree : trainingLane s = none)
    (hqueued : (List.range 64).find? (fun n => (lane s n).state == 1) = some n) (hrun : s.pwr.state = 0) :
    nextTraining s = startAttempt n 1 s := by
  simp only [nextTraining, hfree, hqueued, hrun, beq_self_eq_true, Bool.true_or, if_true]
/-- A load that is ready while the writes still fit before the next edge is for that edge's pulse (R222; log 75). -/
theorem loadPulseNow_of_early {s : State} {n j : Nat} (hleft : s.time.emitted = some j) (hhere : s.now.toNat / 2 ^ 20 = j)
    (hearly : s.now.toNat % 2 ^ 20 ≤ syncDelay s n + 128) (hfits : syncDelay s n + 128 + loadTicks + 128000 ≤ 2 ^ 20) :
    loadPulseNow s n = some (pulseAfter j 1) := by
  have hready : max (s.now.toNat % 2 ^ 20) (syncDelay s n + 128) + loadTicks + 128000 ≤ 2 ^ 20 := by rwa [max_eq_right hearly]
  simp only [loadPulseNow, hleft, hhere, hready, and_self, if_true]

section
variable {s : State} {n : Nat} {id ver : Word} (htrains : trainingLane s = some n)
include htrains

/-- A front end that passes its check is set up (R238 step 1). -/
theorem stepDone_identified (hstep : (lane s n).step = 1) (hcheck : feCause id ver = 0) :
    stepDone id ver s = feSetup n ((s.setLane n { lane s n with step := 2 }).setReg .laneFeId n id) := by
  simp [stepDone, htrains, hstep, hcheck]
theorem stepDone_recovered (hstep : (lane s n).step = 2) :
    stepDone id ver s = s.setLane n { lane s n with cdr := true, step := 3 } := by
  simp [stepDone, htrains, hstep]
theorem stepDone_locked (hstep : (lane s n).step = 3) (hlock : (lane s n).lock = true) :
    stepDone id ver s = s.setLane n { lane s n with step := 4 } := by
  simp [stepDone, htrains, hstep, hlock]
theorem stepDone_identity (hstep : (lane s n).step = 4) (hlock : (lane s n).lock = true) (htold : 16 ≤ (lane s n).trains) :
    stepDone id ver s = s.setLane n { lane s n with step := 5 } := by
  simp [stepDone, htrains, hstep, hlock, htold]
/-- The step before the load ends with the load's writes, where there is time for them (R222). -/
theorem stepDone_loaded {l : Nat} (hstep : (lane s n).step = 5) (hload : loadPulseNow s n = some l) :
    stepDone id ver s = feLoad n l (s.setLane n { lane s n with step := 6 }) := by
  simp [stepDone, htrains, hstep, hload]
theorem stepDone_unloaded (hstep : (lane s n).step = 5) (hload : loadPulseNow s n = none) :
    stepDone id ver s = s.setLane n { lane s n with step := 6 } := by
  simp [stepDone, htrains, hstep, hload]
/-- Once the pulse that was loaded has been emitted the front end runs (R238 step 6). -/
theorem stepDone_emitted {l j : Nat} (hstep : (lane s n).step = 6) (hload : (lane s n).loadPulse = some l)
    (hemitted : s.time.emitted = some j) (hpast : pulseLt j l = false) :
    stepDone id ver s = feMode n 2 (s.setLane n { lane s n with frame := none, step := 7 }) := by
  simp [stepDone, htrains, hstep, hload, hemitted, hpast]
theorem stepDone_framed (hstep : (lane s n).step = 7) (hframe : (lane s n).frame.isSome = true) :
    stepDone id ver s = s.setLane n { lane s n with step := 8 } := by
  simp [stepDone, htrains, hstep, hframe]
/-- With an echo of an edge after the load the lane is in RUN (R238 step 8). -/
theorem stepDone_synced (hstep : (lane s n).step = 8) (hframe : (lane s n).frame.isSome = true)
    (hsynced : syncedAfterLoad s n = true) : stepDone id ver s = enterRun n s := by
  simp [stepDone, htrains, hstep, hframe, hsynced]
/-- A step that is late fails the attempt with the step's cause (R239). -/
theorem stepLate_none : stepLate none s = attemptFails n (if (lane s n).step = 1 then 0xA else (lane s n).step.toNat + 1) s := by
  have hfirst : (lane s n).step.toNat = 1 ↔ (lane s n).step = 1 := BitVec.toNat_inj (y := 1)
  simp only [stepLate, htrains, hfirst]
/-- A front end that fails its check fails the attempt with the check's cause (R239). -/
theorem stepLate_unidentified (hstep : (lane s n).step = 1) (hcheck : feCause id ver ≠ 0) :
    stepLate (some (id, ver)) s = attemptFails n (feCause id ver) (s.setReg .laneFeId n id) := by
  simp [stepLate, htrains, hstep, hcheck]
end

/-- A sample in RUN that clears both thresholds is entered, and is one more good sample in a row (R244). -/
theorem eyeSample_of_clear {s : State} {n : Nat} {h w : Byte} (hrun : (lane s n).state = 3)
    (hheight : fld (s.reg .laneEye n) 15 8 ≤ h.toNat) (hwidth : fld (s.reg .laneEye n) 7 0 ≤ w.toNat) :
    eyeSample n h w s = (s.setReg .laneEye n (putFld (putFld (s.reg .laneEye n) 31 24 h.toNat) 23 16 w.toNat)).setLane n
      { lane s n with eyeBadH := 0, eyeBadW := 0, eyeGood := min 4 ((lane s n).eyeGood + 1),
                      eyeLow := if min 4 ((lane s n).eyeGood + 1) = 4 then false else (lane s n).eyeLow } := by
  simp [eyeSample, hrun, Nat.not_lt.2 hheight, Nat.not_lt.2 hwidth]

/-- Settles O29: the start of an attempt, each step of one in turn, the causes of a failure, and the eye. -/
theorem laneTraining : Obligations.LaneTraining := by
  refine ⟨?start, ?steps, ?eye⟩
  case start => exact fun s n hfree hqueued hrun => congrArg Host.Outcome.next (nextTraining_of_queued hfree hqueued hrun)
  case eye => exact fun s n h w hrun hheight hwidth => congrArg Host.Outcome.next (eyeSample_of_clear hrun hheight hwidth)
  case steps =>
    intro s n id ver htrains
    refine ⟨?identified, ?recovered, ?locked, ?identity, ?load, ?pulse, ?emitted, ?framed, ?synced, ?late, ?firstLate, ?unidentified⟩
    case identified => exact fun hstep hcheck => congrArg Host.Outcome.next (stepDone_identified htrains hstep hcheck)
    case recovered => exact fun hstep => congrArg Host.Outcome.next (stepDone_recovered htrains hstep)
    case locked => exact fun hstep hlock => congrArg Host.Outcome.next (stepDone_locked htrains hstep hlock)
    case identity => exact fun hstep hlock htold => congrArg Host.Outcome.next (stepDone_identity htrains hstep hlock htold)
    case load =>
      intro hstep
      cases hload : loadPulseNow s n with
      | some l => exact congrArg Host.Outcome.next (stepDone_loaded htrains hstep hload)
      | none => exact congrArg Host.Outcome.next (stepDone_unloaded htrains hstep hload)
    case pulse => exact fun j hleft hhere hearly hfits => loadPulseNow_of_early hleft hhere hearly hfits
    case emitted =>
      exact fun l j hstep hload hemitted hpast => congrArg Host.Outcome.next (stepDone_emitted htrains hstep hload hemitted hpast)
    case framed => exact fun hstep hframe => congrArg Host.Outcome.next (stepDone_framed htrains hstep hframe)
    case synced => exact fun hstep hframe hsynced => congrArg Host.Outcome.next (stepDone_synced htrains hstep hframe hsynced)
    case late => exact fun hstep => congrArg Host.Outcome.next ((stepLate_none htrains).trans (by rw [if_neg hstep]))
    case firstLate => exact fun hstep => congrArg Host.Outcome.next ((stepLate_none htrains).trans (by rw [if_pos hstep]))
    case unidentified => exact fun hstep hcheck => congrArg Host.Outcome.next (stepLate_unidentified htrains hstep hcheck)

end Sys2Proof.Machine
end

section
/-! The lane commands (R245, R246, R251, R252). -/
namespace Sys2Proof.Machine

/-- A lane command of the owner that no status stops acts, and records its OP with OK (R251). -/
theorem laneCommand_of_ok {s : State} {st : Status} (hidle : runningCmd s 0 .laneCmdStat = false) (hok : st = stOk) (op : Nat)
    (runs : Bool) (act : State → State) :
    laneCommand 0 op st runs act s = ((act s).setRegP 0 .laneCmdStat 0 0 (laneStatWord runs op stOk)).stat stOk := by
  simp only [laneCommand, hidle, hok, ne_eq, not_true_eq_false, Bool.false_eq_true, if_false, if_true]
/-- In RUN RETRAIN is a command of its own, and nothing makes it wait (R251). -/
theorem cmdRetrain_of_run {s : State} {n : Nat} (hrun : (lane s n).state = 3) (p : Nat) :
    cmdRetrain p n s = laneCommand p 3 stOk false (retrainLane n) s := by
  simp only [cmdRetrain, hrun]
  rfl
/-- A lane whose reset ends is queued where it is enabled, and OFF where it is not (R245). -/
theorem laneResetEnd_of_reset {s : State} {n : Nat} (hreset : (lane s n).state = 7) :
    laneResetEnd n s = laneGo n (if bitOf (laneCfg s n) 31 then 1 else 0) s := by
  simp only [laneResetEnd, hreset, beq_self_eq_true, if_true]
/-- A front-end read ends with its data and OK (R252). -/
theorem laneCmdEnd_of_read {s : State} {p : Nat} {x : FeTxn} (hfe : s.fe.find p = some x) (hop : x.op = 5) (data : Word) :
    laneCmdEnd p data s = (({ s with fe := s.fe.erase p }).setRegP p .laneCmdData 0 0 data).setRegP p .laneCmdStat 0 0
      (laneStatWord false 5 stOk) := by
  simp [laneCmdEnd, hfe, hop]
/-- Any other transaction ends with OK, a front-end write with its register written (R252). -/
theorem laneCmdEnd_of_other {s s1 : State} {p : Nat} {x : FeTxn} (hfe : s.fe.find p = some x) (hop : x.op ≠ 5)
    (h1 : s1 = if x.op = 6 then feWrite x.lane x.addr x.data { s with fe := s.fe.erase p } else { s with fe := s.fe.erase p })
    (data : Word) : laneCmdEnd p data s = s1.setRegP p .laneCmdStat 0 0 (laneStatWord false x.op.toNat stOk) := by
  simp only [laneCmdEnd, hfe, h1, beq_false_of_ne hop, beq_iff_eq, Bool.false_eq_true, if_false]

/-- Settles O30: after release each command is served, and no status stops it; and what ends a reset or a transaction. -/
theorem laneCommands : Obligations.LaneCommands := by
  intro s n
  refine ⟨fun hreleased hidle => ⟨?enable, ?disable, ?retrain, ?reset, ?feRead, ?feWrite⟩, ?resetEnd, ?readEnd, ?otherEnd⟩
  case enable =>
    exact fun hok => congrArg Host.Outcome.next (served_of_released hreleased (laneCommand_of_ok hidle hok 1 false _))
  case disable => exact congrArg Host.Outcome.next (served_of_released hreleased (laneCommand_of_ok hidle rfl 2 true _))
  case retrain =>
    exact fun hrun => congrArg Host.Outcome.next
      (served_of_released hreleased ((cmdRetrain_of_run hrun 0).trans (laneCommand_of_ok hidle rfl 3 false _)))
  case reset => exact congrArg Host.Outcome.next (served_of_released hreleased (laneCommand_of_ok hidle rfl 4 false _))
  case feRead =>
    intro hfree
    have hok : busyIf (feBusy s n) = stOk := by rw [hfree]; rfl
    exact congrArg Host.Outcome.next (served_of_released hreleased (laneCommand_of_ok hidle hok 5 true _))
  case feWrite =>
    intro hfree haddr
    have hok : firstBad [allow (decide (0x100 ≤ fld (s.regP 0 .laneCmdArg 0 0) 15 0)), busyIf (feBusy s n)] = stOk := by
      rw [hfree, decide_eq_true haddr]
      rfl
    exact congrArg Host.Outcome.next (served_of_released hreleased (laneCommand_of_ok hidle hok 6 true _))
  case resetEnd => exact fun hreset => congrArg Host.Outcome.next (laneResetEnd_of_reset hreset)
  case readEnd => exact fun p x data hfe hop => congrArg Host.Outcome.next (laneCmdEnd_of_read hfe hop data)
  case otherEnd => exact fun p x data s1 hfe hop h1 => congrArg Host.Outcome.next (laneCmdEnd_of_other hfe hop h1 data)

end Sys2Proof.Machine
end

section
/-! Writes of the lane and sense registers (R254, R258, R261, R263, R290–R292). -/
namespace Sys2Proof.Machine

/-- A write that its checks let through takes effect and completes with OK (R19). -/
theorem checked_of_ok {l : List Status} (hok : firstBad l = stOk) (act : State → State) (s : State) :
    checked l act s = (act s).stat stOk :=
  if_pos hok
/-- An owner's write of LANE_CFG that passes its checks sets the lane (R254). -/
theorem laneCfgWrite_of_ok {s : State} {n : Nat} {v : Word} (hok : laneCfgStatus s n v = stOk) :
    laneCfgWrite 0 n v s = (putLaneCfg n v s).stat stOk := by
  simp only [laneCfgWrite, ownerOnly, hok, if_true]
/-- A subscription that takes every queued entry keeps them all (R234). -/
theorem length_keptEntries_of_all {take : BitVec 2 → Bool} {l : List ChEnt} (hall : ∀ e ∈ l, take e.kind = true) (r : Report) :
    (keptEntries take r l).1.length = l.length := by
  induction l generalizing r with
  | nil => rfl
  | cons e t ih =>
    obtain ⟨hhead, htail⟩ := List.forall_mem_cons.1 hall
    simp only [keptEntries, hhead, if_true, List.length_cons, ih htail]
/-- A write of a register changes no channel. -/
theorem chan_putFields (s : State) (p : Nat) (r : Reg) (i j : Nat) (v : Word) (c : Nat) : chan (s.putFields p r i j v) c = chan s c := by
  simp only [chan, State.putFields_chans]
/-- A subscription that takes every event still queued changes its register alone (R234). -/
theorem putSub_of_all {s u : State} {r : Reg} {i c : Nat} {v : Word} (hu : u = s.putFields 0 r i 0 v)
    (hall : ∀ e ∈ (chan s c).q.items, subTakes (u.reg r i) e.kind = true) : putSub r i c v s = u := by
  subst hu
  simp only [putSub, chan_putFields, length_keptEntries_of_all hall, if_true]

/-- Settles O31: after release each write is served, and its checks pass. -/
theorem laneRegisters : Obligations.LaneRegisters := by
  intro s v hreleased
  refine ⟨?laneCfg, ?chEn, ?laneSub, ?senseSub, ?kept, ?clrPeak, ?qdCfg, ?tbsync⟩
  case laneCfg => exact fun n hok => congrArg Host.Outcome.next (served_of_released hreleased (laneCfgWrite_of_ok hok))
  case chEn =>
    intro n hspace
    have hok : firstBad [within (chEnOk s n v)] = stOk := by rw [hspace]; rfl
    exact congrArg Host.Outcome.next (served_of_released hreleased (checked_of_ok hok _ s))
  case laneSub =>
    intro p c hstatus
    have hok : firstBad [subStatus s p c v] = stOk := by rw [hstatus]; rfl
    exact congrArg Host.Outcome.next (served_of_released hreleased (checked_of_ok hok _ s))
  case senseSub =>
    intro p k hstatus
    have hok : firstBad [subStatus s p (2048 + k) v] = stOk := by rw [hstatus]; rfl
    exact congrArg Host.Outcome.next (served_of_released hreleased (checked_of_ok hok _ s))
  case kept => exact fun r i c u hu hall => putSub_of_all hu hall
  case clrPeak =>
    intro p c hreach
    have hok : firstBad [allow (mayReach s p c)] = stOk := by rw [hreach]; rfl
    exact congrArg Host.Outcome.next (served_of_released hreleased (checked_of_ok hok _ s))
  case qdCfg =>
    intro p q hreach hvalue
    have hok : firstBad [allow (qdReach s p q), within (qdCfgOk v)] = stOk := by rw [hreach, hvalue]; rfl
    exact congrArg Host.Outcome.next (served_of_released hreleased (checked_of_ok hok _ s))
  case tbsync => exact congrArg Host.Outcome.next (served_of_released hreleased rfl)

end Sys2Proof.Machine
end

section
/-! A step takes the command at the front of the queue, or runs one cycle of the timebase island (R264). -/
namespace Sys2Proof.Machine

/-- A step runs the command at the front of the queue on the state with the queue's rest. -/
theorem step_cons (c : Instr) (rest : List Instr) (s : State) :
    step { s with pending := c :: rest } = exec c { s with pending := rest } := rfl
/-- A step on an empty queue is one idle cycle. -/
theorem step_nil (s : State) : step { s with pending := [] } = .next (idleCycle { s with pending := [] }) := rfl

/-- Settles O1: the two cases of the queue. -/
theorem stepRunsTheFrontCommand : Obligations.StepRunsTheFrontCommand :=
  ⟨step_cons, step_nil⟩

end Sys2Proof.Machine
end

section
/-! Sense capture (R274–R278). -/
namespace Sys2Proof.Machine

/-! ## The filter window (R275, R276) -/

section
variable {s : State} {k : Nat}

/-- An edge at a pin that does not capture does nothing (R274). -/
theorem senseEdge_of_idle (hidle : captures s k = false) (rise : Bool) (t : Tick) : senseEdge k rise t s = s := by
  simp only [senseEdge, hidle, Bool.false_eq_true, if_false]
/-- An edge where no window is open opens one (R276). -/
theorem senseEdge_of_closed (hcap : captures s k = true) (hclosed : (sense s k).open_ = none) (rise : Bool) (t : Tick) :
    senseEdge k rise t s = s.setSense k { sense s k with open_ := some (t, rise) } := by
  simp only [senseEdge, hcap, hclosed, if_true]
/-- A second edge within the window is a glitch, with the first (R276). -/
theorem senseEdge_of_within {t0 t : Tick} {r0 : Bool} (hcap : captures s k = true) (hopen : (sense s k).open_ = some (t0, r0))
    (hwithin : (t - t0).toNat < senseWindow s k) (rise : Bool) :
    senseEdge k rise t s = glitch k (s.setSense k { sense s k with open_ := none }) := by
  simp only [senseEdge, hcap, hopen, hwithin, if_true]
/-- An edge after the window is over ends it with the event of the first edge and opens its own (R276). -/
theorem senseEdge_of_over {t0 t : Tick} {r0 : Bool} (hcap : captures s k = true) (hopen : (sense s k).open_ = some (t0, r0))
    (hover : senseWindow s k ≤ (t - t0).toNat) (rise : Bool) :
    senseEdge k rise t s = senseEvent k (senseTime s k t0) r0 (s.setSense k { sense s k with open_ := some (t, rise) }) := by
  simp only [senseEdge, hcap, hopen, Nat.not_lt.2 hover, if_true, if_false]
/-- The close of a window that is not open does nothing. -/
theorem windowClosed_of_closed (hclosed : (sense s k).open_ = none) : windowClosed k s = s := by
  simp only [windowClosed, hclosed]
/-- The close of the window ends it with the event of its edge (R276). -/
theorem windowClosed_of_open {t0 : Tick} {r0 : Bool} (hopen : (sense s k).open_ = some (t0, r0)) :
    windowClosed k s = senseEvent k (senseTime s k t0) r0 (s.setSense k { sense s k with open_ := none }) := by
  simp only [windowClosed, hopen]

end

/-- A time whose three low bits are masked out is a multiple of 8. -/
theorem and_not_seven_mod_eight (x : Tick) : (x &&& ~~~(7 : BitVec 64)).toNat % 8 = 0 := by
  have hmask : x &&& ~~~(7 : BitVec 64) &&& 7 = 0 := by
    rw [BitVec.and_assoc, show ~~~(7 : BitVec 64) &&& 7 = 0#64 from rfl, BitVec.and_zero]
    rfl
  calc (x &&& ~~~(7 : BitVec 64)).toNat % 8
      = (x &&& ~~~(7 : BitVec 64) &&& 7).toNat := (Nat.and_two_pow_sub_one_eq_mod _ 3).symm
    _ = 0 := by rw [hmask]; rfl
/-- The time of an event is a multiple of 8 ticks (R275). -/
theorem senseTime_mod_eight (s : State) (k : Nat) (t : Tick) : (senseTime s k t).toNat % 8 = 0 :=
  and_not_seven_mod_eight _

/-! ## Events (R274, R278) -/

/-- A pin's configuration takes both edges with EDGES = 3, else the one that it names (R274). -/
theorem takesEdge_iff (edges : Nat) (rise : Bool) :
    (edges = 3 ∨ (edges = 1 ∧ rise = true) ∨ (edges = 2 ∧ (!rise) = true)) ↔ (edges = 3 ∨ edges = if rise then 1 else 2) := by
  cases rise <;> simp
/-- An event of a pin whose configuration takes its edge becomes a record, samples the counters that name the pin, and joins the queue of
a subscription that takes it (R274, R278, R283). -/
theorem senseEvent_eq {s s1 s2 : State} {k edges : Nat} {t : Tick} {rise : Bool} (hedges : edges = fld (s.reg .timeSenseCfg k) 7 6)
    (hs1 : s1 = acceptEvent (2048 + k) t (if rise then 0 else 1) false s)
    (hs2 : s2 = forEach ((List.range 16).filter (fun q => bitOf (qdCfg s1 q) 23 && fld (qdCfg s1 q) 21 16 == k)) (fun q => sample q 4 t)
      (s1.setChan (2048 + k) { chan s1 (2048 + k) with lastTime := some t })) :
    senseEvent k t rise s = if edges = 3 ∨ edges = (if rise then 1 else 2) then
      (if subTakes (s2.reg .timeSenseSub k) (if rise then 0 else 1) then
        chanPush (2048 + k) { time := t, kind := if rise then 0 else 1, order := false }
          (notifyOnce 0xA3 k (spoolDom s2 (2048 + k)).val 1 [w32 k]) s2
       else s2) else s := by
  subst hs2 hs1 hedges
  simp only [senseEvent, takesEdge_iff]
  rfl
/-- A pin with no event in its queue sends none. -/
theorem senseSend_of_empty {s : State} {k : Nat} (hempty : (chan s (2048 + k)).q.items = []) : senseSend k s = s := by
  simp only [senseSend, chanSend, hempty, ite_self]
/-- The oldest event of a sound queue is sent to the subscription, once the pin's bank may send (R231, R278). -/
theorem senseSend_of_event {s : State} {k pt : Nat} {e : ChEnt} {rest : List ChEnt} (hpt : pt = portOf s (.pin (k / 32)) 0)
    (hlive : coreLive s = true) (hfree : gateFree s pt (spoolDom s (2048 + k)) = true)
    (hitems : (chan s (2048 + k)).q.items = e :: rest) (hok : (chan s (2048 + k)).q.ok = true) :
    senseSend k s = gateOut pt (eventPacket s (2048 + k) (0x1050 + k / 32) (s.reg .timeSenseSub k) e)
      (tally 2 (2048 + k) 1 (s.setChan (2048 + k)
        { chan s (2048 + k) with q := (chan s (2048 + k)).q.pop 64, lastDel := e.time, told := false })) := by
  subst hpt
  simp only [senseSend, hfree, hlive, Bool.and_self, if_true, chanSend, hitems, hok, Bool.not_true, Bool.false_eq_true, if_false]

end Sys2Proof.Machine
end

section
/-! Quadrature counters (R280–R285, R292). -/
namespace Sys2Proof.Machine

/-! ## Steps and the index (R282, R283, R285) -/

/-- The rows of R282's table, each with its change in the modes x4, x2 and x1. -/
theorem qdStep_table : ∀ e ∈ ([(0, 2, 1, 1, 1), (2, 3, 1, 0, 0), (3, 1, 1, 1, 0), (1, 0, 1, 0, 0), (2, 0, -1, -1, -1), (3, 2, -1, 0, 0),
      (1, 3, -1, -1, 0), (0, 1, -1, 0, 0)] : List (Nat × Nat × Int × Int × Int)), ∀ a b : BitVec 2, a.toNat = e.1 → b.toNat = e.2.1 →
    qdStep 0 a b = some e.2.2.2.2 ∧ qdStep 1 a b = some e.2.2.2.1 ∧ qdStep 2 a b = some e.2.2.1 := by
  decide
/-- Every mode but x1 and x2 counts as x4. -/
theorem qdStep_add_two (m : Nat) : qdStep (m + 2) = qdStep 2 := rfl
/-- In every mode a step is illegal where both inputs change (R282). -/
theorem qdStep_eq_none_iff : ∀ (m : Nat) (a b : BitVec 2), qdStep m a b = none ↔ a ^^^ b = 3
  | 0 => by decide
  | 1 => by decide
  | m + 2 => by rw [qdStep_add_two]; decide

section
variable {s s1 : State} {q : Nat} {a b : Bool} {ab : BitVec 2}
  (hab : ab = BitVec.ofNat 2 (2 * b2n (qdInput s q 0 a ((qd s q).ab.getLsbD 1)) + b2n (qdInput s q 1 b ((qd s q).ab.getLsbD 0))))
  (hs1 : s1 = s.setQd q { qd s q with ab := ab, fresh := false })
include hab hs1

/-- A counter that is new to its inputs, or not enabled, follows them (R285). -/
theorem quadrature_of_still (hstill : (qd s q).fresh = true ∨ bitOf (qdCfg s q) 31 = false) :
    quadrature q a b s = s1 := by
  subst hs1 hab
  have hguard : ((qd s q).fresh || !bitOf (qdCfg s q) 31) = true := by simpa using hstill
  simp only [quadrature, hguard, if_true]
/-- A legal step of an enabled counter counts by the table, reversed with REV (R282). -/
theorem quadrature_of_legal {d : Int} (hfresh : (qd s q).fresh = false) (hen : bitOf (qdCfg s q) 31 = true)
    (hstep : qdStep (fld (qdCfg s q) 30 29) (qd s q).ab ab = some d) :
    quadrature q a b s = setCount q ((qd s q).count + BitVec.ofInt 32 (if bitOf (qdCfg s q) 28 then -d else d)) s1 := by
  subst hs1 hab
  simp only [quadrature, hfresh, hen, hstep, Bool.not_true, Bool.or_self, Bool.false_eq_true, if_false]
/-- A step of both inputs is an error, counted and raised (R282). -/
theorem quadrature_of_illegal (hfresh : (qd s q).fresh = false) (hen : bitOf (qdCfg s q) 31 = true)
    (hstep : qdStep (fld (qdCfg s q) 30 29) (qd s q).ab ab = none) :
    quadrature q a b s = notifyOnce 0xA5 q (qdPktDom s q).val 1 [w32 q]
      ((s1.setQd q { qd s1 q with err := true }).setReg .timeQdErrcnt q (satFld (s.reg .timeQdErrcnt q) 15 0 1)) := by
  subst hs1 hab
  simp only [quadrature, hfresh, hen, hstep, Bool.not_true, Bool.or_self, Bool.false_eq_true, if_false]
  rfl

end

section
variable {s : State} {q : Nat}

/-- An index edge does nothing with INDEX = 0, or where no pin with VIOB brings it (R283, R407). -/
theorem indexEdge_of_ignored
    (hoff : fld (qdCfg s q) 27 26 = 0 ∨ (claimants s 4 q 2).head?.any (fun p => viobOk s (bankOfPin p)) = false) : indexEdge q s = s := by
  have hguard : (!(claimants s 4 q 2).head?.any (fun p => viobOk s (bankOfPin p)) || decide (fld (qdCfg s q) 27 26 = 0)) = true := by
    rcases hoff with h | h <;> simp [h]
  simp only [indexEdge, hguard, if_true]
/-- An index edge that is seen samples with INDEX = 2 or 3, then zeroes with INDEX = 1 or 3 (R283, R285). -/
theorem indexEdge_of_seen {s1 s2 : State} {i : Nat} (hi : i = fld (qdCfg s q) 27 26) (hs1 : s1 = s.setQd q { qd s q with idx := true })
    (hs2 : s2 = if i = 2 ∨ i = 3 then sample q 2 s1.now s1 else s1)
    (hseen : (claimants s 4 q 2).head?.any (fun p => viobOk s (bankOfPin p)) = true) (hon : i ≠ 0) :
    indexEdge q s = if i = 1 ∨ i = 3 then setCount q 0 s2 else s2 := by
  subst hs2 hs1 hi
  simp only [indexEdge, hseen, hon, Bool.not_true, decide_false, Bool.or_self, Bool.false_eq_true, if_false]
  rfl

end

/-- A count's change touches the counter's count and its history alone. -/
theorem setCount_eq (q : Nat) (c : Word) (s : State) :
    ∃ hist, setCount q c s = s.setQd q { qd s q with count := c, hist := hist } := ⟨_, rfl⟩

/-! ## Samples (R283, R284) -/

/-- A further cause of a sample leaves the count and the time that it kept. -/
theorem addCause_last (x : QdSt) (cause : Nat) :
    (addCause x cause).lastCnt = x.lastCnt ∧ (addCause x cause).lastTime = x.lastTime := ⟨rfl, rfl⟩
/-- A further cause of a sample makes no entry. -/
theorem length_addCause (x : QdSt) (cause : Nat) : (addCause x cause).q.items.length = x.q.items.length := by
  rcases List.eq_nil_or_concat' x.q.items with hnil | ⟨r, e, hitems⟩
  · simp [addCause, hnil]
  · obtain ⟨w, c, u⟩ := e
    cases hcycle : x.cycle with
    | none => simp [addCause, hcycle]
    | some bl =>
      simp only [addCause, hcycle, hitems, List.getLast?_concat, List.dropLast_concat]
      split <;> simp [hitems]
/-- The entry that the cycle's sample made shows the further cause (R283). -/
theorem items_addCause {x : QdSt} {b l : Nat} {w c : Word} {u : Tick} {r : List (Word × Word × Tick)} (hcycle : x.cycle = some (b, l))
    (hitems : x.q.items = r ++ [(w, c, u)]) (hsame : bankCycle u = b) (cause : Nat) :
    (addCause x cause).q.items = r ++ [(w ||| w32 (place 27 5 cause), c, u)] := by
  simp only [addCause, hcycle, hitems, List.getLast?_concat, List.dropLast_concat, hsame, if_true]

/-- A counter's store changes no register. -/
@[simp] theorem State.setQd_reg (s : State) (k : Nat) (x : QdSt) (r : Reg) (i : Nat) : (s.setQd k x).reg r i = s.reg r i := rfl

/-- A cause that falls on the bank cycle of the last sample joins it (R283). -/
theorem sample_of_sameCycle {s : State} {q cause : Nat} {t : Tick} (hsame : sameCycle (qd s q) cause t = true) :
    sample q cause t s = s.setQd q (addCause (qd s q) cause) := by
  simp only [sample, hsame, if_true]

section
variable {s s1 : State} {q cause : Nat} {t : Tick} (hnew : sameCycle (qd s q) cause t = false)
  (hs1 : s1 = s.setQd q { qd s q with lastCnt := (qd s q).countAt t, lastTime := t, cycle := some (bankCycle t, cause) })
include hnew hs1

/-- A sample without a subscription keeps the count that stood at its time, and the time (R283). -/
theorem sample_of_unsubscribed (hsub : bitOf (s.reg .timeQdSub q) 31 = false) : sample q cause t s = s1 := by
  subst hs1
  simp only [sample, hnew, State.setQd_reg, hsub, Bool.false_eq_true, if_false]
/-- In Doze and Park a subscribed sample is missed (R284). -/
theorem sample_of_asleep (hsub : bitOf (s.reg .timeQdSub q) 31 = true) (hasleep : s.pwr.state = 2 ∨ s.pwr.state = 3) :
    sample q cause t s = sampleMissed q s1 := by
  subst hs1
  have hguard : (s.pwr.state == 2 || s.pwr.state == 3) = true := by simpa using hasleep
  simp only [sample, hnew, State.setQd_reg, State.setQd_pwr, hsub, hguard, Bool.false_eq_true, if_false, if_true]
/-- Awake, a subscribed sample joins a sound queue that has room, and overruns a full one (R284). -/
theorem sample_of_awake (hsub : bitOf (s.reg .timeQdSub q) 31 = true) (hdoze : s.pwr.state ≠ 2) (hpark : s.pwr.state ≠ 3)
    (hok : (qd s q).q.ok = true) :
    sample q cause t s = if (qd s q).q.items.length < 8 then
        s1.setQd q { qd s1 q with q := (qd s q).q.push 8 (w32 (place 27 5 cause), (qd s q).countAt t, t) }
      else missSample q (s1.setQd q { qd s1 q with q := { (qd s q).q with ovr := true } }) := by
  subst hs1
  have hguard : (s.pwr.state == 2 || s.pwr.state == 3) = false := by simpa using And.intro hdoze hpark
  simp only [sample, hnew, State.setQd_reg, State.setQd_pwr, hsub, hguard, hok, Bool.not_true, Bool.false_eq_true, if_false, if_true]

end

/-! ## Commands and packets (R284, R285, R292) -/

section
variable {s : State}

/-- A domain that may reach a counter reads its last sample, the time latched for its port (R292). -/
theorem qdLastRead_of_reach {p q : Nat} (hreach : qdReach s p q = true) : qdLastRead p q s =
    ((s.setRegP p .timeQdLastLo q 0 (lo32 (qd s q).lastTime)).setRegP p .timeQdLastHi q 0 (hi32 (qd s q).lastTime)).finish stOk
      [(qd s q).lastCnt] := by
  simp only [qdLastRead, hreach, if_true]

/-- The packet that carries a queued sample, to the subscription as it stands (R284). -/
def samplePacket (s : State) (q : Nat) (cause cnt : Word) (t : Tick) : Packet :=
  let x := qd s q
  let sub := s.reg .timeQdSub q
  { dest := BitVec.ofNat 16 (fld sub 11 0), slot := BitVec.ofNat 5 (fld sub 25 21), op := 0, tag := 0,
    src := BitVec.ofNat 16 (0x1050 + homeBank s q), status := 0, dom := qdPktDom s q, vc := false,
    words := [cause + w32 (place 26 1 (b2n x.miss) + place 25 1 (b2n x.err) + place 24 1 (b2n x.idx) + q), cnt, lo32 t, hi32 t] }

/-- The oldest sample of a sound queue is sent, or without a subscription dropped (R284, notes/assumptions/85.md). -/
theorem qdSend_of_queued {q pt : Nat} {cause cnt : Word} {t : Tick} {rest : List (Word × Word × Tick)}
    (hitems : (qd s q).q.items = (cause, cnt, t) :: rest) (hlive : coreLive s = true) (hawake : s.pins.asleep = false)
    (hok : (qd s q).q.ok = true) (hpt : pt = portOf s (.pin (homeBank s q)) 0) (hfree : gateFree s pt (qdPktDom s q) = true) :
    qdSend q s = if bitOf (s.reg .timeQdSub q) 31 then
        queueOut pt (samplePacket s q cause cnt t)
          (s.setQd q { qd s q with q := (qd s q).q.pop 8, miss := false, err := false, idx := false })
      else s.setQd q { qd s q with q := (qd s q).q.pop 8 } := by
  subst hpt
  simp only [qdSend, hitems, hlive, hawake, hok, hfree, Bool.not_true, Bool.or_self, Bool.false_eq_true, if_false]
  rfl

end

/-- Settles O33: each step of a sense pin's filter and queue, and of a counter, its samples and its packets, under the condition of its
rule. -/
theorem senseAndQuadrature : Obligations.SenseAndQuadrature := by
  intro s
  refine ⟨fun k rise t => ⟨?idle, ?opens, fun t0 r0 hcap hopen => ⟨?glitch, ?event⟩⟩, fun k => ⟨?notOpen, ?closes⟩, ?time, ?record,
    fun k pt hpt hlive hfree => ⟨?noEvent, ?sends⟩, fun q a b ab s1 hab hs1 => ⟨?follows, ?counts, ?error⟩, ?table, ?illegal,
    fun q i s1 hi hs1 => ⟨?ignored, fun hseen => ⟨?zeroes, ?samples, ?both⟩⟩, ?count, ?joins,
    fun q cause t s1 hnew hs1 => ⟨?kept, ?missed, fun hsub hdoze hpark hok => ⟨?queued, ?overrun⟩⟩,
    fun p q hreleased hreach => ⟨?sampleCmd, ?clearCmd, ?read⟩,
    fun q cause cnt t rest sub pt x hx hitems hlive hawake hok hsub hpt hfree =>
      ⟨?dropped, fun hon => ⟨samplePacket s q cause cnt t, ?sent, ?packet⟩⟩⟩
  case idle => exact fun hidle => congrArg Host.Outcome.next (senseEdge_of_idle hidle rise t)
  case opens => exact fun hcap hclosed => congrArg Host.Outcome.next (senseEdge_of_closed hcap hclosed rise t)
  case glitch => exact fun hwithin => congrArg Host.Outcome.next (senseEdge_of_within hcap hopen hwithin rise)
  case event => exact fun hover => congrArg Host.Outcome.next (senseEdge_of_over hcap hopen hover rise)
  case notOpen => exact fun hclosed => congrArg Host.Outcome.next (windowClosed_of_closed hclosed)
  case closes => exact fun t0 r0 hopen => congrArg Host.Outcome.next (windowClosed_of_open hopen)
  case time => exact fun k t => senseTime_mod_eight s k t
  case record => exact fun k t rise edges s1 s2 hedges hs1 hs2 => senseEvent_eq hedges hs1 hs2
  case noEvent => exact fun hempty => congrArg Host.Outcome.next (senseSend_of_empty hempty)
  case sends =>
    rintro e rest p sub hitems hok rfl rfl
    exact ⟨congrArg Host.Outcome.next (senseSend_of_event hpt hlive hfree hitems hok), rfl, rfl, rfl, rfl, rfl, rfl, rfl⟩
  case follows => exact fun hstill => congrArg Host.Outcome.next (quadrature_of_still hab hs1 hstill)
  case counts => exact fun d hfresh hen hstep => congrArg Host.Outcome.next (quadrature_of_legal hab hs1 hfresh hen hstep)
  case error => exact fun hfresh hen hstep => congrArg Host.Outcome.next (quadrature_of_illegal hab hs1 hfresh hen hstep)
  case table => exact fun x4 x2 x1 i j hrow a b ha hb => qdStep_table _ hrow a b ha hb
  case illegal => exact qdStep_eq_none_iff
  case ignored => exact fun hoff => congrArg Host.Outcome.next (indexEdge_of_ignored (hi ▸ hoff))
  case zeroes | samples | both =>
    rintro rfl
    exact congrArg Host.Outcome.next (indexEdge_of_seen hi hs1 rfl hseen (by decide))
  case count => exact fun q c => setCount_eq q c s
  case joins =>
    intro q cause t hsame
    obtain ⟨hcnt, htime⟩ := addCause_last (qd s q) cause
    exact ⟨sample_of_sameCycle hsame, hcnt, htime, length_addCause _ cause,
      fun b l w c u r hcycle hitems hu => items_addCause hcycle hitems hu cause⟩
  case kept => exact fun hsub => sample_of_unsubscribed hnew hs1 hsub
  case missed => exact fun hsub hasleep => sample_of_asleep hnew hs1 hsub hasleep
  case queued =>
    intro hroom
    rw [sample_of_awake hnew hs1 hsub hdoze hpark hok, if_pos hroom]
  case overrun =>
    intro hfull
    rw [sample_of_awake hnew hs1 hsub hdoze hpark hok, if_neg (Nat.not_lt.2 hfull)]
  case sampleCmd | clearCmd =>
    have hok : firstBad [allow (qdReach s p q)] = stOk := by rw [hreach]; rfl
    exact congrArg Host.Outcome.next (served_of_released hreleased (checked_of_ok hok _ s))
  case read =>
    exact congrArg Host.Outcome.next ((servedRead_of_released hreleased _).trans (qdLastRead_of_reach hreach))
  case dropped =>
    intro hoff
    subst hx hsub
    exact congrArg Host.Outcome.next ((qdSend_of_queued hitems hlive hawake hok hpt hfree).trans (by rw [hoff]; rfl))
  case sent =>
    subst hx hsub
    exact congrArg Host.Outcome.next ((qdSend_of_queued hitems hlive hawake hok hpt hfree).trans (if_pos hon))
  case packet =>
    subst hx hsub
    exact ⟨rfl, rfl, rfl, rfl, rfl, rfl⟩

end Sys2Proof.Machine
end

section
/-! Spool commands that are ready (R304–R327). -/
namespace Sys2Proof.Machine

/-- Where every group that holds a spool is awake, an access to it acts at once (R364). -/
theorem whenAwake_of_awake {s : State} {n : Nat} (hawake : SpoolAwake s n) (act : State → State) : whenAwake n act s = act s := by
  rw [SpoolAwake] at hawake
  simp only [whenAwake, hawake, List.isEmpty_nil, if_true]

/-! ## Commands that name a position (R304, R323) -/

/-- A command whose position resolves acts on it (R323). -/
theorem withPos_of_ok {c : SplCmd} {s s2 : State} {p : Pos} (hpos : cmdPos c s = (.ok p, s2)) (act : Pos → State → State) :
    withPos c act s = act p s2 := by
  simp only [withPos, hpos]
/-- A command that is ready and whose position resolves acts on that position, in the state that the position was read in. -/
theorem splRun_placed {s s2 : State} {src : SplSrc} {code : Nat} {c : SplCmd} {p : Pos} (h : SplReady s src code c)
    (hpos : cmdPos c (splTake src s) = (.ok p, s2)) (act : SplCmd → Pos → State → State) :
    splRun code src (fun c => withPos c (act c)) s = act c p s2 :=
  (splRun_ready h _).trans (withPos_of_ok hpos _)
/-- MT_INSERT writes its entry in the way that `mtPlace` finds, and tells an eviction (R319; log 86). -/
theorem mtInsert_of_read {c : SplCmd} {s s2 s3 : State} {p : Pos} {l : List MtEnt} {j : Nat} {rep ev : Bool}
    (hpos : cmdPos c s = (.ok p, s2)) (hread : mtRead c.dom (mtHash (cmdSpool c) (cmdClass c) (cmdWord c 3)) s2 = (some l, s3))
    (hplace : mtPlace s3 (cmdSpool c) (cmdClass c) (cmdWord c 3) l = (j, rep, ev)) {s4 : State}
    (h4 : s4 = mtWrite c.dom (mtHash (cmdSpool c) (cmdClass c) (cmdWord c 3)) j
      { valid := true, cls := cmdClass c, spool := cmdSpool c, key := cmdWord c 3, off40 := p.off % 2 ^ 40,
        tag := fld (cmdWord c 4) 23 0 } (s3.bump .splMtInserts 0 1)) :
    mtInsert c s = splEnd c stOk [w32 (place 1 1 (b2n ev) + b2n rep)] (if ev then notifyOnce 0x83 (cmdSpool c)
      (spoolDom s4 (cmdSpool c)).val 1 [w32 (cmdSpool c), w32 (cmdClass c)] (s4.bump .splMtEvicts 0 1) else s4) := by
  rw [mtInsert, withPos_of_ok hpos]
  simp only [hread, hplace, h4]
/-- What EXPORT_START starts at a position (R315). -/
def startedExport (c : SplCmd) (p : Pos) : ExpSt :=
  { port := c.dom, follow := bitOf (cmdWord c 3) 31, endTime := bitOf (cmdWord c 3) 30,
    stop := (join32 (cmdWord c 4) (cmdWord c 5)).toNat, hash := bitOf (cmdWord c 3) 29, run := p.base, seg := none,
    bytes := [], lapped := false, sent := 0, skip := none, closing := none, final := none }
/-- EXPORT_START without HASH takes slot C alone (R315). -/
theorem exportStart_of_plain {c : SplCmd} {s s2 : State} {p : Pos} (hpos : cmdPos c s = (.ok p, s2))
    (hplain : bitOf (cmdWord c 3) 29 = false) :
    exportStart c s = splEnd c stOk (pair p.off) ((s2.setExp (cmdSpool c) (some (startedExport c p))).setSlot (cmdSpool c) 2
      { slotOf s2 (cmdSpool c) 2 with state := runState s2 (cmdSpool c) (startedExport c p).follow p.off, pos := p.off }) := by
  rw [exportStart, withPos_of_ok hpos]
  simp only [startedExport, hplain, Bool.false_eq_true, if_false]

/-- Settles O34: each command acts on the position that it resolves. -/
theorem spoolPositions : Obligations.SpoolPositions := by
  intro s s2 src code c p hready hpos
  refine ⟨?slotStart, ?markSet, ?exportStart, ?mtInsert⟩
  case slotStart | markSet =>
    rintro rfl
    exact congrArg Host.Outcome.next (splRun_placed hready hpos _)
  case exportStart =>
    rintro rfl hplain
    exact ⟨startedExport c p, _, congrArg Host.Outcome.next ((splRun_ready hready _).trans (exportStart_of_plain hpos hplain)), rfl,
      rfl, rfl, hplain, rfl⟩
  case mtInsert =>
    rintro rfl l s3 j rep ev s4 hread hplace h4
    exact congrArg Host.Outcome.next ((splRun_ready hready _).trans (mtInsert_of_read hpos hread hplace h4))

/-! ## The other commands (R307, R311, R315, R320, R324) -/

section
variable {c : SplCmd} {s : State}

/-- A stop of a slot that runs waits for the run's LAST packet (R311). -/
theorem slotStop_of_running (hrun : inRun (slotOf s (cmdSpool c) (cmdIndex c)) = true) :
    slotStop c s = s.setSlot (cmdSpool c) (cmdIndex c) { slotOf s (cmdSpool c) (cmdIndex c) with
      stops := (slotOf s (cmdSpool c) (cmdIndex c)).stops ++
        [{ run := (slotOf s (cmdSpool c) (cmdIndex c)).runs, pos := (slotOf s (cmdSpool c) (cmdIndex c)).pos, cmd := c }] } :=
  if_pos hrun
/-- A stop of an idle slot answers at once (R311). -/
theorem slotStop_of_idle (hidle : inRun (slotOf s (cmdSpool c) (cmdIndex c)) = false) :
    slotStop c s = splEnd c stOk (pair (slotOf s (cmdSpool c) (cmdIndex c)).pos) s :=
  if_neg (Bool.eq_false_iff.1 hidle)
/-- A mark that is set answers its offset and its base time, and whether it is lapped (R312, R313). -/
theorem markQuery_of_set {o : Nat} {t : Tick} (hmark : (spoolOf s (cmdSpool c)).marks.find (cmdIndex c) = some (o, t)) :
    markQuery c s = splEnd c stOk ([w32 (place 31 1 1 + place 30 1 (b2n (decide (o < vOf (spoolOf s (cmdSpool c))))))] ++
      pair o ++ tickPair t) s := by
  simp only [markQuery, hmark]
/-- A lookup that finds a live entry answers its tag and its offset (R320). -/
theorem mtLookup_of_found {s2 : State} {l : List MtEnt} {j : Nat} {e : MtEnt}
    (hread : mtRead c.dom (mtHash (cmdSpool c) (cmdClass c) (cmdWord c 1)) (s.bump .splMtLookups 0 1) = (some l, s2))
    (hfound : mtFind c l = some (j, e)) (hlive : mtLapped s2 e = false) :
    mtLookup c s = splEnd c stOk ([w32 (place 31 1 1 + place 0 24 e.tag)] ++ pair (mtOff s2 e)) s2 := by
  simp only [mtLookup, hread, hfound, hlive, Bool.false_eq_true, if_false]
/-- A delete that finds its entry clears it (R320). -/
theorem mtDelete_of_found {s2 : State} {l : List MtEnt} {j : Nat} {e : MtEnt}
    (hread : mtRead c.dom (mtHash (cmdSpool c) (cmdClass c) (cmdWord c 1)) s = (some l, s2)) (hfound : mtFind c l = some (j, e)) :
    mtDelete c s = splEnd c stOk [1] (mtClear c.dom (mtHash (cmdSpool c) (cmdClass c) (cmdWord c 1)) j e s2) := by
  simp only [mtDelete, hread, hfound]
/-- EXPORT_STOP ends what EXPORT_START has started (R316). -/
theorem exportStop_of_running {e : ExpSt} (hexp : (spoolOf s (cmdSpool c)).exp = some e) :
    exportStop c s = splEnd c stOk (pair (slotOf s (cmdSpool c) 2).pos) (endExport (cmdSpool c) 6 (exportStatus e) s) := by
  simp only [exportStop, hexp]
/-- A RESIZE to a size that there is room for waits for its spool to close (R324, R327). -/
theorem resizeCmd_of_room (hsize : fld (cmdWord c 1) 12 0 ≠ 0)
    (hroom : fld (cmdWord c 1) 12 0 ≤ freeUnits s + (spoolOf s (cmdSpool c)).segs.length) :
    resizeCmd c s = s.setSpool (cmdSpool c) { spoolOf s (cmdSpool c) with resizing := some (fld (cmdWord c 1) 12 0, c) } := by
  simp only [resizeCmd, decide_eq_false hsize, Bool.false_and, Bool.false_eq_true, Nat.not_lt.2 hroom, if_false]

end

/-- Settles O35: a command that is ready runs its effect, and each effect in the case that the statement names. -/
theorem spoolCommands : Obligations.SpoolCommands := by
  rintro s src code n i c hready rfl rfl s1 rfl
  have hrun (act) : (.next (splRun code src act s) : Host.Outcome State Fault Refusal) = .next (act c (splTake src s)) :=
    congrArg Host.Outcome.next (splRun_ready hready act)
  refine ⟨?slotStop, ?slotQuery, ?markClear, ?markQuery, ?spoolQuery, ?mtLookup, ?mtDelete, ?exportStop, ?resize⟩
  case slotStop =>
    rintro rfl x rfl
    exact ⟨fun hruns => (hrun _).trans (congrArg _ (slotStop_of_running hruns)),
      fun hidle => (hrun _).trans (congrArg _ (slotStop_of_idle hidle))⟩
  case slotQuery | markClear | spoolQuery =>
    rintro rfl
    exact hrun _
  case markQuery =>
    rintro rfl o t hmark
    exact (hrun _).trans (congrArg _ (markQuery_of_set hmark))
  case mtLookup =>
    rintro rfl l s2 j e hread hfound hlive
    exact (hrun _).trans (congrArg _ (mtLookup_of_found hread hfound hlive))
  case mtDelete =>
    rintro rfl l s2 j e hread hfound
    exact (hrun _).trans (congrArg _ (mtDelete_of_found hread hfound))
  case exportStop =>
    rintro rfl e hexp
    exact (hrun _).trans (congrArg _ (exportStop_of_running hexp))
  case resize =>
    rintro rfl hsize hroom
    exact (hrun _).trans (congrArg _ (resizeCmd_of_room hsize hroom))

end Sys2Proof.Machine
end

section
/-! The spool engine's own events (R297, R306–R309, R315–R317, R320, R327, R339). -/
namespace Sys2Proof.Machine

/-! ## Packets of reader slots and exports (R306, R308, R309, R315, R316) -/

/-- Nothing holds back the run of slot `x` of spool `n`: its gateway is free, it stands in the segment that it has begun, and it is
neither stopped nor paced (R308, R309, R311). -/
structure RunMaySend (s : State) (n : Nat) (x : SlotSt) : Prop where
  reads : reading x = true
  live : memLive s = true
  clocked : s.xng.stopped.contains 192 = false
  free : gateFree s (portOf s (.mem (posOf (spoolOf s n) x.pos / 512)) x.tile.toNat) (spoolDom s n) = true
  inSeg : x.pos / 65536 = x.seg
  unstopped : x.stops.any (fun e => e.run == x.runs) = false
  paced : tickLt s.now x.ready = false
/-- A run that nothing holds back sends what may be read, where that fills a packet, or by the flush rule what a FOLLOW run has
(R308, R309). -/
theorem sendNext_of_room {s s1 : State} {n i k : Nat} {flush : Bool} {x : SlotSt} {lim : Limit} (hx : x = slotOf s n i)
    (hmay : RunMaySend s n x) (hlim : lim = runLimit s n x.follow x.endTime x.stop x.pos) (hmore : lim.done = false)
    (hk : k = min (min (16 - (synWords s n x).length) ((65536 - x.pos % 65536) / 4)) ((lim.off - x.pos) / 4))
    (hdue : k = min (16 - (synWords s n x).length) ((65536 - x.pos % 65536) / 4) ∨ (flush = true ∧ x.follow = true ∧ 0 < k))
    (hok : readOk n (1 + (spoolDom s n).val) (64 + posOf (spoolOf s n) x.pos / 512) x.pos k s = (true, s1)) :
    sendNext n i flush s = (sendSlot n i k false false s1).setSlot n i { slotOf (sendSlot n i k false false s1) n i with
      state := if x.follow && x.pos + 4 * k == (spoolOf s n).w then 3 else 2 } := by
  subst hx hlim
  obtain ⟨hreading, hlive, hclock, hfree, hseg, hstops, hpace⟩ := hmay
  have hsends : (k == min (16 - (synWords s n (slotOf s n i)).length) ((65536 - (slotOf s n i).pos % 65536) / 4) ||
      flush && (slotOf s n i).follow && decide (0 < k)) = true := by
    rcases hdue with hfull | ⟨hflush, hfollow, hsome⟩
    · simp only [← hfull, BEq.rfl, Bool.true_or]
    · simp only [hflush, hfollow, hsome, decide_true, Bool.and_self, Bool.or_true]
  simp only [sendNext, hreading, hlive, hclock, hfree, hseg, hstops, hpace, hmore, ← hk, hsends, hok, ne_eq, not_true_eq_false,
    Bool.not_true, Bool.or_self, Bool.false_and, Bool.false_or, Bool.false_eq_true, false_and, if_false, if_true]
/-- A slot that reads sends at once where its spool is awake (R364). -/
theorem slotSend_of_awake {s : State} {n i : Nat} (hreading : reading (slotOf s n i) = true) (hlive : memLive s = true)
    (hawake : SpoolAwake s n) (flush : Bool) : slotSend n i flush s = sendNext n i flush s := by
  simp only [slotSend, hreading, hlive, Bool.and_self, if_true, whenAwake_of_awake hawake]
/-- EXPORT_PACKET_SEND where its turn has come and no closed entry, skip or LAST packet goes first: the next bytes (R315, R470). -/
theorem exportSend_of_bytes {s : State} {n : Nat} {e : ExpSt} (hentry : tryClose n s = s) (hexp : (spoolOf s n).exp = some e)
    (hstate : (slotOf s n 2).state ≠ 7) (hlive : memLive s = true) (hawake : SpoolAwake s n)
    (hclock : s.xng.stopped.contains 192 = false) (hclosing : e.closing = none) (hledger : (e.hash && s.sec.ledWait) = false)
    (hmay : maySend s e.port 4 = true) (hqueue : qBad s e.port 4 = false) (hskip : e.skip = none) (hfinal : e.final = none) :
    exportSend n s = exportBytes n e s := by
  simp only [exportSend, hentry, hexp, beq_false_of_ne hstate, hlive, hclock, hclosing, hledger, hmay, hqueue, hskip, hfinal,
    whenAwake_of_awake hawake, Option.isSome_none, Bool.not_true, Bool.or_self, Bool.false_eq_true, if_false]

/-! ## The sweep (R317, R320) -/

/-- What MT_SWEEP does of way `j` of set `i`, which reads as `l`: an entry that has lapped is cleared and counted (R320). -/
def sweepWay (i : Nat) (l : List MtEnt) (j : Nat) (s : State) : State :=
  match l[j]? with
  | some e => if e.valid && mtLapped s e then (mtClear 0 i j e s).bump .splMtSwept 0 1 else s
  | none => s
/-- MT_SWEEP passes to the next set and sweeps the ways of the one that it has read (R317, R320). -/
theorem mtSweep_of_read {s0 s1 : State} {l : List MtEnt} (hlive : memLive s0 = true)
    (hread : mtRead 0 s0.spl.sweep { s0 with spl := { s0.spl with sweep := (s0.spl.sweep + 1) % 131072 } } = (some l, s1)) :
    mtSweep s0 = forEach (List.range 4) (sweepWay s0.spl.sweep l) s1 := by
  simp only [mtSweep, hlive, hread, Bool.not_true, Bool.false_eq_true, if_false]
  rfl

/-! ## The close of a spool that is resized (R327, R328) -/

/-- The steps of a close in turn: its readers end, it is emptied, opened anew, and given its GAP (R327, R328). -/
theorem closeSpool_of_steps {s s1 s2 s3 s4 : State} {n new lost : Nat} {c : SplCmd} {segs : List Nat}
    (hended : s1 = finishCur n (endExport n 6 stStale (stopSlots n s))) (hlost : lost = queuedEvents s1 n)
    (hemptied : s2 = flushHalf n (closeGap n (dropQueued n s1)))
    (hopened : s3 = reopen n new segs (((spoolOf s2 n).w + 4095) / 4096 * 4096) s2)
    (hgap : s4 = if new = 0 then s3 else flagGap n (writeRec (.gap n 0xC false (spoolOf s1 n).run s3.now lost) s3)) :
    closeSpool n new c segs s = notify 0x84 (spoolDom s4 n).val [w32 n, w32 (spoolOf s n).size, w32 new, w32 lost]
      (splEnd c stOk [w32 new] (s4.bump .splResizeLost n lost)) := by
  simp only [closeSpool, ← hended, ← hlost, ← hemptied, ← hopened, ← hgap]

section
variable {s : State} {n new : Nat} {c : SplCmd} (hresize : (spoolOf s n).resizing = some (new, c)) (hswap : (spoolOf s n).swap = none)
  (hlive : memLive s = true)
include hresize hswap hlive

/-- A resize that finds its place among groups that are awake closes its spool and opens it anew (R327). -/
theorem spoolClose_of_awake {segs : List Nat} (hplace : placeSegs (freeSegs n s) n 0 [] new = some segs)
    (hgroups : segs.any (fun u => retained s (u / 512)) = false) (hawake : SpoolAwake (wakeFor segs s) n) :
    spoolClose n s = closeSpool n new c segs (wakeFor segs s) := by
  simp only [spoolClose, hresize, hswap, hlive, hplace, hgroups, whenAwake_of_awake hawake, Option.isSome_none, Bool.not_true,
    Bool.or_self, Bool.false_eq_true, if_false]
/-- A resize whose place lies in a group in retention wakes it and waits (R364). -/
theorem spoolClose_of_retained {segs : List Nat} (hplace : placeSegs (freeSegs n s) n 0 [] new = some segs)
    (hgroups : segs.any (fun u => retained s (u / 512)) = true) : spoolClose n s = wakeFor segs s := by
  simp only [spoolClose, hresize, hswap, hlive, hplace, hgroups, Option.isSome_none, Bool.not_true, Bool.or_self, Bool.false_eq_true,
    if_false, if_true]
/-- A resize that finds no place ends with RANGE, and the spool is as it was (R324; log 32). -/
theorem spoolClose_of_full (hplace : placeSegs (freeSegs n s) n 0 [] new = none) :
    spoolClose n s = splEnd c stRange [] (s.setSpool n { spoolOf s n with resizing := none }) := by
  simp only [spoolClose, hresize, hswap, hlive, hplace, Option.isSome_none, Bool.not_true, Bool.or_self, Bool.false_eq_true, if_false]

end

/-! ## W and V (R297, R339) -/

/-- A read of an offset by a port that reaches the spool latches the high half for the port (R339). -/
theorem latchRead_of_reach {s : State} {p : Fin 4} {n : Nat} (hreach : mayReach s p n = true) (hi : Reg) (v : Nat) :
    latchRead p n hi v s = ((wakeIsl 3 0 s).setRegP p hi n 0 (w32 (v / 2 ^ 32))).finish stOk [w32 v] :=
  if_pos hreach

/-- Settles O36: packets of slots and exports, the sweep, the close in its three cases, and the reads of W and V. -/
theorem spoolEngine : Obligations.SpoolEngine := by
  refine ⟨?slot, ?bytes, ?sweep, ?close, ?waits, ?full, ?reads⟩
  case slot =>
    rintro s s1 n b f k x lim hx hreading hlive hawake hclock hfree hseg hstops hpace hlim hmore hk hdue hok s2 rfl
    have hsend : slotSend n (b2n b) f s = _ := (slotSend_of_awake (hx ▸ hreading) hlive hawake f).trans
      (sendNext_of_room hx ⟨hreading, hlive, hclock, hfree, hseg, hstops, hpace⟩ hlim hmore hk hdue hok)
    cases f
    case false | true => exact congrArg Host.Outcome.next hsend
  case bytes =>
    exact fun s n e hentry hexp hstate hlive hawake hclock hclosing hledger hmay hqueue hskip hfinal => congrArg Host.Outcome.next
      (exportSend_of_bytes hentry hexp hstate hlive hawake hclock hclosing hledger hmay hqueue hskip hfinal)
  case sweep => exact fun s0 s1 l hlive hread => congrArg Host.Outcome.next (mtSweep_of_read hlive hread)
  case close =>
    rintro s n new lost c segs s0 s1 s2 s3 s4 hresize hswap hlive hplace rfl hgroups hawake hended hlost hemptied hopened hgap
    exact congrArg Host.Outcome.next ((spoolClose_of_awake hresize hswap hlive hplace hgroups hawake).trans
      (closeSpool_of_steps hended hlost hemptied hopened hgap))
  case waits =>
    exact fun s n new c segs hresize hswap hlive hplace hgroups =>
      congrArg Host.Outcome.next (spoolClose_of_retained hresize hswap hlive hplace hgroups)
  case full =>
    exact fun s n new c hresize hswap hlive hplace => congrArg Host.Outcome.next (spoolClose_of_full hresize hswap hlive hplace)
  case reads =>
    intro s p n hreleased hreach
    exact ⟨congrArg Host.Outcome.next ((servedRead_of_released hreleased _).trans (latchRead_of_reach hreach _ _)),
      congrArg Host.Outcome.next ((servedRead_of_released hreleased _).trans (latchRead_of_reach hreach _ _))⟩

end Sys2Proof.Machine
end

section
/-! What every step keeps (R343, R553, R557): a step is a command or an idle cycle, and both keep what Ev says. -/
namespace Sys2Proof.Machine

/-- The idle cycle changes the timebase's count and the queue, and nothing that Ev speaks of (R264). -/
theorem ev_idleCycle (s : State) : Ev { s with pending := (idleCycle s).pending } (idleCycle s) := by
  unfold idleCycle
  split
  case isTrue => exact (Ev.refl _).same rfl rfl rfl rfl rfl
  case isFalse => exact Ev.refl s
/-- A step changes the queue, and keeps everything else that Ev says. -/
theorem ev_of_step {s t : State} (h : step s = .next t) : Ev { s with pending := t.pending } t := by
  unfold step at h
  split at h
  case h_1 =>
    cases h
    exact ev_idleCycle s
  case h_2 c rest hqueue =>
    obtain ⟨u, hnext, hev⟩ := exec_evolves c { s with pending := rest }
    cases hnext.symm.trans h
    exact (show t.pending = rest from hev.pending) ▸ hev
/-- What keeps Ev keeps the invariant of the part, which does not speak of the queue. -/
theorem Canonical.of_ev {s t : State} {l : List Instr} (hs : Canonical s) (h : Ev { s with pending := l } t) : Canonical t where
  mem := h.mem hs.mem
  regs := h.regs hs.regs
  sec := (h.fuse hs.sec).1

/-- Settles O3: each step keeps Ev, and so the invariant. -/
theorem stepKeepsCanonicalForm : Obligations.StepKeepsCanonicalForm :=
  fun _ _ hs hstep => hs.of_ev (ev_of_step hstep)

end Sys2Proof.Machine
end

section
/-! The banks of reel memory, their tests and their retention (R343–R364). -/
namespace Sys2Proof.Machine

variable {s : State}

/-! ## Slots and write-backs (R347, R353, R359) -/

/-- A bank of an awake group serves who is next, and its group enters retention where it may (R353, R363). -/
theorem accessBank_of_awake {b : Nat} (hlive : memLive s = true) (hclock : s.xng.stopped.contains 192 = false)
    (hawake : retained s (b / 16) = false) : accessBank b s = enterRet (b / 16) (serveNext b s) := by
  simp only [accessBank, hlive, hclock, hawake, Bool.not_true, Bool.or_self, Bool.false_eq_true, if_false]
/-- A word under test is served from its shadow, before the slot's turn and without one (R359). -/
theorem serveNext_of_shadow {b : Nat} {t : Turn} (hshadow : shadowTurn s b = some t) : serveNext b s = serveOne b t [] s := by
  simp only [serveNext, hshadow]
/-- Where the shadow serves none, the slot goes to the turn that is picked (R353). -/
theorem serveNext_of_pick {b : Nat} {t : Turn} (hshadow : shadowTurn s b = none) (hpick : pickSlot s b none = some t) :
    serveNext b s = serveTurn b t [] s := by
  simp only [serveNext, hshadow, hpick]
/-- The group of a bank (R341). -/
theorem bank_div (g b : Fin 16) : (16 * g.val + b.val) / 16 = g := by omega
/-- A bank serves who is next, then every lane writer that has been granted a slot writes (R342, R353). -/
theorem wordAccess_of_awake {g b : Fin 16} (hlive : memLive s = true) (hclock : s.xng.stopped.contains 192 = false)
    (hawake : retained s g = false) {s1 : State} (hs1 : s1 = enterRet g (serveNext (16 * g + b) s)) :
    wordAccess (16 * g + b) s = forEach (s1.lanes.map (·.1)) spendSlot s1 := by
  have hbank := accessBank_of_awake (b := 16 * g + b) hlive hclock ((bank_div g b).symm ▸ hawake)
  rw [bank_div, ← hs1] at hbank
  rw [wordAccess, hbank]
/-- The first word that waits at a bank is written back corrected (R347). -/
theorem writeBack_of_waiting {g b : Fin 16} {w : Nat} {rest : List Nat} (hwaits : s.memory.fixq.get [] (16 * g + b) = w :: rest)
    (hlive : memLive s = true) (hawake : s.memory.ret.contains g.val = false) :
    writeBack (16 * g + b) s = putReel w (trueData s w) s := by
  simp only [writeBack, hwaits, hlive, bank_div, hawake, Bool.not_true, Bool.or_self, Bool.false_eq_true, if_false]
/-- Initialisation leaves every word 0 without a recorded error, then writes the notifications held until then (R343, R358). -/
theorem initDone_of_uninitialised (h : s.memory.initDone = false) : initDone s =
    writeEarly { s with mem := [], memory := { s.memory with initDone := true, err := [], bgNext := 0 } } := by
  simp only [initDone, h, Bool.false_eq_true, if_false]

/-! ## Tests (R357, R358, R360, R362) -/

/-- Memory takes accesses once it is initialised, at its Run level (R343, R365). -/
theorem memLive_of_run (hinit : s.memory.initDone = true) (hlevel : s.memory.vret = false) : memLive s = true := by
  simp only [memLive, hinit, hlevel, Bool.not_false, Bool.and_self]
/-- The next region of the background order starts its test (R358). -/
theorem bgStart_of_due {n : Nat} (hon : bitOf (s.reg .memCtl 0) 31 = true) (hlive : memLive s = true) (hfree : s.memory.test = none)
    (hnext : bgRegion s 17 s.memory.bgNext = some n) : bgStart s = startRegion (n / 16 % 16) (n % 16) (n / 256) false
      (s.onMem (fun m => { m with bgNext := (n + 1) % 2097152 })) := by
  simp only [bgStart, hon, hlive, hfree, hnext, Option.isNone_none, Bool.and_self, if_true]
/-- A background region test that passes ends (R360). -/
theorem regionEnd_of_pass {t : RegionTest} (htest : s.memory.test = some t) (hreq : t.requested = false) : regionEnd false s =
    enterRet t.group (tallyN 4 t.group 3 192 (s.onMem (fun m => { m with test := none }))) := by
  simp only [regionEnd, htest, hreq, Bool.false_eq_true, if_false]
/-- A bank test whose group is awake starts its next region once the tester is free (R362, R363). -/
theorem bankTestNext_of_free {t : BankTest} (htest : s.memory.bankTest = some t) (hfree : s.memory.test = none)
    (hlive : memLive s = true) (hawake : s.memory.ret.contains t.group = false) (hmore : t.next < 8192) : bankTestNext s =
      startRegion t.group t.bank t.next true (s.onMem (fun m => { m with bankTest := some { t with next := t.next + 1 } })) := by
  simp only [bankTestNext, htest, hfree, hlive, hawake, hmore, Option.isNone_none, Bool.not_false, decide_true, Bool.and_self, if_true]

/-! ## Retention (R363, R364) -/

/-- A group that has been idle for 2^20 ticks may return to retention (R364). -/
theorem groupSleep_of_long {g : Nat} (hlong : 2 ^ 20 ≤ (s.now - s.memory.lastUse.get 0 g).toNat) : groupSleep g s = enterRet g s := by
  simp only [groupSleep, longIdle, decide_eq_true hlong, if_true]
/-- No bank of a group is found busy where nothing waits at any of them. -/
theorem find?_busy_of_quiet {g : Nat} (hquiet : ∀ b < 16, (bank s (16 * g + b)).reqs = []) :
    (List.range 16).find? (fun b => !(bank s (16 * g + b)).reqs.isEmpty) = none :=
  List.find?_eq_none.2 fun b hb => by simp [hquiet b (List.mem_range.1 hb)]
/-- A group that wakes with nothing to serve leaves retention (R364; log 34). -/
theorem groupWake_of_quiet {g : Nat} (hwaking : s.memory.waking.contains g = true) (hquiet : ∀ b < 16, (bank s (16 * g + b)).reqs = []) :
    groupWake g s = s.onMem (fun m =>
      { m with ret := removeNat g m.ret, waking := removeNat g m.waking, lastUse := m.lastUse.set 0 g s.now,
               woken := if bitOf (s.reg .memCtl 0) g then insertNat g m.woken else m.woken }) := by
  simp only [groupWake, hwaking, if_true]
  rw [find?_busy_of_quiet]
  exact hquiet

/-- Settles O23: a slot, a test's step and a change of retention, each under the condition of its rule. -/
theorem memoryBanks : Obligations.MemoryBanks := by
  intro s
  refine ⟨?slot, ?shadow, ?writeBack, ?init, ?background, ?regionEnd, ?bankTest, ?sleep, ?wake⟩
  case slot =>
    rintro g b t s1 hlive hclock hawake hshadow hpick rfl
    exact congrArg Host.Outcome.next
      (wordAccess_of_awake hlive hclock hawake (congrArg (enterRet g) (serveNext_of_pick hshadow hpick).symm))
  case shadow =>
    rintro g b t s1 hlive hclock hawake hshadow rfl
    exact congrArg Host.Outcome.next
      (wordAccess_of_awake hlive hclock hawake (congrArg (enterRet g) (serveNext_of_shadow hshadow).symm))
  case writeBack =>
    exact fun g b w rest hwaits hlive hawake => congrArg Host.Outcome.next (writeBack_of_waiting hwaits hlive hawake)
  case init =>
    exact fun h => ⟨{ s with mem := [], memory := { s.memory with initDone := true, err := [], bgNext := 0 } }, rfl, rfl, rfl, rfl, rfl,
      congrArg Host.Outcome.next (initDone_of_uninitialised h)⟩
  case background =>
    exact fun n hon hinit hlevel hfree hnext =>
      congrArg Host.Outcome.next (bgStart_of_due hon (memLive_of_run hinit hlevel) hfree hnext)
  case regionEnd => exact fun t htest hreq => congrArg Host.Outcome.next (regionEnd_of_pass htest hreq)
  case bankTest =>
    exact fun t htest hfree hlive hawake hmore => congrArg Host.Outcome.next (bankTestNext_of_free htest hfree hlive hawake hmore)
  case sleep => exact fun g hlong => congrArg Host.Outcome.next (groupSleep_of_long hlong)
  case wake =>
    exact fun g hwaking hquiet => congrArg Host.Outcome.next (groupWake_of_quiet hwaking fun b _ => hquiet b)

end Sys2Proof.Machine
end

section
/-! The commands of the MEM block, and its counters as their crossing gives them (R354, R362, R369–R376). -/
namespace Sys2Proof.Machine

variable {s : State}

/-- A write or a command of the owner (R19, R509). -/
theorem served_ownerOnly (hreleased : beforeRelease s = false) (act : State → State) : served (ownerOnly 0 act) s = act s :=
  served_of_released hreleased (if_pos rfl)
/-- A bank test starts where none runs and the group is awake (R362, R370). -/
theorem bankTestStart_of_awake {g b : Nat} {t : BankTest} (hfree : s.memory.bankTest = none) (hlevel : s.memory.vret = false)
    (hawake : s.memory.ret.contains g = false) (ht : t = { group := g, bank := b, next := 0, fails := 0, done := 0 }) :
    bankTestStart g b s = (((wakeIsl 3 0 s).onMem (fun m => { m with bankTest := some t })).setReg .memTestStat 0
      (testStat t true stOk)).stat stOk := by
  simp only [bankTestStart, retained, hfree, hlevel, hawake, ← ht, Option.isSome_none, Bool.or_self, Bool.false_eq_true, if_false]
/-- STOP ends the bank test that runs with STALE (R370). -/
theorem bankTestStop_of_test {t : BankTest} (htest : s.memory.bankTest = some t) :
    bankTestStop s = (bankTestEnd t stStale s).stat stOk := by
  simp only [bankTestStop, htest]
/-- A read of MEM_CONF_LO by a port that may (R367, R376, R384). -/
theorem confRead_of_may {p m : Nat} (hmay : p = 0 ∨ m = 80 + p) : confRead p m s =
    ((wakeIsl 3 0 s).setRegP p .memConfHi m 0 ((accepted s 3 0).getD (2 * m + 1) 0)).finish
      (if unstable s 3 0 then stFault else stOk) [(accepted s 3 0).getD (2 * m) 0] :=
  if_pos hmay
/-- In a list of pairs laid end to end, the two halves of pair `k` stand at `2k` and `2k + 1`. -/
theorem getElem?_flatMap_pair {α β : Type} (f g : α → β) (l : List α) (k : Nat) :
    (l.flatMap (fun x => [f x, g x]))[2 * k]? = l[k]?.map f ∧ (l.flatMap (fun x => [f x, g x]))[2 * k + 1]? = l[k]?.map g := by
  induction l generalizing k with
  | nil => simp
  | cons x t ih =>
    cases k with
    | zero => simp
    | succ k => exact ih k
/-- The two halves of a master's conflict counter among the words of reel memory's crossing (R376; log 13). -/
theorem xingWords_conf (s : State) (m : Fin 88) :
    (xingWords s 3 0).getD (2 * m) 0 = (s.memory.conf.get 0 m).setWidth 32 ∧
    (xingWords s 3 0).getD (2 * m + 1) 0 = ((s.memory.conf.get 0 m) >>> 32).setWidth 32 := by
  obtain ⟨hlo, hhi⟩ := getElem?_flatMap_pair (fun m => (s.memory.conf.get 0 m).setWidth 32)
    (fun m => ((s.memory.conf.get 0 m) >>> 32).setWidth 32) (List.range 88) m
  rw [List.getElem?_range m.isLt] at hlo hhi
  exact ⟨congrArg (·.getD 0) hlo, congrArg (·.getD 0) hhi⟩

/-- Settles O24: after release the owner's commands act, and a read gives the counter's halves as the crossing has them. -/
theorem memoryCommands : Obligations.MemoryCommands := by
  intro s hreleased
  refine ⟨?start, ?stop, ?ctl, ?conf⟩
  case start =>
    exact fun g b t hfree hlevel hawake ht => congrArg Host.Outcome.next
      ((served_ownerOnly hreleased _).trans (bankTestStart_of_awake hfree hlevel hawake ht))
  case stop =>
    exact fun t htest => congrArg Host.Outcome.next ((served_ownerOnly hreleased _).trans (bankTestStop_of_test htest))
  case ctl => exact fun v => congrArg Host.Outcome.next (served_ownerOnly hreleased _)
  case conf =>
    rintro p m l hmay rfl
    refine ⟨?read, ?counter⟩
    case read =>
      exact congrArg Host.Outcome.next ((servedRead_of_released hreleased _).trans (confRead_of_may (hmay.imp_left (congrArg Fin.val))))
    case counter =>
      intro hagree
      rw [accepted_of_agree hagree]
      exact xingWords_conf s m

end Sys2Proof.Machine
end

section
/-! Crossings: unstable values, pulses, and the clocks of islands (R384–R392). -/
namespace Sys2Proof.Machine

variable {s : State} {k : Nat}

/-! ## Value crossings (R384) -/

/-- A value crossing whose samples have agreed so far reports their eighth disagreement (R384). -/
theorem xingUnstable_of_agreed (hvalue : keyKind k = 1) (hagreed : (xing s k).unstable = false) : xingUnstable k s =
    notifyOwner 0x67 0 (xingItems k) (xingLast 0 k ((s.setXing k { xing s k with
      unstable := true, last := if (xing s k).absent then (xing s k).last else xingWords s (keyIsl k) (keyIdx k) }).bump
        .fabXingUnstable 0 1)) := by
  simp only [xingUnstable, hvalue, hagreed, Bool.not_false, and_self, if_true]

/-! ## Pulse crossings (R386–R388; log 13) -/

/-- An arrival at a pulse crossing. -/
theorem pulseArrive_of_pulse {x : XId} (hpulse : x.kind = 2) : pulseArrive x s = pulseIn (xidKey x) s := if_pos hpulse
/-- The end of a delivery at a pulse crossing. -/
theorem pulseComplete_of_pulse {x : XId} (hpulse : x.kind = 2) : pulseComplete x s = pulseDone (xidKey x) s := if_pos hpulse
/-- A pulse that meets an absent crossing is discarded (R392). -/
theorem pulseIn_of_absent (habsent : (xing s k).absent = true) : pulseIn k s = s := if_pos habsent
/-- A pulse for a stopped island wakes it and is held, unless the island counts the tick itself (R388). -/
theorem pulseIn_of_stopped (hpresent : (xing s k).absent = false) (hstopped : toStopped s k = true) :
    pulseIn k s = if tickPulse k then s else holdPulse k (wakeIsl (keyIsl k) (keyIdx k) s) := by
  simp only [pulseIn, hpresent, hstopped, Bool.false_eq_true, if_false, if_true]
/-- A pulse that finds its crossing idle is delivered (R386, R388). -/
theorem pulseIn_of_idle (hpresent : (xing s k).absent = false) (hruns : toStopped s k = false) (hidle : (xing s k).busy = false)
    (hnone : (xing s k).pending = 0) : pulseIn k s = deliverPulse k (s.setXing k { xing s k with busy := true }) := by
  simp only [pulseIn, hpresent, hruns, hidle, hnone, Bool.false_eq_true, if_false, Bool.not_false, beq_self_eq_true, Bool.and_self,
    if_true]
/-- A pulse that finds a delivery under way, or another pulse waiting, is held (R386, R388). -/
theorem pulseIn_of_engaged (hpresent : (xing s k).absent = false) (hruns : toStopped s k = false)
    (hengaged : (xing s k).busy = true ∨ (xing s k).pending ≠ 0) : pulseIn k s = holdPulse k s := by
  have hnotIdle : (!(xing s k).busy && (xing s k).pending == 0) = false := by
    rcases hengaged with hbusy | hpending
    · rw [hbusy, Bool.not_true, Bool.false_and]
    · rw [beq_false_of_ne hpending, Bool.and_false]
  simp only [pulseIn, hpresent, hruns, hnotIdle, Bool.false_eq_true, if_false]
/-- The end of the last delivery leaves the crossing idle (R386); a pin's crossing is apart, as its delivery waits for the gateway. -/
theorem pulseDone_of_last (hpin : xingPin k = none) (hbusy : (xing s k).busy = true) (hnone : (xing s k).pending = 0) :
    pulseDone k s = s.setXing k { xing s k with busy := false } := by
  simp only [pulseDone, hpin, hbusy, hnone, beq_self_eq_true, Bool.and_self, if_true]
/-- The end of a delivery delivers the next pulse that waits, whose taking may end the overrun (R386, R387). -/
theorem pulseDone_of_waiting (hpin : xingPin k = none) (hwaiting : (xing s k).pending ≠ 0) :
    pulseDone k s = deliverPulse k (s.setXing k
      { xing s k with busy := true, pending := (xing s k).pending - 1, overrun := (xing s k).overrun && (xing s k).pending != 1 }) := by
  simp only [pulseDone, hpin, beq_false_of_ne hwaiting, bne_iff_ne.2 hwaiting, Bool.and_true, Bool.and_false, Bool.or_true,
    Bool.false_eq_true, if_false, if_true]

/-! ## Clock stop and wake (R389–R392) -/

/-- The clock of an island with nothing to do stops (R389). -/
theorem clockStop_of_idle {i : Isl} (hidle : islandIdle s i.code.val i.index.val = true) :
    clockStop i s = { s with xng := { s.xng with stopped := insertNat (islNum i) s.xng.stopped } } := if_pos hidle
/-- What is left in a set from which a number was removed. -/
theorem mem_removeNat {n m : Nat} {l : List Nat} : n ∈ removeNat m l ↔ n ∈ l ∧ n ≠ m := by
  simp only [removeNat, List.mem_filter, bne_iff_ne]
/-- The crossings of an island that is out of reset are present again (R392). -/
theorem crossingPresent_of_released {i : Isl} (hreleased : inReset s i = false) : crossingPresent i s =
    forEach s.xng.xings (fun e s => if keyIsl e.1 = i.code.val ∧ keyIdx e.1 = i.index.val
      then s.setXing e.1 { e.2 with absent := false, last := if e.2.unstable then e.2.last else [] } else s) s := by
  simp only [crossingPresent, hreleased, Bool.false_eq_true, if_false]

/-- Settles O25: an event at a crossing acts by the state that the crossing and its island are in. -/
theorem crossingEvents : Obligations.CrossingEvents := by
  intro s
  refine ⟨?unstable, ?pulse, ?stop, ?wake, ?present⟩
  case unstable => exact fun x hvalue hagreed => congrArg Host.Outcome.next (xingUnstable_of_agreed hvalue hagreed)
  case pulse =>
    rintro x k hpulse rfl
    have arrives {t : State} (h : pulseIn (xidKey x) s = t) : exec (.pulseArrival x) s = .next t :=
      congrArg Host.Outcome.next ((pulseArrive_of_pulse hpulse).trans h)
    have completes {t : State} (h : pulseDone (xidKey x) s = t) : exec (.pulseDeliveryDone x) s = .next t :=
      congrArg Host.Outcome.next ((pulseComplete_of_pulse hpulse).trans h)
    refine ⟨?absent, ?idle, ?engaged, ?stopped, ?last, ?waiting⟩
    case absent => exact fun habsent => arrives (pulseIn_of_absent habsent)
    case idle => exact fun hpresent hruns hidle hnone => arrives (pulseIn_of_idle hpresent hruns hidle hnone)
    case engaged => exact fun hpresent hruns hengaged => arrives (pulseIn_of_engaged hpresent hruns hengaged)
    case stopped => exact fun hpresent hstopped => arrives (pulseIn_of_stopped hpresent hstopped)
    case last => exact fun hpin hbusy hnone => completes (pulseDone_of_last hpin hbusy hnone)
    case waiting => exact fun hpin hwaiting => completes (pulseDone_of_waiting hpin hwaiting)
  case stop => exact fun i hidle => congrArg Host.Outcome.next (clockStop_of_idle hidle)
  case wake =>
    exact fun i => ⟨wakeIsland i s, rfl, fun hstill => (mem_removeNat.1 hstill).2 rfl, rfl,
      fun k hstopped hother => mem_removeNat.2 ⟨hstopped, hother⟩⟩
  case present => exact fun i hreleased => congrArg Host.Outcome.next (crossingPresent_of_released hreleased)

end Sys2Proof.Machine
end

section
/-! Pins as hosts command them (R408–R428): every command is served after release, and acts once its checks pass. -/
namespace Sys2Proof.Machine

/-! ## Checks that pass -/

/-- A check that passes leaves the decision to those after it. -/
theorem firstBad_cons_of_ok {x : Status} {l : List Status} (hx : x = stOk) (hl : firstBad l = stOk) : firstBad (x :: l) = stOk :=
  (if_pos hx).trans hl
/-- An authority that is given passes its check. -/
theorem allow_of_true {b : Bool} (h : b = true) : allow b = stOk := if_pos h
/-- A condition that holds passes its check. -/
theorem within_of_true {b : Bool} (h : b = true) : within b = stOk := if_pos h
/-- A target that is not in use passes its check. -/
theorem busyIf_of_false {b : Bool} (h : b = false) : busyIf b = stOk := by rw [h]; rfl

/-- After release a command whose one check passes acts and completes with OK (R19, R509). -/
theorem served_checked {s : State} (hreleased : beforeRelease s = false) {st : Status} (hok : st = stOk) (act : State → State) :
    served (checked [st] act) s = (act s).stat stOk :=
  served_of_released hreleased (checked_of_ok (firstBad_cons_of_ok hok rfl) act s)
/-- After release a host that may reach a bank gives its output or direction bits a value, with TORN where that would change a parked
pin's (R417, R428). -/
theorem served_hostOut {s : State} {p b : Nat} (hreleased : beforeRelease s = false) (hallow : bankAllow s p b = stOk) (r : Reg)
    (hi : Bool) (f : Word → Word) : served (hostOut r p b hi f) s =
      (putHostOut r b hi (f (s.regP 0 r b (b2n hi))) (wakeIsl 4 b s)).stat (hostOutTorn s r b hi (f (s.regP 0 r b (b2n hi)))) :=
  served_of_released hreleased (if_pos (firstBad_cons_of_ok hallow rfl))

/-- Settles O37: each command is served after release, and its check passes; the four commands of the output bits and that of the
directions are one rule, each with its own function of the bits before. -/
theorem pinCommands : Obligations.PinCommands := by
  intro s p v hreleased
  refine ⟨?cfg, ?bankCfg, ?evt, ?arm, fun b hi hallow => ⟨?clear, ?out, ?dir, ?bits⟩⟩
  case cfg => exact fun k hok => congrArg Host.Outcome.next (served_checked hreleased hok _)
  case bankCfg =>
    exact fun b hok => congrArg Host.Outcome.next
      ((served_ownerOnly hreleased _).trans (checked_of_ok (firstBad_cons_of_ok (within_of_true hok) rfl) _ s))
  case evt => exact fun k hok => congrArg Host.Outcome.next (served_checked hreleased hok _)
  case arm => exact fun k hallow => congrArg Host.Outcome.next (served_checked hreleased hallow _)
  case clear => exact congrArg Host.Outcome.next (served_checked hreleased hallow _)
  case out => exact congrArg Host.Outcome.next (served_hostOut hreleased hallow .pinOut hi fun _ => v)
  case dir => exact congrArg Host.Outcome.next (served_hostOut hreleased hallow .pinDir hi fun _ => v)
  case bits =>
    rintro o rfl
    exact ⟨congrArg Host.Outcome.next (served_hostOut hreleased hallow .pinOut hi fun o => o ||| v),
      congrArg Host.Outcome.next (served_hostOut hreleased hallow .pinOut hi fun o => o &&& ~~~v),
      congrArg Host.Outcome.next (served_hostOut hreleased hallow .pinOut hi fun o => o ^^^ v)⟩

end Sys2Proof.Machine
end

section
/-! Pins as their levels and banks change (R407, R420–R425). -/
namespace Sys2Proof.Machine

variable {s s1 : State} {k b : Nat}

/-! ## Supplies and levels (R407, R420–R424) -/

/-- VIOB lost is recorded and, unless every pin of the bank is parked, raised (R407). -/
theorem viobLost_of_present (hviob : viobOk s b = true) (h1 : s1 = s.onPins (fun x => { x with viobOk := removeNat b x.viobOk })) :
    viobLost b s = if (bankPins b).all (fun p => pinFunc s1 p == 7) then s1 else notify 0xB3 (bankDom s1 b).val [w32 b] s1 := by
  subst h1
  simp only [viobLost, hviob, if_true]
/-- Before I/O release the return of VIOB is recorded, and no pin switches (R407, R416). -/
theorem viobBack_of_unreleased (hlost : viobOk s b = false) (hunreleased : s.fab.released = false) :
    viobBack b s = s.onPins (fun x => { x with viobOk := insertNat b x.viobOk }) := by
  simp only [viobBack, hlost, State.onPins_fab, hunreleased, Bool.false_eq_true, if_false]
/-- An accepted level that is the event of a detector at work fires it (R421, R422). -/
theorem acceptLevel_of_edge {l : Bool} (hviob : viobOk s (bankOfPin k) = true) (hfunc : pinFunc s k ≠ 7)
    (h1 : s1 = (wakeIsl 4 (bankOfPin k) s).setPin k { pinSt s k with level := l })
    (hedge : edgeEvent (evtMode s1 k) (pinSt s k).level l = true) (hdetects : detects s1 k = true) :
    acceptLevel k l s = firePin k s1 := by
  subst h1
  simp only [acceptLevel, hviob, hfunc, hedge, hdetects, Bool.not_true, decide_false, Bool.or_self, Bool.and_self, Bool.false_eq_true,
    if_false, if_true]
/-- A wake event of a pin in Doze wakes the part and sets PEND (R420, R583). -/
theorem pinWake_of_doze {l : Bool} (hdoze : s.pwr.state = 2) (hevent : wakeEvent k l s = true) :
    pinWake k l s = setPend k (wakeBy 2 k
      (s.setPin k { pinSt s k with level := l, armed := (pinSt s k).armed && decide (evtMode s k < 4) })) := by
  simp only [pinWake, hdoze, hevent, beq_self_eq_true, Bool.true_or, Bool.and_self, if_true]

/-! ## Event packets (R425) -/

/-- The level that a delivery in a detector's mode carries (R425). -/
def deliveredLevel (mode : Nat) (x : PinSt) : Bool :=
  if mode = 1 ∨ mode = 4 then true
  else if mode = 2 ∨ mode = 5 then false
  else if x.ovr || x.resample then x.level
  else !x.evLevel
/-- A rising edge and a high level are delivered as high. -/
theorem deliveredLevel_of_high {mode : Nat} (hmode : mode = 1 ∨ mode = 4) (x : PinSt) : deliveredLevel mode x = true := if_pos hmode
/-- A falling edge and a low level are delivered as low. -/
theorem deliveredLevel_of_low {mode : Nat} (hmode : mode = 2 ∨ mode = 5) (x : PinSt) : deliveredLevel mode x = false := by
  rcases hmode with rfl | rfl
  all_goals rfl
/-- An edge of either kind turns the level delivered before it, where none was lost between. -/
theorem deliveredLevel_of_either {x : PinSt} (hovr : x.ovr = false) (hresample : x.resample = false) :
    deliveredLevel 3 x = !x.evLevel := by
  simp [deliveredLevel, hovr, hresample]

/-- The packet of a pin's delivery under the detector word `e` (R425). -/
def pinEventPacket (s : State) (k : Nat) (e : Word) : Packet :=
  { dest := BitVec.ofNat 16 (fld e 11 0), slot := BitVec.ofNat 5 (fld e 21 17), op := 0, tag := 0,
    src := BitVec.ofNat 16 (0x1050 + bankOfPin k), status := 0, dom := bankDom s (bankOfPin k), vc := false,
    words := [w32 (place 29 3 (fld e 31 29) + place 28 1 (b2n (deliveredLevel (fld e 31 29) (pinSt s k))) +
      place 27 1 (b2n (pinSt s k).ovr) + k)] }
/-- The pin after that delivery. -/
def deliveredPin (e : Word) (x : PinSt) : PinSt :=
  { x with pulses := x.pulses - 1, oldEvts := x.oldEvts.drop 1, ovr := false, resample := false,
           evLevel := deliveredLevel (fld e 31 29) x }
/-- A pending delivery is sent while the bank's gateway and the core may, under the detector's word at its event (R424, R425). -/
theorem pinSend_of_pending {e : Word} (hpulses : 0 < (pinSt s k).pulses) (hlive : coreLive s = true) (hawake : s.pins.asleep = false)
    (hfree : gateFree s (portOf s (.pin (bankOfPin k)) 0) (bankDom s (bankOfPin k)) = true)
    (he : e = (pinSt s k).oldEvts.headD (pinEvt s k)) :
    pinSend k s = queueOut (portOf s (.pin (bankOfPin k)) 0) (pinEventPacket s k e) (s.setPin k (deliveredPin e (pinSt s k))) := by
  subst he
  simp only [pinSend, hpulses, hlive, hawake, hfree, Bool.not_false, and_self, if_true]
  rfl

/-- Settles O38: each event of a pin or its bank under the condition of its rule; the word of a delivery carries the mode, and the level
that the mode and the delivery before it give. -/
theorem pinEvents : Obligations.PinEvents := by
  intro s
  refine ⟨?lost, ?back, ?accept, ?wake, ?send⟩
  case lost => exact fun b hviob _ => ⟨_, rfl, congrArg Host.Outcome.next (viobLost_of_present hviob rfl)⟩
  case back => exact fun b hlost hunreleased => congrArg Host.Outcome.next (viobBack_of_unreleased hlost hunreleased)
  case accept =>
    exact fun k l hviob hfunc s1 h1 hedge hdetects =>
      congrArg Host.Outcome.next (acceptLevel_of_edge hviob hfunc h1 hedge hdetects)
  case wake => exact fun k l hdoze hevent => congrArg Host.Outcome.next (pinWake_of_doze hdoze hevent)
  case send =>
    intro k e hpulses hlive hawake hfree he
    have hpin : pinSt (s.setPin k (deliveredPin e (pinSt s k))) k = deliveredPin e (pinSt s k) := by rw [pinSt_setPin, if_pos rfl]
    refine ⟨s.setPin k (deliveredPin e (pinSt s k)), pinEventPacket s k e,
      congrArg Host.Outcome.next (pinSend_of_pending hpulses hlive hawake hfree he), ?_⟩
    rw [hpin]
    refine ⟨rfl, rfl, rfl, rfl, ?high, ?low, ?either, rfl, rfl, rfl, rfl⟩
    case high => exact fun hmode => deliveredLevel_of_high hmode _
    case low => exact fun hmode => deliveredLevel_of_low hmode _
    case either =>
      intro hmode hovr hresample
      rw [← deliveredLevel_of_either hovr hresample, ← hmode]
      rfl

end Sys2Proof.Machine
end

section
/-! The pin gateways (R429, R430): a request whose checks pass is taken, and its row's action is done. -/
namespace Sys2Proof.Machine

section
variable {s s1 : State} {b : Fin 8} {d : Fin 4} {p : Packet} (hready : GateReady s b d p)
  (h1 : s1 = takeHead (portOf s (.pin b) 0) d s)
include hready h1

/-- A gateway takes the request that it serves next, and does what the request's row does once no check stops it (R429, R430). -/
theorem gateServe_of_ok {mine : Packet → Bool} {l : Packet → State → List Status} {act : Packet → State → State} (hmine : mine p = true)
    (hok : firstBad (l p s1) = stOk) : gateServe b d mine (fun p s => gateChecked p (l p s) (act p) s) s = act p s1 := by
  obtain ⟨hfirst, rfl⟩ := hready
  subst h1
  simp only [gateServe, hfirst, hmine, decide_true, Bool.and_self, if_true, gateChecked, hok]

/-- The same of a row whose one check is the request's length. -/
theorem gateServe_of_length {mine : Packet → Bool} {n : Nat} {act : Packet → State → State} (hmine : mine p = true)
    (hlength : p.words.length = n) :
    gateServe b d mine (fun p s => gateChecked p [within (p.words.length == n)] (act p) s) s = act p s1 :=
  gateServe_of_ok hready h1 hmine (firstBad_cons_of_ok (within_of_true (beq_iff_eq.2 hlength)) rfl)
end

/-- The checks of a unit's row: that its domain reaches the unit, and its length, before those of the unit itself (R430). -/
theorem firstBad_unit_of_ok {reach : Bool} {p : Packet} {n : Nat} {l : List Status} (hreach : reach = true) (hlength : p.words.length = n)
    (hl : firstBad l = stOk) : firstBad (allow reach :: within (p.words.length == n) :: l) = stOk :=
  firstBad_cons_of_ok (allow_of_true hreach) (firstBad_cons_of_ok (within_of_true (beq_iff_eq.2 hlength)) hl)

/-- Settles O39: every row is one rule, each with its own requests, checks and action. -/
theorem pinGateways : Obligations.PinGateways := by
  intro s s1 b d p hready h1
  refine ⟨?pinsRead, ?pinsWrite, ?oeRead, ?oeWrite, ?rearm, fun c hc hreach => ?pwm, fun u hu hreach => ?spi,
    fun u hu hreach => ?i2c⟩
  case pinsRead =>
    intro hop hsel hlength
    exact congrArg Host.Outcome.next (gateServe_of_ok hready h1 (by simp [hop, hsel])
      (firstBad_cons_of_ok (within_of_true (by simp [hsel, hlength])) rfl))
  case pinsWrite =>
    intro hop hsel hlength
    exact congrArg Host.Outcome.next (gateServe_of_ok hready h1 (by simp [hop, hsel])
      (firstBad_cons_of_ok (within_of_true (by simp [hsel, hlength])) rfl))
  case oeRead => exact fun hmine hlength => congrArg Host.Outcome.next (gateServe_of_length hready h1 hmine hlength)
  case oeWrite => exact fun hmine hlength => congrArg Host.Outcome.next (gateServe_of_length hready h1 hmine hlength)
  case rearm => exact fun hmine hlength => congrArg Host.Outcome.next (gateServe_of_length hready h1 hmine hlength)
  case pwm =>
    subst hc
    refine ⟨fun hmine hlength => ?read, fun hmine hlength hfabric => ?write⟩
    case read => exact congrArg Host.Outcome.next (gateServe_of_ok hready h1 hmine (firstBad_unit_of_ok hreach hlength rfl))
    case write =>
      have hfree : firstBad [busyIf (!bitOf (s1.reg .pwmCfg (selOfReq p - 16)) 28)] = stOk := by rw [hfabric]; rfl
      exact congrArg Host.Outcome.next (gateServe_of_ok hready h1 hmine (firstBad_unit_of_ok hreach hlength hfree))
  case spi =>
    subst hu
    refine ⟨fun hmine hlength => ?read, fun hmine hlength hrange hfree => ?write⟩
    case read => exact congrArg Host.Outcome.next (gateServe_of_ok hready h1 hmine (firstBad_unit_of_ok hreach hlength rfl))
    case write =>
      exact congrArg Host.Outcome.next (gateServe_of_ok hready h1 hmine
        (firstBad_unit_of_ok hreach hlength (firstBad_cons_of_ok hrange (firstBad_cons_of_ok hfree rfl))))
  case i2c =>
    subst hu
    refine ⟨fun hmine hlength => ?read, fun hmine hlength hrange hfree => ?write⟩
    case read => exact congrArg Host.Outcome.next (gateServe_of_ok hready h1 hmine (firstBad_unit_of_ok hreach hlength rfl))
    case write =>
      exact congrArg Host.Outcome.next (gateServe_of_ok hready h1 hmine
        (firstBad_unit_of_ok hreach hlength (firstBad_cons_of_ok hrange (firstBad_cons_of_ok hfree rfl))))

end Sys2Proof.Machine
end

section
/-! The units of a pin bank: PWM channels, SPI and I²C transfers (R407, R415, R432–R436, R443, R444). -/
namespace Sys2Proof.Machine

variable {s : State}

/-! ## Commands (R432, R433, R435) -/

/-- A running channel of a part that is awake takes its shadows at the boundary (R432). -/
theorem pwmBoundary_of_running {c : Nat} (hrunning : (pwm s c).running = true) (hawake : s.pins.asleep = false) :
    pwmBoundary c s = pwmBegin c s := by
  simp only [pwmBoundary, hrunning, hawake, Bool.not_false, Bool.and_self, if_true]
/-- SPI_CMD with GO starts a transfer once its checks pass (R433, R434). -/
theorem spiCmd_of_go {p u : Nat} {v : Word} (hgo : bitOf v 31 = true) (hreach : unitReach s p 5 u = true)
    (hrange : spiRange s u v = stOk) (hfree : spiBusy s u false = stOk) : spiCmd p u v s = (spiStart u v none s).stat stOk :=
  (if_pos hgo).trans (checked_of_ok (firstBad_cons_of_ok (allow_of_true hreach)
    (firstBad_cons_of_ok hrange (firstBad_cons_of_ok hfree rfl))) _ s)
/-- I2C_CMD with GO starts a transfer once its checks pass (R435). -/
theorem i2cCmd_of_go {p u : Nat} {v : Word} (hgo : bitOf v 31 = true) (hreach : unitReach s p 6 u = true)
    (hrange : i2cRange v = stOk) (hfree : i2cBusy s u false = stOk) : i2cCmd p u v s = (i2cStart u v none s).stat stOk :=
  (if_pos hgo).trans (checked_of_ok (firstBad_cons_of_ok (allow_of_true hreach)
    (firstBad_cons_of_ok hrange (firstBad_cons_of_ok hfree rfl))) _ s)

/-! ## What a transfer receives (R407, R411, R415) -/

section
variable {f u r : Nat} {t : XferSt}

/-- A pin that still has the role gives the transfer its bytes. -/
theorem received_of_live (hlive : roleDead s f u r = false) (n : Nat) (rx : List Byte) : received s f u r t n rx = takeBytes n rx := by
  simp only [received, hlive, Bool.not_false, if_true]
/-- A transfer whose input no pin had from its start receives zeros. -/
theorem received_of_deaf (hdead : roleDead s f u r = true) (hdeaf : t.deaf = true) (n : Nat) (rx : List Byte) :
    received s f u r t n rx = List.replicate n 0 := by
  simp only [received, hdead, hdeaf, Bool.not_true, Bool.false_eq_true, if_false, if_true]
/-- A transfer whose pin has left receives the pin's last level from some byte on. -/
theorem received_of_left (hdead : roleDead s f u r = true) (hheard : t.deaf = false) (n : Nat) (rx : List Byte) :
    ∃ k, k ≤ n ∧ received s f u r t n rx =
      takeBytes k rx ++ List.replicate (n - k) (if t.held.getD false then 0xFF else 0) := by
  refine ⟨(s.freeAt 0).toNat % (n + 1), Nat.le_of_lt_succ (Nat.mod_lt _ n.succ_pos), ?_⟩
  simp only [received, hdead, hheard, Bool.not_true, Bool.false_eq_true, if_false]
end

/-! ## The end of a host's transfer (R433, R435) -/

/-- The end of a host's SPI transfer that leaves its select high stores what was received (R433). -/
theorem spiEnd_of_host {u : Nat} {rx : List Byte} {t : XferSt} (hfind : s.pins.spi.find u = some t) (hhost : t.fabric = none)
    (hkept : t.discard = false) (hselect : bitOf t.ctl 30 = false) : spiEnd u rx s =
      xferDone 5 0 u stOk 0 ((putBytesData .spiData u 16 (received s 5 u 2 t (fld t.ctl 6 0) rx)
        (s.nextFree.onPins (fun x => { x with spi := x.spi.erase u }))).setReg .spiStat u 0x40000000) := by
  simp only [spiEnd, hfind, hhost, hkept, hselect, Bool.false_eq_true, if_false]
  rfl

/-- The fields of I2C_STAT, each at its place (R435). -/
theorem i2cStat_fields {n cause : Nat} (hn : n < 64) (hcause : cause < 16) (st : Status) :
    place 30 1 1 + place 16 6 n + place 8 4 cause + st.toNat = 0x40000000 + 0x10000 * n + 0x100 * cause + st.toNat := by
  rw [place_of_lt (n := 6) hn, place_of_lt (n := 4) hcause, place_of_lt (n := 1) one_lt_two]
  omega

section
variable {s1 : State} {u n : Nat} {rx : List Byte} {t : XferSt} (hfind : s.pins.i2c.find u = some t) (hhost : t.fabric = none)
  (hkept : t.discard = false) (h1 : s1 = s.nextFree.onPins (fun x => { x with i2c := x.i2c.erase u })) (hn : n < 64)
include hfind hhost hkept h1 hn

/-- A host's I²C transfer that ends without a cause stores what was received (R435). -/
theorem i2cEnd_of_clean : i2cEnd u 0 n rx s = xferDone 6 1 u stOk 0
    ((putBytesData .i2cData u 8 (received s 6 u 1 t (if bitOf t.ctl 30 then fld t.ctl 11 6 else 0) rx) s1).setReg .i2cStat u
      (w32 (0x40000000 + 0x10000 * n))) := by
  subst h1
  simp only [i2cEnd, hfind, hhost, hkept, if_true, Bool.false_eq_true, if_false, i2cStat_fields hn (show 0 < 16 by decide)]
  rfl
/-- A host's I²C transfer that ends with a cause stores the cause alone (R435). -/
theorem i2cEnd_of_cause {cause : Nat} (hcause : cause ≠ 0) (hlt : cause < 16) : i2cEnd u cause n rx s = xferDone 6 1 u stFault cause
    (s1.setReg .i2cStat u (w32 (0x40000000 + 0x10000 * n + 0x100 * cause + stFault.toNat))) := by
  subst h1
  simp only [i2cEnd, hfind, hhost, hkept, hcause, Bool.false_eq_true, if_false, i2cStat_fields hn hlt]
end

/-- Settles O40: each command and event of a unit under the condition of its rule; a stretch timeout is the end with cause 4. -/
theorem pinUnits : Obligations.PinUnits := by
  intro s
  refine ⟨?boundary, fun p v hreleased => ⟨fun c hreach => ⟨?pwmCfg, ?duty, ?period⟩, ?spiStart, ?i2cStart⟩,
    fun f u r n t rx => ⟨?live, ?deaf, ?left⟩, ?spiEnd, fun u n rx t s1 hfind hhost hkept h1 => ⟨?clean, ?cause, ?stretch⟩⟩
  case boundary => exact fun c hrunning hawake => congrArg Host.Outcome.next (pwmBoundary_of_running hrunning hawake)
  case pwmCfg => exact congrArg Host.Outcome.next (served_checked hreleased (allow_of_true hreach) _)
  case duty =>
    exact fun hhost => congrArg Host.Outcome.next (served_of_released hreleased (checked_of_ok
      (firstBad_cons_of_ok (allow_of_true hreach) (firstBad_cons_of_ok (busyIf_of_false hhost) rfl)) _ s))
  case period =>
    exact fun hvalue => congrArg Host.Outcome.next (served_of_released hreleased (checked_of_ok
      (firstBad_cons_of_ok (allow_of_true hreach) (firstBad_cons_of_ok (within_of_true hvalue) rfl)) _ s))
  case spiStart =>
    exact fun u hgo hreach hrange hfree =>
      congrArg Host.Outcome.next (served_of_released hreleased (spiCmd_of_go hgo hreach hrange hfree))
  case i2cStart =>
    exact fun u hgo hreach hrange hfree =>
      congrArg Host.Outcome.next (served_of_released hreleased (i2cCmd_of_go hgo hreach hrange hfree))
  case live => exact fun hlive => received_of_live hlive n rx
  case deaf => exact fun hdead hdeaf => received_of_deaf hdead hdeaf n rx
  case left => exact fun hdead hheard => received_of_left hdead hheard n rx
  case spiEnd =>
    exact fun u rx t hfind hhost hkept hselect => congrArg Host.Outcome.next (spiEnd_of_host hfind hhost hkept hselect)
  case clean => exact congrArg Host.Outcome.next (i2cEnd_of_clean hfind hhost hkept h1 n.isLt)
  case cause =>
    exact fun cause hpos hlt => congrArg Host.Outcome.next
      ((if_pos hlt).trans (i2cEnd_of_cause hfind hhost hkept h1 n.isLt hpos.ne' (hlt.trans (by decide))))
  case stretch =>
    exact congrArg Host.Outcome.next (i2cEnd_of_cause hfind hhost hkept h1 n.isLt (cause := 4) (by decide) (by decide))

end Sys2Proof.Machine
end

section
/-! Notification records (R467, R468): a record enters its port's queue at once, waits at its banks or for reel memory, or is lost. -/
namespace Sys2Proof.Machine

/-- What each act leaves as it was, acts in turn leave as it was. -/
theorem forEach_keeps {α β : Type} {g : State → β} {f : α → State → State} (hf : ∀ x s, g (f x s) = g s) (l : List α) (s : State) :
    g (forEach l f s) = g s := by
  induction l generalizing s with
  | nil => rfl
  | cons x t ih => exact (ih (f x s)).trans (hf x s)

/-- A register reads the same where the register store is the same. -/
theorem regP_congr {s t : State} (h : t.regs = s.regs) (p : Nat) (r : Reg) (i j : Nat) : t.regP p r i j = s.regP p r i j := by
  rw [State.regP, h, State.regP]
/-- A register under another key is not written. -/
theorem regP_setRegP_other {p q : Nat} {r r' : Reg} {i j k l : Nat} (h : regKey r' k l q ≠ regKey r i j p) (s : State) (v : Word) :
    (s.setRegP p r i j v).regP q r' k l = s.regP q r' k l := by
  have hother (d e : Word) (m : NMap Word) (a b : Nat) (hab : b ≠ a) : NMap.get d (m.set e a v) b = NMap.get d m b := by
    unfold NMap.get NMap.set
    split
    · rw [NMap.find_erase, if_neg hab]
    · rw [NMap.find_put, if_neg hab]
  exact hother _ _ _ _ _ h

/-! ## A record's bytes (R9, R467) -/

theorem bytesOfWords_length (l : List Word) : (bytesOfWords l).length = 4 * l.length := by
  induction l with
  | nil => rfl
  | cons w t ih =>
    rw [bytesOfWords] at ih ⊢
    rw [List.flatMap_cons, List.length_append, ih, show (bytesOf32 w).length = 4 from rfl, List.length_cons, Nat.mul_succ, Nat.add_comm]
/-- A record is 32 bytes long (R467). -/
theorem bytesOfWords_ntfRecord_length (code dom seq : Nat) (t : Tick) (items : List Word) :
    (bytesOfWords (ntfRecord code dom seq t items)).length = 32 := by
  simp [bytesOfWords_length, ntfRecord]
/-- Bytes of reel memory that are those of a list, each at its place. -/
theorem memBytes_eq {s : State} {a n : Nat} {l : List Byte} (hlen : l.length = n) (h : ∀ i < n, memByte s (a + i) = l.getD i 0) :
    memBytes s a n = l := by
  refine List.ext_getElem ((memBytes_length ..).trans hlen.symm) fun i hi hl => ?_
  have hn : i < n := hlen ▸ hl
  rw [← List.getD_eq_getElem _ 0 hi, ← List.getD_eq_getElem _ 0 hl, memBytes_getD s a hn, h i hn]

/-! ## The word requests of a record (R342) -/

/-- The request for word `i` of those that an aligned write of `bs` from word `w` on asks for. -/
def wholeReq (op w : Nat) (bs : List Byte) (i : Nat) : WordReq :=
  { op := op, word := w + i, mask := 0xFF, data := BitVec.ofNat 64 (leNat ((List.range 8).map (fun k => bs.getD (8 * i + k) 0))) }
/-- A little-endian byte string that grows at its high end. -/
theorem leNat_append_singleton (l : List Byte) (b : Byte) : leNat (l ++ [b]) = leNat l + b.toNat * 2 ^ (8 * l.length) := by
  induction l with
  | nil => simp [leNat]
  | cons x t ih =>
    rw [List.cons_append, leNat, ih, leNat, List.length_cons, Nat.mul_succ, Nat.pow_add]
    ring
/-- Bytes added up at their places, one after the other. -/
theorem foldl_bytes (f : Nat → Byte) (n : Nat) :
    (List.range n).foldl (fun d k => d + (f k).toNat * 2 ^ (8 * k)) 0 = leNat ((List.range n).map f) := by
  induction n with
  | zero => rfl
  | succ n ih =>
    rw [List.range_succ, List.foldl_append, ih, List.map_append, List.map_singleton, leNat_append_singleton]
    simp
/-- An aligned write of 32 bytes asks for four whole words. -/
theorem wordReqs_aligned (op w : Nat) (bs : List Byte) : wordReqs op (8 * w) 32 bs = (List.range 4).map (wholeReq op w bs) := by
  have hfirst : 8 * w / 8 = w := by omega
  have hcount : (8 * w + 32 - 1) / 8 + 1 - w = 4 := by omega
  simp only [wordReqs, hfirst, hcount]
  refine List.map_congr_left fun i hi => ?_
  have hi := List.mem_range.1 hi
  have hat : ∀ k ∈ List.range 8, (if 8 * w ≤ 8 * (w + i) + k ∧ 8 * (w + i) + k < 8 * w + 32 then some (8 * (w + i) + k - 8 * w)
      else none) = some (8 * i + k) := fun k hk => by
    have hk := List.mem_range.1 hk
    rw [if_pos (by omega)]
    congr 1
    omega
  rw [wholeReq, ← foldl_bytes]
  congr 2
  · refine (List.foldl_ext _ (fun m k => m + 2 ^ k) _ fun m k hk => ?_).trans rfl
    rw [hat k hk]
    rfl
  · refine List.foldl_ext _ _ _ fun d k hk => ?_
    rw [hat k hk]
/-- Byte `k` of a whole word request is the byte of the write at its place. -/
theorem wholeReq_byte (op w : Nat) (bs : List Byte) (i : Nat) {k : Nat} (hk : k < 8) :
    BitVec.ofNat 8 ((wholeReq op w bs i).data.toNat / 2 ^ (8 * k)) = bs.getD (8 * i + k) 0 := by
  have hlt := leNat_lt ((List.range 8).map (fun k => bs.getD (8 * i + k) 0))
  rw [List.length_map, List.length_range] at hlt
  rw [wholeReq, BitVec.toNat_ofNat, Nat.mod_eq_of_lt (hlt.trans_le (by decide)), leNat_byte]
  simp [hk]

/-! ## Words written in slots of their own (R344, R353) -/

@[simp] theorem putReel_regs (w : Nat) (d : DWord) (s : State) : (putReel w d s).regs = s.regs := by simp [putReel]
/-- A byte after a reel word is written whole. -/
theorem memByte_putReel (w : Nat) (d : DWord) (s : State) (b : Nat) : memByte (putReel w d s) b =
    if 8 * w ≤ b ∧ b < 8 * w + 8 then BitVec.ofNat 8 (d.toNat / 2 ^ (8 * (b - 8 * w))) else memByte s b := by
  have hmem : (putReel w d s).mem = (s.putBytes (8 * w) (bytesOf64 d)).mem := by
    unfold putReel
    rfl
  rw [memByte, hmem, ← memByte, memByte_putBytes, show (bytesOf64 d).length = 8 from rfl]
  exact ite_congr rfl (fun h => bytesOf64_getD d (by omega)) fun _ => rfl
theorem soleSlot_butSlots (p w : Nat) (s : State) : (soleSlot p w s).butSlots = s.butSlots := by
  unfold soleSlot
  refine (takeSlot_butSlots ..).trans ?_
  split
  · split <;> rfl
  · rfl
@[simp] theorem soleSlot_mem (p w : Nat) (s : State) : (soleSlot p w s).mem = s.mem :=
  (congrArg (fun t : State => t.mem) (soleSlot_butSlots p w s) :)
@[simp] theorem soleSlot_regs (p w : Nat) (s : State) : (soleSlot p w s).regs = s.regs :=
  (congrArg (fun t : State => t.regs) (soleSlot_butSlots p w s) :)

/-- Port `p`'s master writes a word that nobody else waits for. -/
def putSole (p : Nat) (r : WordReq) (s : State) : State := putReel r.word r.data (soleSlot p r.word s)
theorem putSole_regs (p : Nat) (r : WordReq) (s : State) : (putSole p r s).regs = s.regs := by simp [putSole]
/-- A byte after words have been written one after the other: one of those, or the one before. -/
theorem memByte_putSoles (p op w : Nat) (bs : List Byte) (n : Nat) (s : State) (b : Nat) :
    memByte (forEach ((List.range n).map (wholeReq op w bs)) (putSole p) s) b =
      if 8 * w ≤ b ∧ b < 8 * w + 8 * n then bs.getD (b - 8 * w) 0 else memByte s b := by
  induction n with
  | zero => exact (if_neg (by omega)).symm
  | succ n ih =>
    have hlast : forEach ((List.range (n + 1)).map (wholeReq op w bs)) (putSole p) s =
        putSole p (wholeReq op w bs n) (forEach ((List.range n).map (wholeReq op w bs)) (putSole p) s) := by
      simp [forEach, List.range_succ]
    have hmem (u : State) : memByte (soleSlot p (w + n) u) b = memByte u b := by simp [memByte]
    rw [hlast, putSole, memByte_putReel, show (wholeReq op w bs n).word = w + n from rfl, hmem, ih]
    by_cases hin : 8 * (w + n) ≤ b ∧ b < 8 * (w + n) + 8
    · rw [if_pos hin, if_pos (by omega), wholeReq_byte op w bs n (by omega)]
      congr 1
      omega
    · rw [if_neg hin]
      exact if_congr (by omega) rfl rfl

/-! ## The record (R468) -/

@[simp] theorem noticeWritten_mem (p : Nat) (s : State) : (noticeWritten p s).mem = s.mem := by
  unfold noticeWritten
  dsimp only
  split <;> rfl
/-- A record that is in the queue is counted by WPTR. -/
theorem noticeWritten_wptr (p : Nat) (s : State) : (noticeWritten p s).regP p .hlkNtfWptr 0 0 = s.regP p .hlkNtfWptr 0 0 + 1 := by
  have hset := (regP_setRegP s p p .hlkNtfWptr 0 0 0 0 (s.regP p .hlkNtfWptr 0 0 + 1)).trans (if_pos rfl)
  unfold noticeWritten
  dsimp only
  split <;> exact hset
theorem ntfAddr_aligned (p n : Nat) : 8 * (ntfAddr p n / 8) = ntfAddr p n := by
  unfold ntfAddr
  omega

/-- The write of port `p`'s record number `w` as an operation of its master (R352). -/
def noticeOp (p : Nat) (w : Word) : MemOp :=
  { kind := .wr, master := 80 + p, dom := Fin.ofNat 4 p, src := .notice p, addr := ntfAddr p w.toNat, count := 32, left := 4, got := [],
    status := 0, refused := false }
/-- Port `p`'s master waits for a word at its bank (R353). -/
def enterReq (p : Nat) (r : WordReq) (s : State) : State :=
  s.setBank (bankOf r.word) { bank s (bankOf r.word) with reqs := (bank s (bankOf r.word)).reqs ++ [(r, 80 + p, 1 + p)] }
/-- The words of port `p`'s record number `w`. -/
def noticeReqs (op p code dom : Nat) (w : Word) (t : Tick) (items : List Word) : List WordReq :=
  (List.range 4).map (wholeReq op (ntfAddr p w.toNat / 8) (bytesOfWords (ntfRecord code dom w.toNat t items)))

section
variable {s : State} {p : Nat}

/-- A record of a port of which none is on its way, as the words that it asks for. -/
theorem writeNotice_of_next (hnone : goingOf s p = 0) {w : Word} (hw : w = s.regP p .hlkNtfWptr 0 0) {code dom : Nat} {t : Tick}
    {items : List Word} {rs : List WordReq} (hrs : rs = noticeReqs s.memory.nextOp p code dom w t items) :
    writeNotice p code dom t items s =
      if noticeFree s rs then noticeWritten p (forEach rs (putSole p) s)
      else forEach rs (enterReq p) (s.onMem
        fun m => { m with nextOp := s.memory.nextOp + 1, ops := m.ops.put s.memory.nextOp (noticeOp p w) }) := by
  have hzero : s.regP p .hlkNtfWptr 0 0 + w32 0 = w := by rw [hw]; exact BitVec.add_zero _
  have hreqs := wordReqs_aligned s.memory.nextOp (ntfAddr p w.toNat / 8) (bytesOfWords (ntfRecord code dom w.toNat t items))
  rw [ntfAddr_aligned, ← noticeReqs, ← hrs] at hreqs
  simp only [writeNotice, hnone, hzero, hreqs, true_and]
  rfl
/-- Reel memory after a record is written: its bytes at its place, every other as it was. -/
theorem memByte_noticeWritten (op code dom : Nat) (w : Word) (t : Tick) (items : List Word) (b : Nat) :
    memByte (noticeWritten p (forEach (noticeReqs op p code dom w t items) (putSole p) s)) b =
      if ntfAddr p w.toNat ≤ b ∧ b < ntfAddr p w.toNat + 32 then
        (bytesOfWords (ntfRecord code dom w.toNat t items)).getD (b - ntfAddr p w.toNat) 0
      else memByte s b := by
  have hput := memByte_putSoles p op (ntfAddr p w.toNat / 8) (bytesOfWords (ntfRecord code dom w.toNat t items)) 4 s b
  rw [ntfAddr_aligned] at hput
  rw [memByte, noticeWritten_mem]
  exact hput
/-- A queue that has room takes a record while reel memory takes writes. -/
theorem queueRecord_of_room (hlive : memLive s = true) (hroom : ntfFull s p = false) (code dom : Nat) (items : List Word) :
    queueRecord p code dom items s = writeNotice p code dom s.now items s := by
  simp only [queueRecord, hroom, hlive, Bool.false_eq_true, if_false, if_true]
/-- A queue that has room takes a record that waits for reel memory (R269, R343). -/
theorem queueRecord_of_asleep (hlive : memLive s = false) (hroom : ntfFull s p = false) (code dom : Nat) (items : List Word) :
    queueRecord p code dom items s =
      { s with ntf := { s.ntf with early := s.ntf.early ++ [{ port := p, code := code, dom := dom, time := s.now, items := items }] } } := by
  simp only [queueRecord, hroom, hlive, Bool.false_eq_true, if_false]
/-- A full queue takes nothing and counts the record lost. -/
theorem queueRecord_of_full (hfull : ntfFull s p = true) (code dom : Nat) (items : List Word) :
    queueRecord p code dom items s = { s.bumpP p .hlkNtfLost 1 with
      ntf := { s.ntf with owed := s.ntf.owed.modify 0 p (· + 1) } } := by
  simp only [queueRecord, hfull, if_true]
  rfl
end

theorem regKey_wptr_ne_lost : ∀ p : Fin 4, regKey .hlkNtfWptr 0 0 p ≠ regKey .hlkNtfLost 0 0 p := by decide

/-- Settles O10: a record's four whole words, written one by one where nobody waits at their banks, or entered there. -/
theorem notificationQueue : Obligations.NotificationQueue := by
  intro s p code dom items w hw
  have hroom {n : Nat} (hn : earlyOf s p = n) (h : (w - s.regP p .hlkNtfRptr 0 0).toNat + n < 8192) : ntfFull s p = false := by
    rw [ntfFull, hn, ← hw]
    exact decide_eq_false (by omega)
  have hnone (hearly : earlyOf s p = 0) : goingOf s p = 0 := by
    unfold earlyOf at hearly
    omega
  refine ⟨?free, ?waits, ?asleep, ?full⟩
  case free =>
    rintro hlive hearly hspace hfree t rfl
    have hall : noticeFree s (noticeReqs s.memory.nextOp p code dom w s.now items) = true := by
      refine List.all_eq_true.2 fun r hr => ?_
      obtain ⟨i, hi, rfl⟩ := List.mem_map.1 hr
      have hbank : waitingMasters s (bankOf (ntfAddr p w.toNat / 8 + i)) = [] := hfree i (List.mem_range.1 hi)
      simp [wholeReq, hbank]
    rw [queueRecord_of_room hlive (hroom hearly hspace), writeNotice_of_next (hnone hearly) hw rfl, if_pos hall]
    have hbytes := memByte_noticeWritten (s := s) (p := p) s.memory.nextOp code dom w s.now items
    refine ⟨?record, ?counted, ?other⟩
    case record =>
      refine memBytes_eq (bytesOfWords_ntfRecord_length ..) fun i hi => (hbytes (ntfAddr p w.toNat + i)).trans ?_
      rw [if_pos (by omega), Nat.add_sub_cancel_left]
    case counted =>
      rw [noticeWritten_wptr, hw, regP_congr (forEach_keeps (g := State.regs) (putSole_regs p) _ s)]
    case other => exact fun b hb => (hbytes b).trans (if_neg (by unfold ntfAddr; omega))
  case waits =>
    rintro hlive hearly hspace htest hwaits t rfl
    have hsome : ¬ noticeFree s (noticeReqs s.memory.nextOp p code dom w s.now items) = true := by
      intro hfree
      have hhead := List.all_eq_true.1 hfree _ (List.mem_map.2 ⟨0, List.mem_range.2 (by omega), rfl⟩)
      have hbank : waitingMasters s (bankOf (ntfAddr p w.toNat / 8)) ≠ [] := hwaits
      simp [wholeReq, inTest, htest, hbank] at hhead
    rw [queueRecord_of_room hlive (hroom hearly hspace), writeNotice_of_next (hnone hearly) hw rfl, if_neg hsome]
    refine ⟨forEach_keeps (g := State.mem) (f := enterReq p) (fun _ _ => rfl) _ _, ?uncounted,
      noticeOp p w, forEach_keeps (g := fun u => u.memory.ops) (f := enterReq p) (fun _ _ => rfl) _ _, rfl, rfl, rfl, rfl⟩
    case uncounted =>
      rw [hw]
      exact forEach_keeps (g := fun u => u.regP p .hlkNtfWptr 0 0) (f := enterReq p) (fun _ _ => rfl) _ _
  case asleep => exact fun hlive hspace => queueRecord_of_asleep hlive (hroom (n := earlyOf s p) rfl hspace) code dom items
  case full =>
    rintro hspace t rfl
    have hfull : ntfFull s p = true := by
      rw [ntfFull, ← hw]
      exact decide_eq_true hspace
    rw [queueRecord_of_full hfull]
    refine ⟨rfl, ?stands, (regP_setRegP s p p .hlkNtfLost 0 0 0 0 _).trans (if_pos rfl)⟩
    case stands =>
      rw [hw]
      exact regP_setRegP_other (regKey_wptr_ne_lost p) s _

end Sys2Proof.Machine
end

section
/-! What the owner alone may do (R457): a tenant is denied, before its operands are looked at. -/
namespace Sys2Proof.Machine

/-- A check of authority that fails goes before every other. -/
theorem firstBad_of_denied {b : Bool} (h : b = false) (l : List Status) : firstBad (allow b :: l) = stDenied := by
  rw [h]
  rfl
/-- A command whose first failing check is of authority changes nothing. -/
theorem checked_of_denied {l : List Status} (h : firstBad l = stDenied) (act : State → State) (s : State) :
    checked l act s = s.stat stDenied := by
  rw [checked, h]
  rfl

section
variable {s : State} {p : Fin 4} (htenant : p ≠ 0)
include htenant

theorem val_ne_zero_of_tenant : p.val ≠ 0 := fun h => htenant (Fin.ext h)
/-- A tenant's command that the owner alone may give. -/
theorem ownerOnly_of_tenant (act : State → State) : ownerOnly p act s = s.stat stDenied := if_neg (val_ne_zero_of_tenant htenant)
theorem owner_test_of_tenant : (p.val == 0) = false := beq_false_of_ne (val_ne_zero_of_tenant htenant)
/-- A tenant's write of a PWR register with LCK fields (R601). -/
theorem pwrLckStatus_of_tenant (r : Reg) (ok : Bool) (v : Word) : firstBad [pwrLckStatus s p r ok v] = stDenied := by
  rw [pwrLckStatus, owner_test_of_tenant htenant, Bool.false_and, firstBad_of_denied rfl]
  rfl
/-- A tenant's FUSE_RETIRE (R549). -/
theorem fuseRetire_of_tenant (v : Word) : fuseRetire p v s = s.stat stDenied := by
  have hst := firstBad_of_denied (beq_false_of_ne htenant)
  simp only [fuseRetire, hst, htenant, false_and, if_false]
  rfl
end

/-- Settles O7: the owner's commands of the blocks SYS, CFG, SEC and PWR, and those that are served after release. -/
theorem tenantsAreDenied : Obligations.TenantsAreDenied := by
  intro s p v k n m d c htenant hreleased hc
  have hval := val_ne_zero_of_tenant htenant
  have howner := owner_test_of_tenant htenant
  have hserved {act : State → State} (h : act s = s.stat stDenied) : served act s = s.stat stDenied := served_of_released hreleased h
  revert c
  simp only [List.forall_mem_cons, List.not_mem_nil, false_imp_iff, implies_true, and_true]
  refine ⟨?doze, ?park, ?wake, ?vlim, ?therm, ?wakeAt, ?sysLock, ?sysReset, ?startFull, ?ledgerAck, ?bankCfg, ?memCtl, ?testStop, ?tbsync,
    ?tileTest, ?fuseRetire, ?laneCfg⟩
  case doze | park => exact congrArg Host.Outcome.next (if_pos hval)
  case wake | wakeAt | sysLock => exact congrArg Host.Outcome.next (ownerOnly_of_tenant htenant _)
  case vlim | therm => exact congrArg Host.Outcome.next (checked_of_denied (pwrLckStatus_of_tenant htenant ..) _ s)
  case sysReset | ledgerAck => exact congrArg Host.Outcome.next (checked_of_denied (firstBad_of_denied howner _) _ s)
  case startFull => exact congrArg Host.Outcome.next (checked_of_denied (firstBad_of_denied (beq_false_of_ne htenant) _) _ s)
  case bankCfg | memCtl | testStop | tbsync | laneCfg =>
    exact congrArg Host.Outcome.next (hserved (ownerOnly_of_tenant htenant _))
  case tileTest => exact congrArg Host.Outcome.next (hserved (if_pos hval))
  case fuseRetire => exact congrArg Host.Outcome.next (hserved (fuseRetire_of_tenant htenant v))

end Sys2Proof.Machine
end

section
/-! The links of the host ports (R446–R450, R476–R482): training, loss and reset. -/
namespace Sys2Proof.Machine

/-! ## Training (R448, R449) -/

section
variable {s : State} {p : Nat} (hgo : (port s p).wait = false)
include hgo

/-- Step 1 gains lock on some lanes. -/
theorem linkStep_of_detect (hstate : (port s p).state = 1) (hstep : (port s p).step = 1) : linkStep p s =
    (s.setPort p { port s p with state := 2, step := 2, locked := (port s p).locked ||| freeLanes s }).nextFree := by
  simp [linkStep, hgo, hstate, hstep]
/-- Step 2 ends with the lock of every lane. -/
theorem linkStep_of_lock (hstate : (port s p).state = 2) (hstep : (port s p).step = 2) : linkStep p s =
    s.setPort p { port s p with state := 3, step := 3, locked := 0xF } := by
  simp [linkStep, hgo, hstate, hstep]
section
variable (hlocked : (port s p).locked = 0xF)
include hlocked

/-- Step 3 ends once every lane is aligned. -/
theorem linkStep_of_align (hstate : (port s p).state = 3) (hstep : (port s p).step = 3) (haligned : (port s p).aligned = 0xF) :
    linkStep p s = s.setPort p { port s p with state := 4, step := 4 } := by
  simp [linkStep, hgo, hstate, hstep, hlocked, haligned]
/-- Steps 4 and 5 lead to the next. -/
theorem linkStep_of_exchange (hstate : (port s p).state = 4) (hstep : (port s p).step = 4 ∨ (port s p).step = 5) :
    linkStep p s = s.setPort p { port s p with step := (port s p).step + 1 } := by
  rcases hstep with hstep | hstep <;> simp [linkStep, hgo, hstate, hstep, hlocked]
/-- Step 6 leads to ACTIVE. -/
theorem linkStep_of_last (hstate : (port s p).state = 4) (hstep : (port s p).step = 6) : linkStep p s = portActive p s := by
  simp [linkStep, hgo, hstate, hstep, hlocked]
end
end

/-- A timeout in training (R449). -/
theorem trainTimeout_of_training {s : State} {p : Nat}
    (h : (port s p).state = 1 ∨ (port s p).state = 2 ∨ (port s p).state = 3 ∨ (port s p).state = 4) :
    trainTimeout p s = s.setPort p { port s p with cause := 9, wait := true } := by
  refine if_pos ?_
  simpa only [Bool.or_eq_true, beq_iff_eq, or_assoc] using h

/-! ## Loss (R450) -/

/-- With a bit cleared, four bits are not all ones. -/
theorem and_putBit_false_ne_ones {k : Nat} (hk : k < 4) (l v : BitVec 4) : l &&& putBit v k false ≠ 0xF := by
  intro h
  obtain ⟨-, hput⟩ := BitVec.and_eq_allOnes_iff.1 h
  obtain ⟨-, hbit⟩ := BitVec.and_eq_allOnes_iff.1 hput
  interval_cases k <;> exact absurd hbit (by decide)
/-- A lane at least is without lock once one loses it. -/
theorem loseLock_locked_ne (p : Nat) (s : State) : (port (loseLock p s) p).locked ≠ 0xF := by
  have hport := port_setPort s p p { port s p with
    locked := (port s p).locked &&& putBit (BitVec.ofNat 4 (s.free.toNat / 4)) (s.free.toNat % 4) false }
  rw [if_pos rfl] at hport
  have hlost := and_putBit_false_ne_ones (Nat.mod_lt s.free.toNat (show 4 > 0 by decide)) (port s p).locked
    (BitVec.ofNat 4 (s.free.toNat / 4))
  exact (congrArg PortSt.locked hport).trans_ne hlost
/-- Lock or signal lost on a lane of an ACTIVE port. -/
theorem linkGone_of_lock {c : LossCause} (h : c ≠ .align) (p : Nat) (s : State) :
    linkGone p c s = leaveActive p (lossCode c) (loseLock p s) := by
  cases c
  · rfl
  · rfl
  · exact absurd rfl h

/-- Settles O41: each event of a link under the condition of its rule. -/
theorem linkStates : Obligations.LinkStates := by
  rintro s p x rfl
  refine ⟨?detect, ?lock, ?align, ?exchange, ?last, ?timeout, ?retry, ?loss, ?skew, ?train, ?aligned, ?reset, ?commands, ?layer⟩
  case detect => exact fun hstate hgo hstep => congrArg Host.Outcome.next (linkStep_of_detect hgo hstate hstep)
  case lock => exact fun hstate hgo hstep => congrArg Host.Outcome.next (linkStep_of_lock hgo hstate hstep)
  case align =>
    exact fun hstate hgo hstep hlocked haligned => congrArg Host.Outcome.next (linkStep_of_align hgo hlocked hstate hstep haligned)
  case exchange => exact fun hstate hgo hlocked hstep => congrArg Host.Outcome.next (linkStep_of_exchange hgo hlocked hstate hstep)
  case last => exact fun hstate hgo hlocked hstep => congrArg Host.Outcome.next (linkStep_of_last hgo hlocked hstate hstep)
  case timeout => exact fun htraining => congrArg Host.Outcome.next (trainTimeout_of_training htraining)
  case retry => exact fun hwait => congrArg Host.Outcome.next (if_pos hwait)
  case loss => exact fun c _ hc => ⟨congrArg Host.Outcome.next (linkGone_of_lock hc p s), loseLock_locked_ne p s⟩
  case skew => exact fun _ => rfl
  case train => exact fun _ => rfl
  case aligned => exact fun l hstate => congrArg Host.Outcome.next (if_pos hstate)
  case reset => exact fun hstate => congrArg Host.Outcome.next (if_pos hstate)
  case commands =>
    exact fun q hreleased hmay => ⟨congrArg Host.Outcome.next (served_checked hreleased hmay _),
      congrArg Host.Outcome.next (served_checked hreleased hmay _)⟩
  case layer => exact fun hstate hleft => congrArg Host.Outcome.next (if_pos ⟨hstate, hleft⟩)

end Sys2Proof.Machine
end

section
/-! Requests from the host (R451, R452, R455, R456, R459): accepted in sequence, entered in the request queue, performed from it. -/
namespace Sys2Proof.Machine

/-! ## A port that is stored twice -/

theorem NMap.erase_put {α : Type} (m : NMap α) (k : Nat) (v : α) : (m.put k v).erase k = m.erase k := by
  induction m with
  | nil => simp [NMap.put, NMap.erase]
  | cons e t ih =>
    obtain ⟨a, w⟩ := e
    unfold NMap.erase at ih ⊢
    unfold NMap.put
    split
    · simp [*]
    · split
      · simp
      · simp [ih, List.filter_cons]
/-- What is stored last stands, where what stood before is not a port at reset. -/
theorem setPort_setPort {x : PortSt} (hx : x ≠ PortSt.init) (s : State) (p : Nat) (y : PortSt) :
    (s.setPort p x).setPort p y = s.setPort p y := by
  have hset : NMap.set PortSt.init (NMap.set PortSt.init s.host.ports p x) p y = NMap.set PortSt.init s.host.ports p y := by
    unfold NMap.set
    rw [if_neg hx, NMap.erase_put, NMap.put_put]
  unfold State.setPort
  simp only [hset]
/-- What a change of a port leaves as it was, at every port. -/
theorem port_setPort_keeps {β : Type} {g : PortSt → β} {s : State} {p : Nat} {x : PortSt} (h : g x = g (port s p)) (q : Nat) :
    g (port (s.setPort p x) q) = g (port s q) := by
  rw [port_setPort]
  split
  next hq => rw [h, hq]
  next => rfl

/-! ## Which requests may leave their queues -/

/-- What a port has to answer, and its answers that wait. -/
def PortSt.answering (x : PortSt) : HQ Rsp × List WinAcc × List (Packet × Option Byte) := (x.rspq, x.wins, x.plyq)

section
variable {s t : State} {p : Fin 4} (hops : t.memory.ops = s.memory.ops) (hanswers : (port t p).answering = (port s p).answering)
include hops hanswers

theorem rspRoom_congr : rspRoom t p = rspRoom s p := by
  simp only [PortSt.answering, Prod.mk.injEq] at hanswers
  obtain ⟨hrspq, hwins, hplyq⟩ := hanswers
  unfold rspRoom unanswered
  rw [hops, hrspq, hwins, hplyq]
/-- Whether the head of a queue may leave it depends on the queue, the load and what the port has to answer. -/
theorem reqReady_congr (hldr : t.ldr = s.ldr) (hreqq : (port t p).reqq = (port s p).reqq) : reqReady t p = reqReady s p := by
  have hroom := rspRoom_congr hops hanswers
  have hstream : streamWaits t p = streamWaits s p := by simp only [streamWaits, hldr]
  have hgoes : reqGoes t p = reqGoes s p := by
    funext r
    cases r <;> simp only [reqGoes, hroom, hstream]
  simp only [reqReady, hreqq, hgoes]
end

/-- A number that is alone has the next turn. -/
theorem nextInTurn_singleton (k : Nat) (last : Option Nat) : nextInTurn [k] last = some k := by
  cases last with
  | none => rfl
  | some j => by_cases h : j < k <;> simp [nextInTurn, h]
/-- While no request may leave its queue none does. -/
theorem grantReqs_of_none {s : State} (hnone : ∀ q, reqReady s q = false) (n : Nat) : grantReqs n s = s := by
  cases n with
  | zero => rfl
  | succ n =>
    have hports : allPorts.filter (fun p => reqReady s (Fin.ofNat 4 p)) = [] := by simp [hnone]
    have hturn : nextInTurn [] s.host.turn = none := by cases s.host.turn <;> rfl
    simp only [grantReqs, hports, hturn]
theorem reqReady_of_empty {s : State} {p : Fin 4} (h : (port s p).reqq.items = []) : reqReady s p = false := by
  simp only [reqReady, h, List.head?_nil, Option.any_none]
theorem reqReady_of_head {s : State} {p : Fin 4} {r : HReq} {rest : List HReq} (h : (port s p).reqq.items = r :: rest) :
    reqReady s p = reqGoes s p r := by
  simp only [reqReady, h, List.head?_cons, Option.any_some]
/-- A packet's request holds a credit while it stands in the queue. -/
theorem reqsHeld_of_packet {x : PortSt} {r : HReq} (h : x.reqq.items = [r]) (hpacket : ∀ v, r ≠ .word v) : reqsHeld x = 1 := by
  unfold reqsHeld
  rw [h]
  cases r with
  | word v => exact absurd rfl (hpacket v)
  | rd | wr | ply | other => rfl
theorem reqsHeld_of_empty {x : PortSt} (h : x.reqq.items = []) : reqsHeld x = 0 := by
  unfold reqsHeld
  rw [h]
  rfl
/-- Where no request waits every queue is empty. -/
theorem reqq_empty_of_none {s : State} (hnone : reqsWaiting s = 0) (q : Fin 4) : (port s q).reqq.items = [] := by
  have hall := List.sum_eq_zero_iff.1 hnone _ (List.mem_map.2 ⟨q.val, by revert q; decide, rfl⟩)
  exact List.length_eq_zero_iff.1 hall
theorem filter_allPorts_eq : ∀ p : Fin 4, allPorts.filter (fun q => decide (Fin.ofNat 4 q = p)) = [p.val] := by decide
theorem sum_allPorts_eq : ∀ p : Fin 4, (allPorts.map (fun q => if q = p.val then 1 else 0)).sum = 1 := by decide
theorem lt_of_mem_allPorts : ∀ q ∈ allPorts, q < 4 := by decide
/-- A request that waits alone and may leave is granted. -/
theorem serveAll_of_one {s : State} {p : Fin 4} (hone : reqsWaiting s = 1) (hready : ∀ q : Fin 4, reqReady s q = decide (q = p)) :
    serveAll s = grantReq p s := by
  have hports : allPorts.filter (fun q => reqReady s (Fin.ofNat 4 q)) = [p.val] := by
    simp only [hready]
    exact filter_allPorts_eq p
  have hself : Fin.ofNat 4 p.val = p := Fin.ofNat_val_eq_self p
  simp only [serveAll, hone, grantReqs, hports, nextInTurn_singleton, hself]

/-! ## A request that is accepted -/

/-- The state once a port has taken a packet with the expected SEQ (R454). -/
def sequenced (p : Nat) (seq : BitVec 12) (s : State) : State :=
  tally 5 p 0 ((wakeIsl 2 p s).setPort p { port s p with rxSeq := seq + 1, nakOut := false })
/-- The state once a request stands in its queue (R455). -/
def queued (p : Nat) (r : HReq) (s : State) : State :=
  s.onPort p (fun x => { x with reqq := x.reqq.push 64 r, reqCredit := x.reqCredit - 1 })
/-- The state once a request has entered its queue and left it again: its credit is granted anew, and the port had its turn. -/
def granted (p : Fin 4) (r : HReq) (s : State) : State :=
  { s.onPort p (fun x => { x with reqq := (x.reqq.push 64 r).pop 64, reqCredit := x.reqCredit - 1 + 1 }) with
    host := { (s.onPort p (fun x => { x with reqq := (x.reqq.push 64 r).pop 64, reqCredit := x.reqCredit - 1 + 1 })).host with
      turn := some p.val } }

theorem port_sequenced_keeps {β : Type} {g : PortSt → β} {p : Nat} {seq : BitVec 12} {s : State}
    (h : g { port s p with rxSeq := seq + 1, nakOut := false } = g (port s p)) (q : Nat) : g (port (sequenced p seq s) q) = g (port s q) :=
  port_setPort_keeps (s := wakeIsl 2 p s) h q
theorem port_queued_keeps {β : Type} {g : PortSt → β} {p : Nat} {r : HReq} {s : State}
    (h : g { port s p with reqq := (port s p).reqq.push 64 r, reqCredit := (port s p).reqCredit - 1 } = g (port s p)) (q : Nat) :
    g (port (queued p r s) q) = g (port s q) :=
  port_setPort_keeps h q
theorem port_queued_self (p : Nat) (r : HReq) (s : State) : port (queued p r s) p =
    { port s p with reqq := (port s p).reqq.push 64 r, reqCredit := (port s p).reqCredit - 1 } :=
  (port_setPort ..).trans (if_pos rfl)
theorem port_queued_other {p q : Nat} (h : q ≠ p) (r : HReq) (s : State) : port (queued p r s) q = port s q :=
  (port_setPort ..).trans (if_neg h)

section
variable {s : State} {p : Fin 4} {r : HReq} (hempty : ∀ q : Fin 4, (port s q).reqq.items = [])
include hempty

/-- A request alone in the queues. -/
theorem reqsWaiting_queued : reqsWaiting (queued p r s) = 1 := by
  have hlength : ∀ q ∈ allPorts, (port (queued p r s) q).reqq.items.length = if q = p.val then 1 else 0 := by
    intro q hq
    split
    next h => rw [h, port_queued_self, HQ.push, hempty p]; rfl
    next h => rw [port_queued_other h, hempty ⟨q, lt_of_mem_allPorts q hq⟩]; rfl
  rw [reqsWaiting, List.map_congr_left hlength, sum_allPorts_eq]
/-- It may leave where its kind may. -/
theorem reqReady_queued (q : Fin 4) : reqReady (queued p r s) q = (decide (q = p) && reqGoes (queued p r s) p r) := by
  by_cases h : q = p
  · subst h
    have hitems : (port (queued q r s) q).reqq.items = [r] := by
      rw [port_queued_self, HQ.push, hempty q]
      rfl
    simp [reqReady_of_head hitems]
  · have hval : q.val ≠ p.val := fun e => h (Fin.ext e)
    have hitems : (port (queued p r s) q).reqq.items = [] := by rw [port_queued_other hval, hempty q]
    simp [reqReady_of_empty hitems, h]
/-- A request of a packet that leaves its queue is performed. -/
theorem grantReq_queued (hok : (port s p).reqq.ok = true) (hpacket : ∀ v, r ≠ .word v) :
    grantReq p (queued p r s) = doReq p r (granted p r s) := by
  have hitems : ((port s p).reqq.push 64 r).items = [r] := by
    rw [HQ.push, hempty p]
    rfl
  have hpop : (((port s p).reqq.push 64 r).pop 64).items = [] := by simp only [HQ.pop, hitems]
  have hset (y : PortSt) : (queued p r s).setPort p y = s.setPort p y := setPort_setPort (fun h => by
    have hinit := congrArg (fun x => x.reqq.items) h
    rw [hitems] at hinit
    cases hinit) ..
  have hheld (c : Nat) : reqsHeld { port s p with reqq := (port s p).reqq.push 64 r, reqCredit := c } = 1 :=
    reqsHeld_of_packet hitems hpacket
  have hleft (c : Nat) : reqsHeld { port s p with reqq := ((port s p).reqq.push 64 r).pop 64, reqCredit := c } = 0 :=
    reqsHeld_of_empty hpop
  simp only [grantReq, port_queued_self, hitems, HQ.push_ok _ _ _ hok, hset, hheld, hleft, Bool.not_true, Bool.false_eq_true, if_false]
  rfl
end

/-! ## Requests as their packets arrive -/

section
variable {s : State} {p : Fin 4} {seq : BitVec 12}

theorem rspRoom_queued (r : HReq) : rspRoom (queued p r (sequenced p seq s)) p = rspRoom s p :=
  rspRoom_congr (s := s) (t := queued p r (sequenced p seq s)) rfl
    ((port_queued_keeps (g := PortSt.answering) rfl p).trans (port_sequenced_keeps (g := PortSt.answering) rfl p))
/-- No other request waits once a packet is taken. -/
theorem reqq_empty_sequenced (hnone : reqsWaiting s = 0) (q : Fin 4) : (port (sequenced p seq s) q).reqq.items = [] :=
  (port_sequenced_keeps (g := fun x => x.reqq.items) rfl q).trans (reqq_empty_of_none hnone q)
theorem reqq_ok_sequenced (hok : (port s p).reqq.ok = true) : (port (sequenced p seq s) p).reqq.ok = true :=
  (port_sequenced_keeps (g := fun x => x.reqq.ok) rfl p).trans hok

section
variable (hactive : (port s p).state = 5) (hseq : seq = (port s p).rxSeq)
include hactive hseq

section
variable (hnone : reqsWaiting s = 0) (hok : (port s p).reqq.ok = true)
include hnone hok

/-- A packet with the expected SEQ enters the request queue, which is sound and has room (R454–R456). -/
theorem onPacket_of_expected (r : HReq) : onPacket p seq r s = queued p r (sequenced p seq s) := by
  have hroom : (port s p).reqq.items.length < 64 := by
    rw [reqq_empty_of_none hnone p]
    decide
  have hok1 := reqq_ok_sequenced (seq := seq) hok
  subst hseq
  exact (if_neg (not_not_intro hactive)).trans ((if_pos rfl).trans ((if_pos hroom).trans (if_pos hok1)))
/-- A request that may leave its queue at once is performed. -/
theorem hostPacket_of_going {r : HReq} (hpacket : ∀ v, r ≠ .word v)
    (hgoes : reqGoes (queued p r (sequenced p seq s)) p r = true) :
    hostPacket p seq r s = doReq p r (granted p r (sequenced p seq s)) := by
  have hempty := reqq_empty_sequenced (p := p) (seq := seq) hnone
  rw [hostPacket, onPacket_of_expected hactive hseq hnone hok, serveAll_of_one (reqsWaiting_queued hempty) fun q => ?_,
    grantReq_queued hempty (reqq_ok_sequenced hok) hpacket]
  rw [reqReady_queued hempty, hgoes, Bool.and_true]
/-- A request that may not leave its queue waits there. -/
theorem hostPacket_of_waiting {r : HReq} (hstays : reqGoes (queued p r (sequenced p seq s)) p r = false) :
    hostPacket p seq r s = queued p r (sequenced p seq s) := by
  rw [hostPacket, onPacket_of_expected hactive hseq hnone hok]
  refine grantReqs_of_none (fun q => ?_) _
  rw [reqReady_queued (reqq_empty_sequenced hnone), hstays, Bool.and_false]
end

/-- A packet that finds the request queue full is discarded (R456). -/
theorem hostPacket_of_full (hfull : 64 ≤ (port s p).reqq.items.length) (hstay : ∀ q, reqReady s q = false) (r : HReq) :
    hostPacket p seq r s = s.onPort p (fun x => { x with nakOut := true }) := by
  have hdrop : onPacket p seq r s = s.onPort p (fun x => { x with nakOut := true }) :=
    (if_neg (not_not_intro hactive)).trans ((if_pos hseq).trans (if_neg (Nat.not_lt.2 hfull)))
  have hkeeps {β : Type} {g : PortSt → β} (h : g { port s p with nakOut := true } = g (port s p)) (q : Nat) :
      g (port (s.onPort p (fun x => { x with nakOut := true })) q) = g (port s q) := port_setPort_keeps h q
  have hsame (q : Fin 4) : reqReady (s.onPort p (fun x => { x with nakOut := true })) q = reqReady s q :=
    reqReady_congr rfl (hkeeps (g := PortSt.answering) rfl q) rfl (hkeeps (g := PortSt.reqq) rfl q)
  rw [hostPacket, hdrop]
  exact grantReqs_of_none (fun q => (hsame q).trans (hstay q)) _
end
end

/-! ## What is performed (R460, R465) -/

section
variable {t : State} {p : Fin 4} {tag : Option Byte} {arg : BitVec 16} {h : Word} {ws : List Word} {k : Packet}
  (hk : k = packetOf h (0x1080 + 16 * p + arg.toNat % 16) p ws) (hlength : ws.length ≤ 18) (hop : k.op.toNat < 7) (hpath : outAbsent t k = false)
include hk hlength hop hpath

/-- A packet without a response goes out from its mailbox. -/
theorem hostPly_of_message (hplain : hasResponse k.op = false) :
    hostPly p tag arg (h :: ws) t = send k (t.onPort p (fun x => { x with plyq := x.plyq ++ [(k, tag)] })) := by
  subst hk
  simp only [hostPly, Nat.not_lt.2 hlength, Nat.not_le.2 hop, hpath, hplain, Bool.false_and, Bool.false_eq_true, if_false]
/-- A packet with a response is entered among its mailbox's requests, which have room for it. -/
theorem hostPly_of_request {m : Nat} (hm : m = arg.toNat % 16) (hasks : hasResponse k.op = true) (hroom : mboxFull (mbox t p m) = false) :
    hostPly p tag arg (h :: ws) t = send k ((t.setMbox p m { mbox t p m with
      reqs := (mbox t p m).reqs ++ [{ dest := k.dest, slot := k.slot, tag := k.tag, flits := respFlits k }] }).onPort p
        (fun x => { x with plyq := x.plyq ++ [(k, tag)] })) := by
  subst hk hm
  simp only [hostPly, Nat.not_lt.2 hlength, Nat.not_le.2 hop, hpath, hasks, hroom, Bool.and_false, Bool.false_eq_true, if_false, if_true]
end

section
variable (s : State) (p : Fin 4) (seq : BitVec 12) (tag : Option Byte)

/-- An RD, a WR of no stream and a PLY leave their queue where there is room for their RSP. -/
theorem reqGoes_queued_rd (words : List DWord) :
    reqGoes (queued p (.rd tag words) (sequenced p seq s)) p (.rd tag words) = rspRoom s p := by
  simp only [reqGoes, rspRoom_queued]
theorem reqGoes_queued_wr {words : List DWord} (hstream : isStream words = false) :
    reqGoes (queued p (.wr tag words) (sequenced p seq s)) p (.wr tag words) = rspRoom s p := by
  simp only [reqGoes, rspRoom_queued, hstream, Bool.false_and, Bool.not_false, Bool.and_true]
theorem reqGoes_queued_ply (arg : BitVec 16) (words : List Word) :
    reqGoes (queued p (.ply tag arg words) (sequenced p seq s)) p (.ply tag arg words) = rspRoom s p := by
  simp only [reqGoes, rspRoom_queued]
end

/-- Settles O42: a packet with the expected SEQ enters the request queue, and leaves it at once where it may. -/
theorem hostPackets : Obligations.HostPackets := by
  intro s s1 p seq tag take hactive hseq hs1 htake
  obtain rfl : s1 = sequenced p seq s := hs1
  have htake (r : HReq) : take r = granted p r (sequenced p seq s) := htake r
  refine ⟨fun hnone hok hroom => ?going, ?waits, fun _ => rfl, ?full⟩
  case going =>
    have hperformed {r : HReq} (hpacket : ∀ v, r ≠ .word v) (hgoes : reqGoes (queued p r (sequenced p seq s)) p r = rspRoom s p) :
        hostPacket p seq r s = doReq p r (take r) := by
      rw [htake, hostPacket_of_going hactive hseq hnone hok hpacket (hgoes.trans hroom)]
    have hply (arg : BitVec 16) (ws : List Word) :
        hostPacket p seq (.ply (some tag) arg ws) s = hostPly p (some tag) arg ws (take (.ply (some tag) arg ws)) :=
      hperformed (by rintro _ ⟨⟩) (reqGoes_queued_ply ..)
    refine ⟨?rd, ?wr, ?message, ?request⟩
    case rd =>
      exact fun words hlength => congrArg Host.Outcome.next
        ((hperformed (by rintro _ ⟨⟩) (reqGoes_queued_rd ..)).trans (if_neg (not_not_intro hlength)))
    case wr =>
      exact fun words hlength hstream => congrArg Host.Outcome.next
        ((hperformed (by rintro _ ⟨⟩) (reqGoes_queued_wr s p seq (some tag) hstream)).trans (if_neg (not_not_intro hlength)))
    case message =>
      rintro arg h ws k t hk hlength hop hplain rfl hpath
      exact congrArg Host.Outcome.next ((hply arg (h :: ws)).trans (hostPly_of_message hk hlength hop hpath hplain))
    case request =>
      rintro arg h ws k m t rfl hk hlength hop hasks rfl hpath hspace
      exact congrArg Host.Outcome.next ((hply arg (h :: ws)).trans (hostPly_of_request hk hlength hop hpath rfl hasks hspace))
  case waits =>
    exact fun hnone hok hfull words => congrArg Host.Outcome.next
      (hostPacket_of_waiting hactive hseq hnone hok ((reqGoes_queued_rd s p seq (some tag) words).trans hfull))
  case full => exact fun hfull hstay words => congrArg Host.Outcome.next (hostPacket_of_full hactive hseq hfull hstay _)

end Sys2Proof.Machine
end

section
/-! The link layer of an ACTIVE port (R453–R456): errors, acknowledgement, replay and credits. -/
namespace Sys2Proof.Machine

section
variable {s : State} {p : Nat} (hactive : (port s p).state = 5)
include hactive

/-- An ACK frees what the host has (R454). -/
theorem linkAck_of_active {seq : BitVec 12} {seqs : List (BitVec 12)} (hseqs : seqs = (ackedPkts (port s p) seq).map (·.seq)) :
    linkAck p seq s = forEach (List.range 16) (freeEntries p seqs)
      (s.setPort p { port s p with unacked := (port s p).unacked.filter (fun k => !seqs.contains k.seq) }) := by
  subst hseqs
  exact if_neg (not_not_intro hactive)
/-- CREDIT adds to its class (R455). -/
theorem linkCredit_of_active {c : Nat} (hlow : 1 ≤ c) (hhigh : c ≤ 4) (hgranted : (port s p).regrant.contains c = false) (n : Nat) :
    linkCredit p c n s = s.setPort p { port s p with credits := (port s p).credits.set 0 c (creditOf (port s p) c + n) } := by
  have hclass : ¬ ((port s p).state ≠ 5 ∨ c < 1 ∨ 4 < c) := by
    rintro (h | h | h)
    · exact h hactive
    · omega
    · omega
  simp only [linkCredit, hclass, hgranted, Bool.false_eq_true, if_false]
end

/-- Settles O43: a port that is ACTIVE acts on each block and timeout of its link layer. -/
theorem linkLayer : Obligations.LinkLayer := by
  rintro s p x rfl hactive
  exact ⟨congrArg Host.Outcome.next (if_pos hactive),
    fun seq seqs hseqs => congrArg Host.Outcome.next (linkAck_of_active hactive hseqs),
    fun seq => congrArg Host.Outcome.next (if_pos hactive),
    congrArg Host.Outcome.next (if_pos hactive),
    fun c n hlow hhigh hgranted => congrArg Host.Outcome.next (linkCredit_of_active hactive hlow hhigh hgranted n.toNat)⟩

end Sys2Proof.Machine
end

section
/-! Packets to a host (R452–R455, R464–R468): what a port sends while credit lasts, and what arrives at its mailboxes. -/
namespace Sys2Proof.Machine

/-! ## What a port sends -/

section
variable {s s1 : State} {p : Fin 4} (hs1 : s1 = serveWins p s)
include hs1

section
variable {act : Nat → Word → State → State} {r : Rsp} {rest : List Rsp} (hcredit : maySend s1 p 1 = true)
  (hitems : (port s1 p).rspq.items = r :: rest) (hok : (port s1 p).rspq.ok = true)
include hcredit hitems hok

/-- The oldest RSP is sent (R460). -/
theorem rspSend_of_plain (hafter : r.after = none) : rspSend p act s =
    sendPkt p 1 4 r.tag r.status 0 r.words (s1.setPort p { port s1 p with rspq := (port s1 p).rspq.pop 64 }) := by
  subst hs1
  simp only [rspSend, hcredit, hitems, hok, hafter, Bool.not_true, Bool.false_eq_true, if_false, if_true]
/-- What waits for the oldest RSP takes effect once it is sent (R478). -/
theorem rspSend_of_after {a : Nat} {v : Word} (hafter : r.after = some (a, v)) : rspSend p act s = act a v
    (sendPkt p 1 4 r.tag r.status 0 r.words (s1.setPort p { port s1 p with rspq := (port s1 p).rspq.pop 64 })) := by
  subst hs1
  simp only [rspSend, hcredit, hitems, hok, hafter, Bool.not_true, Bool.false_eq_true, if_false, if_true]
end

/-- The mailbox whose turn it is sends its next request, where it has no response and no refusal to send (R464, R465). -/
theorem mbxSend_of_request {m : Nat} {e : MbxEnt} (hcredit : maySend s1 p 2 = true) (hok : qBad s1 p 2 = false)
    (hturn : nextInTurn ((List.range 16).filter (fun m => (mboxNext (mbox s1 p m)).isSome))
      (if (port s1 p).mbxTurn = 0 then none else some ((port s1 p).mbxTurn - 1)) = some m)
    (hnext : mboxNext (mbox s1 p m) = some e) (hresp : unsent (mbox s1 p m).resp = none) (hstore : unsent (mbox s1 p m).store = none) :
    mbxSend p s = sendPkt p 2 5 0 stOk m (mbxWords e.pkt)
      ((s1.setMbox p m { mbox s1 p m with inb := markSent (port s1 p).txSeq (mbox s1 p m).inb }).onPort p
        (fun x => { x with mbxTurn := m + 1 })) := by
  subst hs1
  simp only [mbxSend, hcredit, hok, hturn, hnext, hresp, hstore, Option.isSome_none, Bool.not_true, Bool.false_eq_true, if_false]
end

/-- The oldest record of the push queue is sent with its four words, as the port's master reads them (R468). -/
theorem ntfSend_of_queued {s s1 s2 : State} {p r : Nat} {rest : List Nat} {l : List DWord} (hback : (port s p).ntfBack = [])
    (hitems : (port s p).ntfq.items = r :: rest) (hok : (port s p).ntfq.ok = true) (hlive : memLive s = true)
    (hs1 : s1 = s.setPort p { port s p with ntfq := (port s p).ntfq, ntfBack := [] }) (hcredit : maySend s1 p 3 = true)
    (hwords : ntfWords p (ntfAddr p r / 8) 4 s1 = (l, s2)) :
    ntfSend p s = sendPkt p 3 6 0 stOk 0 l (s2.onPort p (fun x => { x with ntfq := (port s p).ntfq.pop 16 })) := by
  have hlive1 : memLive s1 = true := by rw [hs1]; exact hlive
  subst hs1
  simp only [ntfSend, hback, hok, List.take_nil, List.drop_nil, List.foldl_nil, hcredit, hlive1, hitems, hwords, Bool.not_true, Bool.false_and,
    Bool.or_self, Bool.false_eq_true, if_false]

/-! ## What arrives at the mailboxes -/

section
variable {s : State} {p : Fin 4} {k : Nat} (hruns : s.xng.stopped.contains (128 + p.val) = false)
include hruns

/-- A request enters its mailbox, which has room for it (R464). -/
theorem mboxArrive_of_request {s1 : State} {r : Packet} {m : Nat}
    (hnone : (List.range 4).find? (fun d => !(inbox s (laneKey (portOf s (.mbox p.val 0) k) true d)).isEmpty) = none)
    (hnext : nextReq s (portOf s (.mbox p.val 0) k) = some r) (hs1 : s1 = takeReq (portOf s (.mbox p.val 0) k) s)
    (hm : m = (r.dest.toNat - 0x1080) % 16) (hok : qBad s1 p (16 + m) = false) (hroom : (mbox s1 p m).inb.length < 16) :
    mboxArrive p k s = s1.setMbox p m { mbox s1 p m with
      inb := (mbox s1 p m).inb ++ [{ pkt := r, exit := portOf s (.mbox p.val 0) k, sent := none }] } := by
  subst hs1
  simp only [mboxArrive, hruns, hnone, hnext, ← hm, hok, hroom, Bool.false_eq_true, if_false, if_true]
/-- A response goes to the request that waits for it (R465). -/
theorem mboxArrive_of_response {d : Nat} {r : Packet} {rest : List Packet}
    (hfirst : (List.range 4).find? (fun d => !(inbox s (laneKey (portOf s (.mbox p.val 0) k) true d)).isEmpty) = some d)
    (hinbox : inbox s (laneKey (portOf s (.mbox p.val 0) k) true d) = r :: rest) :
    mboxArrive p k s = serveWins p (respToMbox p.val ((r.dest.toNat - 0x1080) % 16) r
      (s.setInbox (laneKey (portOf s (.mbox p.val 0) k) true d) rest)) := by
  simp only [mboxArrive, hruns, hfirst, hinbox, Bool.false_eq_true, if_false]
end

/-- Settles O44: a clause for each class of packet that is sent, and for what arrives at an attachment. -/
theorem portSends : Obligations.PortSends := by
  refine ⟨?rsp, ?mbx, ?ntf, ?request, ?response⟩
  case rsp =>
    rintro s s1 p r rest hs1 hcredit hitems hok s2 rfl
    exact ⟨fun hafter => congrArg (Host.Outcome.next ∘ serveAll) (rspSend_of_plain hs1 hcredit hitems hok hafter),
      fun a v hafter => congrArg (Host.Outcome.next ∘ serveAll) (rspSend_of_after hs1 hcredit hitems hok hafter),
      fun u hnone => grantReqs_of_none hnone (reqsWaiting u)⟩
  case mbx =>
    exact fun s s1 p m e hs1 hcredit hok hturn hnext hresp hstore =>
      congrArg Host.Outcome.next (mbxSend_of_request hs1 hcredit hok hturn hnext hresp hstore)
  case ntf =>
    exact fun s s1 s2 p r rest l hback hitems hok hlive hs1 hcredit hwords =>
      congrArg Host.Outcome.next (ntfSend_of_queued hback hitems hok hlive hs1 hcredit hwords)
  case request =>
    exact fun s s1 p k r m hruns hnone hnext hs1 hm hok hroom =>
      congrArg Host.Outcome.next (mboxArrive_of_request hruns hnone hnext hs1 hm hok hroom)
  case response =>
    exact fun s p k d r rest hruns hfirst hinbox => congrArg Host.Outcome.next (mboxArrive_of_response hruns hfirst hinbox)

end Sys2Proof.Machine
end

section
/-! Consumed notification records, batches and domain resets (R468, R471–R475, R483, R486). -/
namespace Sys2Proof.Machine

section
variable {s : State} {p : Fin 4}

/-- RPTR moves up to WPTR while no lost records wait to be told (R468). -/
theorem rptrWrite_of_within {v : Word}
    (hwithin : (v - s.regP p .hlkNtfRptr 0 0).toNat ≤ (s.regP p .hlkNtfWptr 0 0 - s.regP p .hlkNtfRptr 0 0).toNat)
    (hnone : s.ntf.owed.get 0 p = 0) : rptrWrite p v s = (s.setRegP p .hlkNtfRptr 0 0 v).stat stOk := by
  have howed : (s.setRegP p .hlkNtfRptr 0 0 v).ntf.owed.get 0 p = 0 := hnone
  simp only [rptrWrite, Nat.not_lt.2 hwithin, howed, ne_eq, not_true_eq_false, false_and, if_false]

section
variable (hfree : (batchOf s p).checking = none)
include hfree

/-- BATCH_DATA stages an entry where no check runs and the stage has room (R471). -/
theorem batchData_of_room (hroom : (batchOf s p).staged.length < 1024) (v : Word) : batchData p v s =
    (batchState p 1 (s.setBatch p { batchOf s p with
      staged := (batchOf s p).staged ++ [(s.regP p .batchAddr 0 0, v)] })).stat stOk := by
  have hchecking : (batchOf s p).checking.isSome = false := by rw [hfree]; rfl
  simp only [batchData, hchecking, Nat.not_le.2 hroom, Bool.false_eq_true, if_false]
/-- The staged entries go to the check where none runs and fewer than two batches are pending (R472). -/
theorem beginCheck_of_free (hpending : (pendingOf s p).length < 2) (at_ : Option Tick) : beginCheck p at_ s =
    (batchState p 2 (s.setBatch p { staged := [], checking := some ((batchOf s p).staged, at_) })).stat stOk := by
  refine if_neg ?_
  rw [hfree]
  simpa using hpending
end

/-- A check without failure accepts the batch for its tick (R472, R473). -/
theorem checkDone_of_pass {l : List (Word × Word)} {at_ : Option Tick} (hchecking : (batchOf s p).checking = some (l, at_)) {s1 : State}
    (hs1 : s1 = s.setBatch p { batchOf s p with checking := none }) {t : Tick} (ht : t = at_.getD (nextCommit s1.now))
    {direct : State → Reg → Nat → Nat → Word → Status} (hpass : batchCheck direct s1 p l t = none)
    (hahead : tickLt t (s1.now + 8192) = false) : checkDone direct p s = batchStat p 3 stOk
      { s1 with host := { s1.host with accepted := s1.host.accepted ++ [{ port := p, entries := l, tick := t }] } } := by
  subst hs1 ht
  simp only [checkDone, hchecking, hpass, hahead, Bool.false_eq_true, if_false]
end

/-- Settles O45: each command of a batch under the condition of its rule, served after release. -/
theorem batchCommands : Obligations.BatchCommands := by
  intro s p hreleased
  refine ⟨?rptr, ?data, ?commit, ?discard, ?checked, ?reset⟩
  case rptr =>
    exact fun v hwithin hnone => congrArg Host.Outcome.next (served_of_released hreleased (rptrWrite_of_within hwithin hnone))
  case data => exact fun v hfree hroom => congrArg Host.Outcome.next (served_of_released hreleased (batchData_of_room hfree hroom v))
  case commit =>
    exact fun hfree hpending =>
      ⟨congrArg Host.Outcome.next (served_of_released hreleased (beginCheck_of_free hfree hpending none)),
        congrArg Host.Outcome.next (served_of_released hreleased (beginCheck_of_free hfree hpending (some (atTick s p))))⟩
  case discard => exact fun hchecking => congrArg Host.Outcome.next (served_of_released hreleased (if_pos hchecking))
  case checked =>
    exact fun l at_ s1 t hchecking hs1 ht hpass hahead => congrArg Host.Outcome.next (checkDone_of_pass hchecking hs1 ht hpass hahead)
  case reset =>
    intro d hmay
    refine congrArg Host.Outcome.next (served_checked hreleased (allow_of_true ?_) _)
    rcases hmay with rfl | rfl
    · rfl
    · simp

end Sys2Proof.Machine
end

section
/-! The fuses only gain (R549–R560), and what is refused before release (R509, R515). -/
namespace Sys2Proof.Machine

/-- Fuses that only gain never take the security state back (R556). -/
theorem secState_le_of_ext {s t : State} (h : s.sec.fuses.Ext t.sec.fuses) : secState s ≤ secState t := by
  unfold secState
  cases hsealed : s.sec.fuses.sealed_
  case true => simp [h.sealed hsealed]
  case false =>
    cases howned : s.sec.fuses.owned
    case true =>
      simp only [h.owned howned, Bool.false_eq_true, if_true, if_false]
      split <;> decide
    case false => simp

/-- Settles O4: a step keeps Ev, whose fuses hold all that they held before. -/
theorem fusesOnlyGain : Obligations.FusesOnlyGain := by
  intro s t hs hstep
  have hext : s.sec.fuses.Ext t.sec.fuses := ((ev_of_step hstep).fuse hs.sec).2
  exact ⟨hext.owned, hext.sealed, hext.slots, hext.revoked, hext.retired, hext.rollback, secState_le_of_ext hext⟩

section
variable {s : State} (hbefore : beforeRelease s = true)
include hbefore

/-- Before release a register's command is not looked at (R509). -/
theorem served_of_beforeRelease (act : State → State) : served act s = s.stat stBusy := if_pos hbefore
/-- Before release a register's read answers no value (R509). -/
theorem servedRead_of_beforeRelease (act : State → State) : servedRead act s = s.finish stBusy [0] := if_pos hbefore
end

/-- Settles O8: each command and each read of the list is one that is served after release. -/
theorem busyBeforeRelease : Obligations.BusyBeforeRelease := by
  intro s p q v n ch b hi k x t m c hbefore
  constructor
  · revert c
    simp only [List.forall_mem_cons, List.not_mem_nil, false_imp_iff, implies_true, and_true]
    and_intros <;> exact congrArg Host.Outcome.next (served_of_beforeRelease hbefore _)
  · revert c
    simp only [List.forall_mem_cons, List.not_mem_nil, false_imp_iff, implies_true, and_true]
    and_intros <;> exact congrArg Host.Outcome.next (servedRead_of_beforeRelease hbefore _)

end Sys2Proof.Machine
end

section
/-! Security commands and fuse programs (R549, R553–R560, R573, R637). -/
namespace Sys2Proof.Machine

/-! ## The checks of a security command -/

/-- The checks of a command stand in the order of its list. -/
theorem firstBad_append (l k : List Status) : firstBad (l ++ k) = if firstBad l = stOk then firstBad k else firstBad l := by
  induction l with
  | nil => rfl
  | cons x l ih =>
    by_cases hx : x = stOk
    case pos => simpa [firstBad, hx] using ih
    case neg => simp [firstBad, hx]
/-- A check that fails goes before those after it. -/
theorem firstBad_cons_of_ne {x : Status} (hx : x ≠ stOk) (l : List Status) : firstBad (x :: l) = x := if_neg hx
/-- A condition that fails gives RANGE. -/
theorem within_of_false {b : Bool} (h : b = false) : within b = stRange := by rw [h]; rfl
/-- A state that accepts the command passes its check. -/
theorem supported_of_true {b : Bool} (h : b = true) : supported b = stOk := if_pos h
/-- A state that does not accept the command gives UNSUPPORTED. -/
theorem supported_of_false {b : Bool} (h : b = false) : supported b = stUnsupported := by rw [h]; rfl

section
variable {s : State} {p : Nat} (hfree : secBusy s p = false)
include hfree

/-- A security command that passes its checks acts (R573). -/
theorem secCommand_of_ok {l : List Status} (hok : firstBad l = stOk) (op : Nat) (act : State → State) : secCommand p op l act s = act s := by
  have hallowed : l.headD stOk ≠ stDenied := by
    cases l with
    | nil => decide
    | cons x l => rw [List.headD_cons, firstBad_ok hok x List.mem_cons_self]; decide
  simp only [secCommand, hallowed, hfree, hok, Bool.false_eq_true, if_true, if_false]
/-- A security command of its own port that does not pass its checks completes with the first that fails (R573). -/
theorem secCommand_of_bad {l : List Status} {st : Status} (hst : firstBad l = st) (hne : st ≠ stOk) (hallowed : l.headD stOk = stOk)
    (op : Nat) (act : State → State) : secCommand p op l act s = secDone p op st s := by
  have hmay : stOk ≠ stDenied := by decide
  simp only [secCommand, hallowed, hmay, hfree, hst, hne, Bool.false_eq_true, if_false]
end

/-- The checks of a fuse command from the owner, where its own pass and a program may begin. -/
theorem firstBad_fuse_of_ok {s : State} {l : List Status} (hok : firstBad l = stOk) (hready : firstBad (fuseStatus s) = stOk) :
    firstBad (allow true :: (l ++ fuseStatus s)) = stOk :=
  firstBad_cons_of_ok rfl ((firstBad_append l _).trans ((if_pos hok).trans hready))
/-- The checks of a command from the owner, where one of its own fails. -/
theorem firstBad_owner_of_bad {l : List Status} {st : Status} (hst : firstBad l = st) (hne : st ≠ stOk) (k : List Status) :
    firstBad (allow true :: (l ++ k)) = st := by
  have happend : firstBad (l ++ k) = st := (firstBad_append l k).trans ((if_neg (hst ▸ hne)).trans hst)
  exact (if_pos rfl).trans happend

section
variable {s : State} (hfree : secBusy s 0 = false)
include hfree

/-- A fuse command of the owner that passes its checks begins its program (R555). -/
theorem fuseCommand_of_ok {l : List Status} (hok : firstBad l = stOk) (hready : firstBad (fuseStatus s) = stOk) (op : Nat) (f : FuseOp) :
    fuseCommand 0 op l f s = startFuse 0 op f s := by
  have hall := firstBad_fuse_of_ok hok hready
  have hfault : (!secBusy s 0 && stOk == stFault) = false := by simp [stOk, stFault]
  simp only [fuseCommand, beq_self_eq_true, hall, hfault, Bool.false_eq_true, if_false]
  exact secCommand_of_ok hfree hall op _
/-- A fuse command of the owner that its own checks refuse programs nothing (R573). -/
theorem fuseCommand_of_bad {l : List Status} {st : Status} (hst : firstBad l = st) (hne : st ≠ stOk) (hsound : st ≠ stFault) (op : Nat)
    (f : FuseOp) : fuseCommand 0 op l f s = secDone 0 op st s := by
  have hall := firstBad_owner_of_bad hst hne (fuseStatus s)
  have hfault : (!secBusy s 0 && st == stFault) = false := by simp [hsound]
  simp only [fuseCommand, beq_self_eq_true, hall, hfault, Bool.false_eq_true, if_false]
  exact secCommand_of_bad hfree hall hne rfl op _
/-- Without its confirmation a fuse command that the security state accepts answers RANGE (R559). -/
theorem fuseCommand_of_unconfirmed {st : Status} (hstate : st = stOk) {b : Bool} (hbad : b = false) (op : Nat) (f : FuseOp) :
    fuseCommand 0 op [st, within b] f s = secDone 0 op stRange s :=
  fuseCommand_of_bad hfree (by rw [hstate, within_of_false hbad]; rfl) (by decide) (by decide) op f
/-- ADVANCE_ROLLBACK without its confirmation programs nothing, whether or not the counter needs a step (R559, R560). -/
theorem advanceRollback_of_unconfirmed {v : Word} (hstate : (secState s != 0 && s.sec.slotUsed.isSome) = true) (hbad : confirmed v = false) :
    advanceRollback 0 v s = secDone 0 5 stRange s := by
  have hst : firstBad [supported (secState s != 0 && s.sec.slotUsed.isSome), within (confirmed v)] = stRange := by
    rw [supported_of_true hstate, within_of_false hbad]
    rfl
  unfold advanceRollback
  split
  case isTrue => exact secCommand_of_bad hfree (firstBad_owner_of_bad hst (by decide) _) (by decide) rfl 5 _
  case isFalse => exact fuseCommand_of_bad hfree hst (by decide) (by decide) 5 _
end

/-! ## Fuse programs -/

/-- FUSE_RETIRE of the owner that passes its checks begins its program (R549). -/
theorem fuseRetire_of_ok {s : State} {v : Word} (hretired : s.dst.retRt.any (fun e => e.tile == fld v 11 0) = true)
    (hroom : s.sec.fuses.retired.length < 128) (hidle : fuseBusy s = false) (hvfuse : s.sec.vfuseOk = true) :
    fuseRetire 0 v s = ((s.onSec (fun x => { x with fuseOp := some (.retire 0 (fld v 11 0)) })).setReg .scrubFuseStat 0
      (fuseStatWord true stOk)).stat stOk := by
  refine if_pos ?_
  rw [hretired, decide_eq_true hroom, hidle, hvfuse]
  rfl
/-- The end of a program brings its item into force (R555). -/
theorem fuseDone_of_running {s : State} {f : FuseOp} (h : s.sec.fuseOp = some f) :
    fuseDone s = fuseNotice f (fuseForce f (fuseTarget f) (fuseEnd f stOk s)) := by
  simp only [fuseDone, h]
/-- VFUSE_LOST cuts a program of SEC_CMD short (R637). -/
theorem vfuseLost_of_running {s : State} {f : FuseOp} {op : Nat} (h : s.sec.fuseOp = some f) (hop : fuseCode f = some op) :
    vfuseLost s = notifyOwner 0x37 0 [w32 op] (fuseEnd f stFault (fuseCut f (s.onSec (fun x => { x with vfuseOk := false })))) := by
  simp only [vfuseLost, h, hop]
/-- What a level forbids of the probes is in the registers alone (R563). -/
theorem sealProbes_eq (s : State) : ∃ m, sealProbes s = { s with regs := m } := by
  refine List.foldlRecOn (motive := fun t : State => ∃ m, t = { s with regs := m }) _ _ ⟨s.regs, rfl⟩ ?_
  rintro t ⟨m, rfl⟩ j -
  dsimp only
  split
  · exact ⟨_, rfl⟩
  · exact ⟨m, rfl⟩
theorem sealProbes_sec (s : State) : (sealProbes s).sec = s.sec := by
  obtain ⟨m, hm⟩ := sealProbes_eq s
  rw [hm]

/-- Settles O52: each fuse command under its checks, and the two ends of a program. -/
theorem fusePrograms : Obligations.FusePrograms := by
  intro s
  refine ⟨fun hfree hready => ⟨?own, ?slot, ?revoke, ?sealing, ?rollback, ?retire⟩, ?done, ?lost⟩
  case own =>
    intro v hopen hconfirmed hsigned hhash
    refine congrArg Host.Outcome.next (fuseCommand_of_ok hfree ?_ hready 1 _)
    exact firstBad_cons_of_ok (supported_of_true (by simp [hopen]))
      (firstBad_cons_of_ok (within_of_true (by simp [hconfirmed, hsigned, hhash])) rfl)
  case slot =>
    intro v howned hconfirmed hindex hempty
    refine congrArg Host.Outcome.next (fuseCommand_of_ok hfree ?_ hready 2 _)
    exact firstBad_cons_of_ok (supported_of_true (by simp [howned]))
      (firstBad_cons_of_ok (within_of_true (by simp [hconfirmed, hindex, hempty])) rfl)
  case revoke =>
    intro v howned hconfirmed hwritten hleft
    refine congrArg Host.Outcome.next (fuseCommand_of_ok hfree ?_ hready 3 _)
    exact firstBad_cons_of_ok (supported_of_true (by simp [howned]))
      (firstBad_cons_of_ok (within_of_true (by rw [hconfirmed, hwritten, hleft]; rfl)) rfl)
  case sealing =>
    intro v howned hconfirmed
    refine congrArg Host.Outcome.next (fuseCommand_of_ok hfree ?_ hready 4 _)
    exact firstBad_cons_of_ok (supported_of_true (by simp [howned])) (firstBad_cons_of_ok (within_of_true hconfirmed) rfl)
  case rollback =>
    intro v howned hused hconfirmed hbelow
    refine congrArg Host.Outcome.next ((if_neg (Nat.not_le.2 hbelow)).trans (fuseCommand_of_ok hfree ?_ hready 5 _))
    exact firstBad_cons_of_ok (supported_of_true (by simp [howned, hused])) (firstBad_cons_of_ok (within_of_true hconfirmed) rfl)
  case retire =>
    exact fun v hreleased hretired hroom hidle hvfuse =>
      congrArg Host.Outcome.next (served_of_released hreleased (fuseRetire_of_ok hretired hroom hidle hvfuse))
  case done => exact fun f hf => congrArg Host.Outcome.next (fuseDone_of_running hf)
  case lost => exact fun f op hf hop => congrArg Host.Outcome.next (vfuseLost_of_running hf hop)

/-- Settles O53: a command that is not confirmed completes with RANGE, SEAL outside Owned with UNSUPPORTED, and SEAL's program sets SEALED. -/
theorem irreversibleCommands : Obligations.IrreversibleCommands := by
  intro s v
  refine ⟨fun hfree => ⟨?unconfirmed, ?outside⟩, ?ends⟩
  case unconfirmed =>
    intro hbad c hc
    have hrange : ∃ op, exec c s = .next (secDone 0 op stRange s) := by
      obtain ⟨hopen, rfl⟩ | ⟨howned, hc⟩ | ⟨howned, rfl⟩ | ⟨howned, hused, rfl⟩ := hc
      · exact ⟨1, congrArg Host.Outcome.next (fuseCommand_of_unconfirmed hfree (supported_of_true (by simp [hopen])) (by simp [hbad]) _ _)⟩
      · obtain rfl | rfl : c = .programSlot 0 v ∨ c = .seal 0 v := by simpa using hc
        · exact ⟨2, congrArg Host.Outcome.next (fuseCommand_of_unconfirmed hfree (supported_of_true (by simp [howned])) (by simp [hbad]) _ _)⟩
        · exact ⟨4, congrArg Host.Outcome.next (fuseCommand_of_unconfirmed hfree (supported_of_true (by simp [howned])) hbad _ _)⟩
      · exact ⟨3, congrArg Host.Outcome.next
          (fuseCommand_of_unconfirmed hfree (supported_of_true (by simp [howned])) (by rw [hbad]; rfl) _ _)⟩
      · exact ⟨5, congrArg Host.Outcome.next (advanceRollback_of_unconfirmed hfree (by simp [howned, hused]) hbad)⟩
    obtain ⟨op, hnext⟩ := hrange
    exact ⟨_, hnext, rfl, rfl, rfl⟩
  case outside =>
    intro hstate
    have hst : firstBad [supported (secState s == 1), within (confirmed v)] = stUnsupported := by
      rw [supported_of_false (beq_false_of_ne hstate)]
      exact firstBad_cons_of_ne (by decide) _
    exact ⟨_, congrArg Host.Outcome.next (fuseCommand_of_bad hfree hst (by decide) (by decide) 4 _), rfl, rfl⟩
  case ends =>
    intro p hp
    refine ⟨_, _, congrArg Host.Outcome.next (fuseDone_of_running hp), rfl, ?_, ?_⟩
    · simp only [fuseNotice, notifyOwner_sec, fuseForce, sealProbes_sec]
      rfl
    · simp only [fuseNotice, notifyOwner_sec, fuseForce, sealProbes_sec]
      rfl

end Sys2Proof.Machine
end

section
/-! Reports and the ledger's registers (R564–R574). -/
namespace Sys2Proof.Machine

/-- ATTEST starts a report where no command of the port runs and reports are served (R567). -/
theorem attest_of_idle {s : State} {p : Fin 4} (hfree : secBusy s p = false) (hidle : reportBusy s p = false) :
    attest p s = startReport p 6 1 s :=
  secCommand_of_ok hfree (firstBad_cons_of_ok (busyIf_of_false hidle) rfl) 6 _
/-- SIGN_HEAD of the owner starts a report once a record exists (R567). -/
theorem signHead_of_idle {s : State} (hfree : secBusy s 0 = false) (hidle : reportBusy s 0 = false) (hhead : s.sec.ledNext ≠ 0) :
    signHead 0 s = startReport 0 7 2 s := by
  have hexists : within (s.sec.ledNext != 0) = stOk := within_of_true (by simpa using hhead)
  exact secCommand_of_ok hfree
    (firstBad_cons_of_ok (allow_of_true rfl) (firstBad_cons_of_ok (busyIf_of_false hidle) (firstBad_cons_of_ok hexists rfl))) 7 _

section
variable {s : State} {p : Fin 4} {kind : BitVec 8} {ws : List Word} {rest : List (Fin 4 × BitVec 8 × List Word)}
  (hfirst : s.sec.reports = (p, kind, ws) :: rest)
include hfirst

/-- The first report to be signed is stored with its signature; a report of no ledger head adds no record (R568). -/
theorem reportDone_of_state (hkind : kind ≠ 2) : reportDone s = reportNotice p kind stOk (ws.getD 39 0)
    ((putPortRegs p .secRpt 0 (ws ++ reportSig s (sha256 (bytesOfWords ws)))
      ((s.nextFree).onSec (fun x => { x with reports := rest }))).setRegP p .secCmdStat 0 0 (secStatWord false 6 stOk)) := by
  simp only [reportDone, hfirst, hkind, if_false]
/-- A signed ledger head is a record of the ledger too (R564, R568). -/
theorem reportDone_of_head (hkind : kind = 2) : reportDone s =
    ledgerRecord 9 0 0 0 0 [ws.getD 39 0, ws.getD 40 0] (sha256 (bytesOfWords ws)) (reportNotice p kind stOk (ws.getD 39 0)
      ((putPortRegs p .secRpt 0 (ws ++ reportSig s (sha256 (bytesOfWords ws)))
        ((s.nextFree).onSec (fun x => { x with reports := rest }))).setRegP p .secCmdStat 0 0 (secStatWord false 7 stOk))) := by
  simp only [reportDone, hfirst, hkind, if_true]
end

/-- The owner acknowledges the records up to one that exists (R574). -/
theorem ledgerAck_of_existing {s : State} {v : Word} (hforward : s.sec.ledAck ≤ seqOf s 0 .secLedgerAckHi v + 1)
    (hexists : seqOf s 0 .secLedgerAckHi v < s.sec.ledNext) : ledgerAck 0 v s =
      (waitOver ((s.onSec (fun x => { x with ledAck := seqOf s 0 .secLedgerAckHi v + 1 })).setReg .secLedgerAckLo 0 v)).stat stOk :=
  checked_of_ok (firstBad_cons_of_ok (allow_of_true rfl)
    (firstBad_cons_of_ok (within_of_true (decide_eq_true ⟨hforward, hexists⟩)) rfl)) _ s

/-- Settles O54: requests for reports, their two completions, and the ledger's registers. -/
theorem reportsAndLedger : Obligations.ReportsAndLedger := by
  intro s
  refine ⟨?attest, ?signHead, ?report, ?head, ?ack, fun p v r hr => ⟨?selected, ?denied⟩, ?seq⟩
  case attest => exact fun p hfree hidle => congrArg Host.Outcome.next (attest_of_idle hfree hidle)
  case signHead => exact fun hfree hidle hhead => congrArg Host.Outcome.next (signHead_of_idle hfree hidle hhead)
  case report => exact fun p ws rest hfirst => congrArg Host.Outcome.next (reportDone_of_state hfirst (by decide))
  case head =>
    rintro p ws rest h hfirst rfl
    exact congrArg Host.Outcome.next (reportDone_of_head hfirst rfl)
  case ack =>
    rintro v q rfl hforward hexists
    exact congrArg Host.Outcome.next (ledgerAck_of_existing hforward hexists)
  case selected =>
    subst hr
    exact fun hmay => congrArg Host.Outcome.next (if_neg hmay)
  case denied =>
    subst hr
    exact fun hdenied => congrArg Host.Outcome.next (if_pos hdenied)
  case seq => rfl

end Sys2Proof.Machine
end

section
/-! Observation (R603–R617): counters, probes, the trace writer, COUNTER_READ and the TAP. -/
namespace Sys2Proof.Machine

/-! ## Registers of the block (R603–R609, R617) -/

/-- A source that is legal and the port's own passes the checks of the port's counter (R603–R605). -/
theorem cntSrcStatus_of_ok {s : State} {p k : Nat} {v : Word} (hown : p = 0 ∨ p = k / 128) (hlegal : srcOk false v = true)
    (hmine : srcMine s p v = true) : cntSrcStatus s p k v = stOk :=
  firstBad_cons_of_ok (allow_of_true (by simpa using hown))
    (firstBad_cons_of_ok (within_of_true hlegal) (firstBad_cons_of_ok (allow_of_true hmine) rfl))
/-- A source that is legal, the port's own and within its level passes the checks of the port's probe (R561, R603, R604, R609). -/
theorem probeSrcStatus_of_ok {s : State} {p j : Nat} {v : Word} (hown : p = 0 ∨ (p = j / 4 ∧ obsLevel s = 0)) (hlegal : srcOk true v = true)
    (hmine : srcMine s p v = true) (hlevel : obsLevel s = 2 → srcClass v < 9) : probeSrcStatus s p j v = stOk := by
  have hshown : (!(obsLevel s == 2 && sealedClass v)) = true := by
    by_cases h : obsLevel s = 2
    case pos => simp [sealedClass, hlevel h]
    case neg => simp [h]
  exact firstBad_cons_of_ok (allow_of_true (by simpa using hown)) (firstBad_cons_of_ok (within_of_true hlegal)
    (firstBad_cons_of_ok (allow_of_true hmine) (firstBad_cons_of_ok (allow_of_true hshown) rfl)))

/-! ## Probes and the trace writer (R609, R610) -/

/-- An occurrence at a probe that has room becomes its newest record (R609). -/
theorem probeOccurs_of_room {s : State} {j : Nat} (hset : s.reg .obsProbeSrc j ≠ 0) (hlive : coreLive s = true)
    (hroom : (probe s j).q.length < 16) (data : Word) (time : Tick) {w : List Word}
    (hw : w = probeWords j (s.reg .obsProbeSrc j) (probe s j).lostFlag data
      (if srcClass (s.reg .obsProbeSrc j) = 11 then time else s.now &&& ~~~(0x1FF : BitVec 64))) :
    probeOccurs j data time s = (s.setProbe j { probe s j with q := (probe s j).q ++ [w], lostFlag := false, last := w }).onObs
      (fun o => { o with order := o.order ++ [j] }) := by
  subst hw
  simp only [probeOccurs, hset, hlive, Nat.not_le.2 hroom, decide_false, Bool.not_true, Bool.or_self, Bool.false_eq_true, if_false]
/-- The writer takes the oldest record of all probes (R610). -/
theorem traceWriter_of_record {s : State} {j : Nat} {t : List Nat} {w : List Word} {r : List (List Word)} (horder : s.obs.order = j :: t)
    (hq : (probe s j).q = w :: r) (hlive : s.memory.vret = false) : traceWriter s =
      trcRecord w (bufferRecord j w ((s.setProbe j { probe s j with q := r }).onObs (fun o => { o with order := t }))) := by
  simp only [traceWriter, horder, hq, hlive, Bool.false_eq_true, if_false]

/-- Settles O57: the registers served after release, and the events of tallies, probes and the writer. -/
theorem observation : Obligations.Observation := by
  intro s
  refine ⟨?counter, ?probe, ?snapshot, ?tally, ?record, ?writer, ?read⟩
  case counter =>
    exact fun p k v hreleased hown hlegal hmine =>
      congrArg Host.Outcome.next (served_checked hreleased (cntSrcStatus_of_ok (hown.imp_left (congrArg Fin.val)) hlegal hmine) _)
  case probe =>
    exact fun p j v hreleased hown hlegal hmine hlevel =>
      congrArg Host.Outcome.next (served_checked hreleased (probeSrcStatus_of_ok (hown.imp_left (congrArg Fin.val)) hlegal hmine hlevel) _)
  case snapshot => exact fun p hreleased => congrArg Host.Outcome.next (served_of_released hreleased rfl)
  case tally => rfl
  case record =>
    rintro j data time x w rfl hset hlive hroom hw
    exact congrArg Host.Outcome.next (probeOccurs_of_room hset hlive hroom data time hw)
  case writer => exact fun j t w r horder hq hlive => congrArg Host.Outcome.next (traceWriter_of_record horder hq hlive)
  case read =>
    exact fun p k hreleased hown =>
      congrArg Host.Outcome.next ((servedRead_of_released hreleased _).trans (if_pos (hown.imp_left (congrArg Fin.val))))

/-! ## COUNTER_READ (R614) -/

/-- Taking a request from an inbox leaves the counters as they are. -/
@[simp] theorem takeReqIf_obs (ok : Packet → Bool) (port : Nat) (s : State) : (takeReqIf ok port s).obs = s.obs := by
  unfold takeReqIf
  split
  · rfl
  · rfl
/-- Of numbers given two words each, word 2i is the first of the i-th, and word 2i + 1 the second. -/
theorem getD_flatMap_pair {α : Type} (f g : Nat → α) (n k i : Nat) (hi : i < n) (d : α) :
    ((List.range' k n).flatMap (fun j => [f j, g j])).getD (2 * i) d = f (k + i) ∧
      ((List.range' k n).flatMap (fun j => [f j, g j])).getD (2 * i + 1) d = g (k + i) := by
  induction n generalizing k i with
  | zero => exact absurd hi (Nat.not_lt_zero i)
  | succ n ih =>
    rw [List.range'_succ, List.flatMap_cons]
    cases i with
    | zero => exact ⟨rfl, rfl⟩
    | succ i =>
      have hrest := ih (k + 1) i (Nat.lt_of_succ_lt_succ hi)
      rw [Nat.add_right_comm, Nat.add_assoc] at hrest
      exact hrest
/-- A number's low word is that of its low 32 bits. -/
theorem w32_mod (n : Nat) : w32 (n % 2 ^ 32) = w32 n := BitVec.eq_of_toNat_eq (by simp [w32])

/-- The two words of a counter (R614). -/
def counterWords (s : State) (c : Nat) : List Word := [w32 (obsCnt s c).count.toNat, w32 ((obsCnt s c).count.toNat / 2 ^ 32)]

section
variable {s : State} {d : Fin 4} {p : Packet} (hnext : nextReq s (portOf s .obs 0) = some p) (hdom : p.dom = d) (hop : p.op = 2)
include hnext hdom hop

/-- COUNTER_READ answers the counters that the request names, each with its two words (R614). -/
theorem plyCntRead_of_inRange {k n : Nat} (hk : (p.words.getD 0 0).toNat = k) (hn : (p.words.getD 1 0).toNat = n)
    (hrange : ¬(n = 0 ∨ 8 < n ∨ 512 < k + n)) : plyCntRead d s =
      answer p stOk ((List.range n).flatMap (fun i => counterWords s (k + i))) (takeReq (portOf s .obs 0) s) := by
  subst hdom
  have hcounters : (takeReq (portOf s .obs 0) s).obs = s.obs := takeReqIf_obs _ _ _
  simp only [plyCntRead, hnext, hop, hk, hn, hrange, ne_eq, not_true_eq_false, or_self, if_false, obsCnt, hcounters, counterWords]
/-- COUNTER_READ refuses a request outside the counters or of too many (R614). -/
theorem plyCntRead_of_outside
    (hrange : (p.words.getD 1 0).toNat = 0 ∨ 8 < (p.words.getD 1 0).toNat ∨ 512 < (p.words.getD 0 0).toNat + (p.words.getD 1 0).toNat) :
    plyCntRead d s = refuseAtExit p stRange (takeReq (portOf s .obs 0) s) := by
  subst hdom
  simp only [plyCntRead, hnext, hop, hrange, ne_eq, not_true_eq_false, or_self, if_false, if_true]
end

/-- Settles O59: the words of the counters in ascending order, or RANGE. -/
theorem counterReads : Obligations.CounterReads := by
  rintro s s1 d p k n hnext hdom hop rfl rfl rfl
  refine ⟨fun hpos hmax hlast => ?inRange, fun hrange => ?outside⟩
  case inRange =>
    refine ⟨_, congrArg Host.Outcome.next (plyCntRead_of_inRange hnext hdom hop rfl rfl (by omega)), ?_, fun i hi => ?_⟩
    · simp [counterWords, Nat.mul_comm]
    · rw [w32_mod, List.range_eq_range']
      have hwords := getD_flatMap_pair (fun i => w32 (obsCnt s ((p.words.getD 0 0).toNat + i)).count.toNat)
        (fun i => w32 ((obsCnt s ((p.words.getD 0 0).toNat + i)).count.toNat / 2 ^ 32)) _ 0 i hi 0
      rwa [Nat.zero_add] at hwords
  case outside => exact congrArg Host.Outcome.next (plyCntRead_of_outside hnext hdom hop hrange)

/-! ## The TAP (R615) -/

/-- The identification register is its fields side by side. -/
theorem idWord_toNat : idWord.toNat = Config.maskStep.toNat % 2 ^ 4 * 2 ^ 28 + 0x4096 * 2 ^ 12 + 0x2B5 * 2 + 1 := by
  have hsides (m : Nat) : place 28 4 m + place 12 16 0x4096 + place 1 11 0x2B5 + 1 = m % 2 ^ 4 * 2 ^ 28 + 0x4096 * 2 ^ 12 + 0x2B5 * 2 + 1 := by
    simp only [place]
    omega
  rw [idWord, hsides]
  exact w32_toNat_of_lt (by omega)

/-- Settles O60: each instruction selects its register, and the fields of the identification word. -/
theorem boundaryScan : Obligations.BoundaryScan := by
  intro s
  refine ⟨rfl, ?low, ?part, ?maker, fun balls => rfl, fun code => rfl, rfl⟩
  case low => rw [idWord_toNat]; omega
  case part => rw [fld, idWord_toNat]; omega
  case maker => rw [fld, idWord_toNat]; omega

end Sys2Proof.Machine
end

section
/-! The commands of an image (R493–R505, R510–R512, R519). -/
namespace Sys2Proof.Machine

/-- A command that is ready runs on the load past it, and the image is read on (R493, R494). -/
theorem onCmd_of_ready {s s1 u : State} {op : Nat} {c : LCmd} {l l' : Load} (hready : LoadReady s op c l l') (h1 : s1 = s.onLoad (fun _ => l'))
    {act : LCmd → State → State} (hact : act c s1 = u) : onCmd op act s = scan (epochEnd (inEpoch l) c u) := by
  rw [onCmd_ready hready, ← h1, hact]
/-- A frames command of one record acts on that record (R498). -/
theorem eachRecord_of_one {c : LCmd} {off : Nat} {ess : DWord} {ws : List Word} (hcount : recordCount c = 1)
    (hrecord : recordOf c 0 = (off, ess, ws)) {act : Nat → DWord → List Word → State → Option (Nat × Nat) × State} {s u : State}
    (hact : act 0 ess ws s = (none, u)) : eachRecord c act (recordCount c) 0 s = u := by
  simp only [hcount, eachRecord, hrecord, hact]

/-- Whether a pair names one of the registers that DIR_END puts in force (R500, R503; log 43). -/
def setsDirReg (p : WPair) : Bool :=
  match regAt p.addr with
  | some (r, _, _) => dirReg r
  | none => false

section
variable {s : State} {c : LCmd} {l : Load} (hload : s.ldr.load = some l)
include hload

/-! ## The directory (R500–R503) -/

/-- SKEIN with a legal definition of a new skein enters it (R501). -/
theorem skeinCmd_of_legal (hcount : countOf c.word = 1 + 2 * fld (c.payload.headD 0) 16 12)
    (hnew : skeinOf l (fld (c.payload.headD 0) 31 24) = none) (hslots : fld (c.payload.headD 0) 16 12 ≤ 16)
    (hhigh : fld (c.payload.headD 0) 23 22 = 0) (hlow : fld (c.payload.headD 0) 11 0 = 0)
    (hdefs : (slotsOf (c.payload.drop 1)).all
      (slotDefOk ((fld (c.payload.headD 0) 21 20 + 1) * (fld (c.payload.headD 0) 19 18 + 1))) = true) :
    skeinCmd c s = s.onLoad (fun l => { l with skeins := l.skeins ++
      [{ index := fld (c.payload.headD 0) 31 24, w := fld (c.payload.headD 0) 21 20 + 1, h := fld (c.payload.headD 0) 19 18 + 1,
         nomove := bitOf (c.payload.headD 0) 17, slots := slotsOf (c.payload.drop 1) }] }) := by
  have hlegal : ¬(16 < fld (c.payload.headD 0) 16 12 ∨ fld (c.payload.headD 0) 23 22 ≠ 0 ∨ fld (c.payload.headD 0) 11 0 ≠ 0) := by omega
  simp only [skeinCmd, hload, hcount, hnew, hlegal, hdefs, ne_eq, not_true_eq_false, Option.isSome_none, decide_false, Bool.not_true,
    Bool.or_self, Bool.false_eq_true, if_false]

section
variable (hfull : l.partial_ = false)
include hfull

/-- WREG of a full image records its pairs once none of them fails (R500). -/
theorem wregCmd_of_full (hgood : firstBadPair (fun h p => fullPair h (l.section_ == 3) p) putPair (withPairs l.wregs s)
    (pairsOf (c.off + 1) c.payload) = none) :
    wregCmd c s = s.onLoad (fun l => { l with wregs := l.wregs ++ pairsOf (c.off + 1) c.payload }) := by
  simp only [wregCmd, hload, hfull, hgood, Bool.false_eq_true, if_false]
omit hload hfull in
/-- No entry is left where the words have ended. -/
theorem instEntries_nil (fuel : Nat) : instEntries c fuel [] s = s := by
  cases fuel with
  | zero => rfl
  | succ n => cases hcur : s.ldr.load <;> simp only [instEntries, hcur]
/-- INST of one legal entry of a full image enters what it declares (R502). -/
theorem instCmd_of_one {e : Word} {t : List Word} {d : SkeinDef} (hpayload : c.payload = e :: t) (hskein : skeinOf l (fld e 31 24) = some d)
    (hlength : t.length = 1 + d.slots.length) {i : Inst} (hi : i = entryInst d e (t.headD 0) ((t.drop 1).take d.slots.length))
    (hlegal : entryBad l e (t.headD 0) i = false) :
    instCmd c s = s.onLoad (fun l => { l with insts := l.insts ++ [i], instOffs := l.instOffs.put i.base (c.off + 1) }) := by
  have hrest : t.drop (1 + d.slots.length) = [] := List.drop_eq_nil_of_le hlength.le
  simp only [instCmd, hpayload, List.length_cons, instEntries, hload, hskein, ← hi, hlegal, hfull, hlength, hrest, Nat.lt_irrefl,
    decide_false, Bool.or_self, Bool.false_and, Bool.false_eq_true, if_false, Nat.sub_self, Nat.add_zero, instEntries_nil]
/-- DIR_END of a full image whose directory is consistent puts the directory's registers in force and moves to the frames (R503). -/
theorem dirEndCmd_of_full (hgood : fullDirError c l (withPairs l.wregs s) = none) :
    dirEndCmd c s = ((withPairs (l.wregs.filter setsDirReg) s).onLdr (fun x => { x with state := 2 })).onLoad
      (fun l => { l with section_ := 3, placed := false, dirEnd := c.off }) := by
  simp only [dirEndCmd, hload, hfull, hgood, Bool.false_eq_true, if_false]
  rfl

/-! ## Frames (R495–R499, R504) -/

/-- FRAMES_P of one record of a full image writes a frame of the system column (R495, R499). -/
theorem framesPCmd_of_one {off n : Nat} {a : Word} {ess : DWord} {ws : List Word} (ha : a = c.payload.headD 0) (hkind : fld a 31 30 = 1)
    (hhigh : fld a 29 19 = 0) (hsys : bitOf a 18 = true) (hmid : fld a 17 12 = 0) (hcount : recordCount c = 1)
    (hrecord : recordOf c 0 = (off, ess, ws)) (hn : n = 64 * fld a 11 6 + fld a 5 0) (hcolumn : n < 128)
    (hlegal : sysRecordOk n ess ws = true) : framesPCmd c s = writeEss (sysFrame + n) ess (writeFrame (sysFrame + n) ws s) := by
  subst ha hn
  unfold framesPCmd
  simp only [hkind, hhigh, hsys, hmid, ne_eq, not_true_eq_false, Bool.not_true, Bool.false_eq_true, or_self, decide_false, if_false]
  refine eachRecord_of_one hcount hrecord ?_
  have hheld : ¬4096 ≤ 64 * fld (c.payload.headD 0) 11 6 + fld (c.payload.headD 0) 5 0 := by omega
  simp only [hload, hfull, Nat.add_zero, hheld, hlegal, Bool.not_true, Bool.false_eq_true, if_false]
omit hload hfull in
/-- FRAMES_L of one record writes that frame of a mapped tile of the image (R495, R496). -/
theorem framesLCmd_of_one {off t : Nat} {a : Word} {ess : DWord} {ws : List Word} (ha : a = c.payload.headD 0) (hkind : fld a 31 30 = 2)
    (hhigh : fld a 29 18 = 0) (hcount : recordCount c = 1) (hrecord : recordOf c 0 = (off, ess, ws)) (hminor : fld a 5 0 < 40)
    (ht : t = fld a 17 6) (htile : t < 3968) (hinside : outside s t = false) (hmapped : mapped s t = true) :
    framesLCmd c s = putTileFrame (physOf s t) (fld a 5 0) ess ws s := by
  subst ha ht
  unfold framesLCmd
  simp only [hkind, hhigh, ne_eq, not_true_eq_false, or_self, decide_false, Bool.false_eq_true, if_false]
  refine eachRecord_of_one hcount hrecord ?_
  have hdiv : (40 * fld (c.payload.headD 0) 17 6 + fld (c.payload.headD 0) 5 0 + 0) / 40 = fld (c.payload.headD 0) 17 6 := by omega
  have hmod : (40 * fld (c.payload.headD 0) 17 6 + fld (c.payload.headD 0) 5 0 + 0) % 40 = fld (c.payload.headD 0) 5 0 := by omega
  simp only [hdiv, hmod, Nat.not_le.2 hminor, Nat.not_le.2 htile, hinside, hmapped, Bool.not_true, Bool.false_eq_true, if_false]
omit hfull in
/-- SKEIN_FRAMES of one record writes the frame, patched by the slots, at every place of the skein (R504). -/
theorem skeinFramesCmd_of_one {off k : Nat} {a : Word} {ess : DWord} {ws : List Word} {d : SkeinDef} (ha : a = c.payload.headD 0)
    (hskein : skeinOf l (fld a 31 24) = some d) (hk : k = fld a 23 20) (hshape : k < d.w * d.h) (hmid : fld a 19 6 = 0)
    (hcount : recordCount c = 1) (hrecord : recordOf c 0 = (off, ess, ws)) (hlogic : 8 ≤ fld a 5 0) (hminor : fld a 5 0 < 40) :
    skeinFramesCmd c s = forEach (l.insts.filter (fun i => i.skein == d.index))
      (fun i s => putTileFrame (physOf s (i.base + k)) (fld a 5 0) ess (patch d i k (fld a 5 0) ws) s) s := by
  subst ha hk
  simp only [skeinFramesCmd, hload, hskein, Nat.not_le.2 hshape, hmid, ne_eq, not_true_eq_false, or_self, if_false]
  refine eachRecord_of_one hcount hrecord ?_
  simp only [Nat.add_zero, Nat.not_le.2 hminor, Nat.not_lt.2 hlogic, if_false]
/-- END of a full image that is complete closes the section of the frames (R293, R505). -/
theorem endCmd_of_full (hsized : unsized (withPairs l.wregs s) = none) (hshapes : shortSkein l = none)
    (hsound : brokenTile s (s.dst.insts.filter (fun i => l.insts.any (fun k => k.base == i.base))) = none) :
    endCmd c s = s.onLoad (fun l => { l with section_ := 4 }) := by
  simp only [endCmd, hload, hfull, hsized, hshapes, hsound, Bool.false_eq_true, if_false]
end

/-! ## Encryption, regions and the signature (R510–R512, R519) -/

/-- What a change makes of the load in progress is all that it does. -/
theorem onLoad_congr {f g : Load → Load} (hsame : f l = g l) : s.onLoad f = s.onLoad g := by
  simp only [State.onLoad, State.onLdr, hload, Option.map_some, hsame]
/-- An authentic KEYWRAP gives the key of the first epoch (R512). -/
theorem keywrapCmd_of_authentic {key : List Byte} (hopen : gcmOpen kek (bytesOfWords ((c.payload.drop 0).take 3)) (bytesOfWords (l.img.take 16))
    (bytesOfWords ((c.payload.drop 3).take 8)) (bytesOfWords ((c.payload.drop 11).take 4)) = some key) :
    keywrapCmd c s = s.onLoad (fun x => { x with key := key, section_ := if l.partial_ then 1 else 2 }) := by
  simp only [keywrapCmd, hload, hopen]
  exact onLoad_congr hload rfl
/-- An authentic epoch in its turn gives its plaintext, in its half of the staging area (R512, R513). -/
theorem epochCmd_of_authentic {e n : Nat} {bs : List Byte} (he : e = (c.payload.headD 0).toNat) (hn : n = (c.payload.getD 4 0).toNat)
    (hnumber : e < 65536) (hsome : 0 < n) (hmost : n ≤ 131072) (hcount : countOf c.word = 9 + n) (hturn : e = l.nextEpoch)
    (hopen : gcmOpen l.key (bytesOfWords ((c.payload.drop 1).take 3)) (bytesOfWords (c.word :: c.payload.take 5))
      (bytesOfWords ((c.payload.drop 5).take n)) (bytesOfWords ((c.payload.drop (5 + n)).take 4)) = some bs) :
    epochCmd c s = (s.putWords (0x1FF00000 + e % 2 * 0x80000) (wordsOfBytes bs)).onLoad
      (fun l => { l with plain := wordsOfBytes bs, plainOff := c.off + 6, nextEpoch := e + 1 }) := by
  have hlegal : ¬(65536 ≤ e ∨ n = 0 ∨ 131072 < n ∨ countOf c.word ≠ 9 + n) := by omega
  simp only [epochCmd, hload, ← he, ← hn, hlegal, ← hturn, hopen, ne_eq, not_true_eq_false, if_false]
/-- A signature under a good slot, which verifies, sets the image's hash (R510, R511). -/
theorem signatureCmd_of_verified {i : Nat}
    (hslot : [0, 1, 2].find? (fun i =>
      slotGood s.sec.fuses i && s.sec.fuses.slots.find i == some (sha256 (bytesOfWords (c.payload.take 96)))) = some i)
    (hverify : pssVerify (bytesOfWords (c.payload.take 96)) (bytesOfWords (c.payload.drop 96)) (sha256 (bytesOfWords (l.img.take c.off))) = true) :
    signatureCmd c s = s.onLoad (fun l' => { l' with
      section_ := 5, hash := sha256 (bytesOfWords (l.img.take c.off)), modHash := sha256 (bytesOfWords (c.payload.take 96)),
      slotUsed := if secState s = 0 then none else some i }) := by
  simp only [signatureCmd, hload, hslot, hverify, Option.isNone_some, Bool.not_true, Bool.false_eq_true, and_false, if_false]
end

/-- REGION declares a region that stands its checks (R519). -/
theorem regionCmd_of_legal {s : State} {c : LCmd}
    (hcount : countOf c.word = 1 + fld (c.payload.headD 0) 31 28 + fld (c.payload.headD 0) 8 0) (hlegal : regionError s c = none) :
    regionCmd c s = (acceptRegion (regionRanges ((c.payload.drop 1).take (fld (c.payload.headD 0) 31 28)))
      ((c.payload.drop (1 + fld (c.payload.headD 0) 31 28)).map (fun w => (fld w 8 0, BitVec.ofNat 2 (fld w 13 12)))) s).onLoad
        (fun l => { l with section_ := 2 }) := by
  simp only [regionCmd, hcount, hlegal, ne_eq, not_true_eq_false, if_false]
/-- Without a migration no load is held back (R178). -/
theorem regionWaits_of_still {s : State} (hstill : s.dst.mig = none) : regionWaits s = false := by
  simp only [regionWaits, hstill]

/-- Settles O46: each command of a full image is ready, and runs on the load past it. -/
theorem imageDirectory : Obligations.ImageDirectory := by
  intro s s1 op c l l' hready h1 hfull
  have hload : s1.ldr.load = some l' := h1 ▸ onLoad_load hready
  have hrun {act : LCmd → State → State} {u : State} (hact : act c s1 = u) : onCmd op act s = scan (epochEnd (inEpoch l) c u) :=
    onCmd_of_ready hready h1 hact
  refine ⟨?wreg, ?skein, ?inst, ?dirEnd, ?framesP, ?framesL, ?skeinFrames, ?endCheck⟩
  case wreg =>
    rintro rfl hgood
    exact congrArg Host.Outcome.next (hrun (wregCmd_of_full hload hfull hgood))
  case skein =>
    rintro d rfl rfl hcount hnew hslots hhigh hlow hdefs
    exact congrArg Host.Outcome.next (hrun (skeinCmd_of_legal hload hcount hnew hslots hhigh hlow hdefs))
  case inst =>
    rintro e t d i rfl hpayload hskein hlength hi hlegal
    exact congrArg Host.Outcome.next (hrun (instCmd_of_one hload hfull hpayload hskein hlength hi hlegal))
  case dirEnd =>
    rintro rfl hgood
    exact ⟨_, congrArg Host.Outcome.next (hrun rfl), dirEndCmd_of_full hload hfull hgood⟩
  case framesP =>
    rintro off n a ess ws rfl ha hkind hhigh hsys hmid hcount hrecord hn hcolumn hlegal
    exact congrArg Host.Outcome.next
      (hrun (framesPCmd_of_one hload hfull ha hkind hhigh hsys hmid hcount hrecord hn hcolumn hlegal))
  case framesL =>
    rintro off t a ess ws rfl ha hkind hhigh hcount hrecord hminor ht htile hinside hmapped
    exact congrArg Host.Outcome.next
      (hrun (framesLCmd_of_one ha hkind hhigh hcount hrecord hminor ht htile hinside hmapped))
  case skeinFrames =>
    rintro off k a ess ws d rfl ha hskein hk hshape hmid hcount hrecord hlogic hminor
    exact congrArg Host.Outcome.next
      (hrun (skeinFramesCmd_of_one hload ha hskein hk hshape hmid hcount hrecord hlogic hminor))
  case endCheck =>
    rintro rfl hsized hshapes hsound
    exact congrArg Host.Outcome.next (hrun (endCmd_of_full hload hfull hsized hshapes hsound))

/-- Settles O47: each command is ready, and its checks hold; REGION besides waits for no migration. -/
theorem imageSecurity : Obligations.ImageSecurity := by
  intro s s1 op c l l' hready h1
  have hload : s1.ldr.load = some l' := h1 ▸ onLoad_load hready
  have hrun {act : LCmd → State → State} {u : State} (hact : act c s1 = u) : onCmd op act s = scan (epochEnd (inEpoch l) c u) :=
    onCmd_of_ready hready h1 hact
  refine ⟨?keywrap, ?epoch, ?nextkey, ?region, ?signature⟩
  case keywrap =>
    rintro key rfl hopen
    exact congrArg Host.Outcome.next (hrun (keywrapCmd_of_authentic hload hopen))
  case epoch =>
    rintro e n bs rfl he hn hnumber hsome hmost hcount hturn hopen
    exact congrArg Host.Outcome.next (hrun (epochCmd_of_authentic hload he hn hnumber hsome hmost hcount hturn hopen))
  case nextkey =>
    rintro rfl
    exact congrArg Host.Outcome.next (hrun rfl)
  case region =>
    rintro rs pins rfl hstill rfl rfl hcount hlegal
    refine congrArg Host.Outcome.next (Eq.trans (if_neg ?_) (hrun (regionCmd_of_legal hcount hlegal)))
    rw [regionWaits_of_still hstill]
    exact Bool.false_ne_true
  case signature =>
    rintro mh i rfl rfl hslot hverify
    exact congrArg Host.Outcome.next (hrun (signatureCmd_of_verified hload hslot hverify))

end Sys2Proof.Machine
end

section
/-! Where an image's words come from, and how a load begins and ends (R487, R506, R516–R526). -/
namespace Sys2Proof.Machine

section
variable {s : State} {l : Load} (hload : s.ldr.load = some l)
include hload

/-- The words of the flash past the header are data of the part's own load (R506). -/
theorem flashRead_of_data (hmode : s.ldr.mode = 0) (hfull : l.partial_ = false) (hown : l.port = none) (hphase : s.ldr.flash = 4)
    (ws : List Word) (dqs : Bool) : flashRead ws dqs s = flashData ws s := by
  simp [flashRead, hload, hmode, hfull, hown, hphase]

section
variable {p : Fin 4} (hport : l.port = some p) (hmore : moreWords l = true) (v : Word)
include hport hmore

/-- Whether a word of the loading port waits: while placement runs (R517). -/
theorem streamWaits_of_loading : streamWaits s p = (l.section_ == 3 && !l.placed) := by
  simp only [streamWaits, hload, Option.any_some, hport, hmore, beq_self_eq_true, Bool.true_and]
/-- A word of the loading port is taken unless placement runs (R517). -/
theorem streamWrite_of_taken (htakes : l.section_ ≠ 3 ∨ l.placed = true) : streamWrite p v s = (takeWord v s).stat stOk := by
  have hwaits : streamWaits s p = false := by
    rw [streamWaits_of_loading hload hport hmore]
    rcases htakes with hsection | hplaced
    · rw [beq_false_of_ne hsection]; rfl
    · rw [hplaced]; exact Bool.and_false _
  simp only [streamWrite, hload, hport, hmore, hwaits, ne_eq, not_true_eq_false, Bool.not_true, Bool.false_eq_true, if_false]
/-- A word of the loading port waits while placement runs (R517). -/
theorem streamWrite_of_placing (hsection : l.section_ = 3) (hplaced : l.placed = false) : streamWrite p v s = holdWord p v s := by
  have hwaits : streamWaits s p = true := by
    rw [streamWaits_of_loading hload hport hmore, hsection, hplaced]
    rfl
  simp only [streamWrite, hload, hport, hmore, hwaits, ne_eq, not_true_eq_false, Bool.not_true, Bool.false_eq_true, if_true, if_false]
end

/-- A silent chain ends the part's own load; nothing is left to forward (R525, R526). -/
theorem chainTimeout_of_own (hmode : s.ldr.mode = 1) (hfull : l.partial_ = false) (hown : l.port = none) (hmore : moreWords l = true)
    (hnone : (endLoad 0x15 s).ldr.fwd = none) : chainTimeout s = endLoad 0x15 s := by
  simp only [chainTimeout, hmode, hload, hfull, hown, hmore, hnone, ne_eq, not_true_eq_false, Bool.not_false, Option.isNone_none, Bool.and_self,
    if_true, if_false]
/-- The owner's ABORT ends any load (R518). -/
theorem abortLoad_of_owner : abortLoad 0 s = (endLoad 0x16 s).stat stOk := by
  simp only [abortLoad, hload]
  exact checked_of_ok (firstBad_cons_of_ok (allow_of_true rfl) rfl) _ s
end

/-- A chain target that waits for nothing is fed (R524). -/
theorem chainWord_of_fed {s : State} (hmode : s.ldr.mode = 1) (hbusy : chainWaits s = false) (v : Word) : chainWord v s = feed v s := by
  simp only [chainWord, hmode, hbusy, ne_eq, not_true_eq_false, Bool.false_eq_true, if_false]
/-- CLEAR_REGION of a port that may, on a torn region, while no load runs (R522). -/
theorem clearRegion_of_torn {s : State} {r : RegionSt} {p : Fin 4} (hregion : s.ldr.region = some r) (hmay : p = 0 ∨ p = r.port)
    (htorn : r.torn = true) (hidle : loadRuns s = false) : clearRegion p s = (clearTorn r s).stat stOk := by
  simp only [clearRegion, hregion]
  exact checked_of_ok (firstBad_cons_of_ok (allow_of_true (by simpa using hmay))
    (firstBad_cons_of_ok (within_of_true htorn) (firstBad_cons_of_ok (busyIf_of_false hidle) rfl))) _ s

/-- Settles O48: each source of words, and each start and end of a load. -/
theorem loadControl : Obligations.LoadControl := by
  intro s
  refine ⟨?flash, ?stream, ?chain, ?sync, ?silent, ?startFull, ?startPartial, ?ended, ?cleared⟩
  case flash =>
    exact fun ws dqs l hmode hload hfull hown hphase => congrArg Host.Outcome.next (flashRead_of_data hload hmode hfull hown hphase ws dqs)
  case stream =>
    exact fun p v l hload hport hmore =>
      ⟨fun htakes => congrArg Host.Outcome.next (streamWrite_of_taken hload hport hmore v htakes),
        fun hsection hplaced => congrArg Host.Outcome.next (streamWrite_of_placing hload hport hmore v hsection hplaced)⟩
  case chain => exact fun v hmode hbusy => congrArg Host.Outcome.next (chainWord_of_fed hmode hbusy v)
  case sync => exact fun hwaits => congrArg Host.Outcome.next (if_pos hwaits)
  case silent =>
    exact fun l hmode hload hfull hown hmore hnone =>
      congrArg Host.Outcome.next (chainTimeout_of_own hload hmode hfull hown hmore hnone)
  case startFull =>
    intro hfailed
    have hstate : supported (s.ldr.state == 5 || s.ldr.state == 6) = stOk := supported_of_true (by simp [hfailed])
    exact congrArg Host.Outcome.next
      (checked_of_ok (firstBad_cons_of_ok (allow_of_true rfl) (firstBad_cons_of_ok hstate rfl)) _ s)
  case startPartial =>
    intro p hidle hrun
    have hfree : busyIf (loadRuns s || s.ldr.state != 4) = stOk := busyIf_of_false (by simp [hidle, hrun])
    exact congrArg Host.Outcome.next (checked_of_ok (firstBad_cons_of_ok hfree rfl) _ s)
  case ended => exact fun l hload => ⟨congrArg Host.Outcome.next (abortLoad_of_owner hload), rfl⟩
  case cleared => exact fun r p hregion hmay htorn hidle => congrArg Host.Outcome.next (clearRegion_of_torn hregion hmay htorn hidle)

end Sys2Proof.Machine
end

section
/-! The scrubber and the tile tester (R536–R548). -/
namespace Sys2Proof.Machine

/-- A running scrubber reads the next frame of its pass; the pass goes on while frames are left (R536). -/
theorem scrubRead_of_running {s s1 s2 : State} (hruns : s.scrub.state = 1) (hpass : s.scrub.verifying = false)
    (hlive : frameFrozen s (passFrame s.scrub.pos) = false) (h1 : s1 = serveFailing (scrubFrame (passFrame s.scrub.pos) s))
    (h2 : s2 = s1.onScrub (fun x => { x with pos := x.pos + 1 })) (hleft : s2.scrub.pos < passFrames) : scrubRead s = s2 := by
  have hgoes : ¬(passFrames ≤ s2.scrub.pos ∧ s2.scrub.state = 1) := fun h => absurd h.1 (Nat.not_le.2 hleft)
  subst h1
  simp only [scrubRead, hruns, hpass, hlive, ← h2, hgoes, ne_eq, not_true_eq_false, Bool.false_eq_true, if_false]
/-- A due test takes the next free tile of the rotation (R547). -/
theorem tileTestStart_of_due {s : State} {t : Nat} (hon : bitOf (s.reg .scrubCfg 0) 31 = true) (hidle : testerIdle s = true)
    (hgap : gapOver s = true) (hnext : nextFreeTile s = some t) :
    tileTestStart s = beginTest t false false (s.onDst (fun d => { d with testPos := t + 1 })) := by
  simp only [tileTestStart, hon, hidle, hgap, hnext, Bool.and_self, if_true]

section
variable {s : State} {t : TileTestSt} (htest : s.dst.test = some t) (hruns : s.scrub.state ≠ 2)
include htest hruns

/-- The end of a background test that passes clears its tile and counts the test (R546). -/
theorem testEnd_of_pass (hdue : t.requested = false) :
    testEnd 0 s = countTest false (testGap (clearTile t.tile (s.onDst (fun d => { d with test := none })))) := by
  have hgoes : ¬(s.scrub.state = 2 ∨ 8 < 0) := fun h => h.elim hruns (Nat.not_lt_zero 8)
  simp only [testEnd, htest, hgoes, hdue, ne_eq, not_true_eq_false, decide_false, Bool.false_eq_true, if_false]
/-- The end of a test that fails clears its tile too (log 47), counts the failure and marks the tile; a requested one is reported
(R546, R552). -/
theorem testEnd_of_fail {unit : Nat} (hsome : 0 < unit) (hunit : unit ≤ 8) {s1 : State}
    (h1 : s1 = failTile t.tile 1 (countTest true (testGap (clearTile t.tile (s.onDst (fun d => { d with test := none })))))) :
    testEnd unit s = if t.requested then bistReport t.tile stFault unit s1 else s1 := by
  have hgoes : ¬(s.scrub.state = 2 ∨ 8 < unit) := fun h => h.elim hruns (Nat.not_lt.2 hunit)
  rw [h1]
  simp only [testEnd, htest, hgoes, hsome.ne', ne_eq, not_false_eq_true, decide_true, if_true, if_false]
end

/-- TILE_TEST of the owner takes the free tile that it names (R547, R548). -/
theorem tileTest_of_free {s : State} {v : Word} (hsound : s.sec.fuses.retired.contains (fld v 11 0) = false) (hidle : testerIdle s = true)
    (hlisted : s.dst.retRt.any (fun e => e.tile == fld v 11 0) = false) (hfree : freeTile s (fld v 11 0) = true) :
    tileTest 0 v s = (beginTest (fld v 11 0) true false s).stat stOk := by
  simp only [tileTest, hsound, hidle, hlisted, hfree, ne_eq, not_true_eq_false, Bool.not_true, Bool.false_eq_true, if_true, if_false]

/-- Settles O50: a read, the vote, and the starts and ends of tests. -/
theorem scrubAndTest : Obligations.ScrubAndTest := by
  intro s
  refine ⟨?read, ?vote, ?start, ?passed, ?failed, ?request⟩
  case read =>
    exact fun s1 s2 hruns hpass hlive h1 h2 hleft => congrArg Host.Outcome.next (scrubRead_of_running hruns hpass hlive h1 h2 hleft)
  case vote => exact fun hruns => congrArg Host.Outcome.next (if_neg hruns)
  case start => exact fun t hon hidle hgap hnext => congrArg Host.Outcome.next (tileTestStart_of_due hon hidle hgap hnext)
  case passed => exact fun t htest hdue hruns => congrArg Host.Outcome.next (testEnd_of_pass htest hruns hdue)
  case failed =>
    exact fun t u s1 htest hsome hunit hruns h1 => congrArg Host.Outcome.next (testEnd_of_fail htest hruns hsome hunit h1)
  case request =>
    rintro v t hreleased rfl hsound hidle hlisted hfree
    exact congrArg Host.Outcome.next (served_of_released hreleased (tileTest_of_free hsound hidle hlisted hfree))

end Sys2Proof.Machine
end

section
/-! Power states, the governor and the power registers (R579–R591, R598–R601). -/
namespace Sys2Proof.Machine

/-! ## Entry and wake (R579–R586) -/

section
variable {s : State} (hstate : s.pwr.state = 0)
include hstate

/-- The owner's DOZE in Run begins the entry (R580). -/
theorem doze_of_run : doze 0 s = (startEntry false s).stat stOk := by
  simp only [doze, hstate, ne_eq, not_true_eq_false, if_false]
  rfl
/-- The owner's PARK in Run begins the entry (R581). -/
theorem park_of_run : park 0 s = (startEntry true s).stat stOk := by
  simp only [park, hstate, ne_eq, not_true_eq_false, if_false]
  rfl
/-- A reading at the limit that power control accepts parks a running part (R590). -/
theorem thermTrip_of_run {s1 : State} {r : Nat} {t : Byte} (hhot : fld (s.reg .pwrTherm 0) 7 0 ≤ t.toNat) (h1 : s1 = sensorReads r t s)
    (haccepted : fld (s.reg .pwrTherm 0) 7 0 ≤ (sensors s1).getD r 0) : thermTrip r t s =
      startEntry true (notifyOwner 0x45 0 [w32 r, w32 t.toNat] (s1.onPwr (fun x => { x with thermal := true }))) := by
  have hlimit : (sensorReads r t s).reg .pwrTherm 0 = s.reg .pwrTherm 0 := rfl
  have hrun : (sensorReads r t s).pwr.state = 0 := hstate
  subst h1
  simp only [thermTrip, Nat.not_lt.2 hhot, Nat.not_lt.2 haccepted, hlimit, hrun, or_self, if_false]
  rfl
end

section
variable {s : State} (hstate : s.pwr.state = 2)
include hstate

/-- The owner's PARK in Doze, where no PARK waits (R581). -/
theorem park_of_doze (hnone : s.pwr.entering = none) : park 0 s = (parkFromDoze s).stat stOk := by
  simp only [park, hstate, hnone, ne_eq, not_true_eq_false, Option.isSome_none, Bool.false_eq_true, if_false]
  rfl
/-- A PARK that waits in Doze is tried again (R581; log 92). -/
theorem powerProceed_of_doze (hpark : s.pwr.entering = some true) : powerProceed s = parkFromDoze s := by
  simp only [powerProceed, hstate, hpark]
  rfl
end

/-- An entry proceeds when nothing holds it (R580, R581). -/
theorem powerProceed_of_entering {s : State} {toPark : Bool} (hstate : s.pwr.state = 4) (hentering : s.pwr.entering = some toPark)
    (hfree : entryFree s = true) : powerProceed s =
      powerDown toPark (drainMem (if toPark then endRuns (sleepPins (stopSenses (pauseLanes s)))
        else pauseRuns (sleepPins (stopSenses (pauseLanes s))))) := by
  simp only [powerProceed, hstate, hentering, hfree, if_true]
  rfl
/-- The timer wakes a part that sleeps or goes to sleep (R583). -/
theorem wakeTimer_of_set {s : State} (hset : timerSet s = true) (hasleep : s.pwr.state = 2 ∨ s.pwr.state = 3 ∨ s.pwr.state = 4) :
    wakeTimer s = wakeBy 3 0 (advanceTo (wakeTick s (s.reg .pwrWakeAtHi 0)) s) := by
  have hdue : (timerSet s && (s.pwr.state == 2 || s.pwr.state == 3 || s.pwr.state == 4)) = true := by
    rw [hset]
    simpa [or_assoc] using hasleep
  exact if_pos hdue
/-- The end of a thermal Park wakes (R590). -/
theorem thermalRelease_of_park {s : State} (hthermal : s.pwr.thermal = true) (hstate : s.pwr.state = 3) :
    thermalRelease s = wakeBy 4 0 s := by
  refine if_pos ?_
  rw [hthermal, hstate]
  rfl
/-- A wake that completes takes steps 1 to 4 of R584 in turn: reel memory, tiles, what stood still, and its notice. -/
theorem wakeDone_of_waking {s s1 s2 s3 s4 : State} (hstate : s.pwr.state = 5)
    (h1 : s1 = writeEarly ((s.onMem (fun m => { m with
      vret := false, ret := [], waking := [],
      lastUse := (List.range 16).foldl (fun l g => l.set 0 g s.now) m.lastUse })).onPwr
        (fun x => { x with state := 0, entering := none, heldReset := [], calmRun := 0 })))
    (h2 : s2 = (if s.pwr.entering = some true then startTiles (fun t => !tileFrozen s1 t) s1
      else forEach (physTiles s1 (fun _ => true)) settleRunning (forEach s.pwr.heldReset heldAct s1)))
    (h3 : s3 = wakeLanes { resumeRuns (flushHeld (wakeSenses (wakePins s2))) with
      xng := { (resumeRuns (flushHeld (wakeSenses (wakePins s2)))).xng with stopped := [] } })
    (h4 : s4 = notifyOwner 0x41 0 [w32 (fld (s.reg .pwrWakeSrc 0) 31 28), w32 ((s.now - s.pwr.wakeAt).toNat / 12800)]
      (if s.pwr.entering = some true ∧ s3.fab.released = true then forEach [1, 2, 3] portDetect s3 else s3)) :
    wakeDone s = if s4.pwr.thermal then startEntry true s4 else s4 := by
  simp only [wakeDone, hstate, ne_eq, not_true_eq_false, if_false, decide_eq_true_eq, Bool.and_eq_true, ← h1, ← h2, ← h3, ← h4]

/-- Settles O55: entries, wakes, trips, and what a wake's end brings back. -/
theorem powerStates : Obligations.PowerStates := by
  intro s
  refine ⟨?commands, rfl, ?toDoze, ?toPark, ?parkInDoze, ?parkLater, ?timer, ?thermal, ?trip, ?woken⟩
  case commands => exact fun hstate => ⟨congrArg Host.Outcome.next (doze_of_run hstate), congrArg Host.Outcome.next (park_of_run hstate)⟩
  case toDoze => exact fun hstate hentering hfree => congrArg Host.Outcome.next (powerProceed_of_entering hstate hentering hfree)
  case toPark => exact fun hstate hentering hfree => congrArg Host.Outcome.next (powerProceed_of_entering hstate hentering hfree)
  case parkInDoze =>
    intro hstate hnone
    have hpark := park_of_doze hstate hnone
    exact ⟨fun hfree => congrArg Host.Outcome.next (hpark.trans (congrArg (State.stat · stOk) (if_pos hfree))),
      fun hheld => congrArg Host.Outcome.next (hpark.trans (congrArg (State.stat · stOk) (if_neg (Bool.eq_false_iff.1 hheld))))⟩
  case parkLater =>
    exact fun hstate hpark hfree => congrArg Host.Outcome.next ((powerProceed_of_doze hstate hpark).trans (if_pos hfree))
  case timer => exact fun hset hasleep => congrArg Host.Outcome.next (wakeTimer_of_set hset hasleep)
  case thermal => exact fun hthermal hstate => congrArg Host.Outcome.next (thermalRelease_of_park hthermal hstate)
  case trip => exact fun r t s1 hhot hstate h1 haccepted => congrArg Host.Outcome.next (thermTrip_of_run hstate hhot h1 haccepted)
  case woken => exact fun s1 s2 s3 s4 hstate h1 h2 h3 h4 => congrArg Host.Outcome.next (wakeDone_of_waking hstate h1 h2 h3 h4)

/-! ## The governor (R587–R591) -/

section
variable {s : State} (hconfigured : s.ldr.cfgDone = true) (hstate : s.pwr.state = 0)
include hconfigured hstate

/-- In Run, once configured, the governor judges the period, writes, and reads unless the period's read has been taken (R588). -/
theorem governor_of_run {cong : Nat} {r : PmbResult} {s2 s3 s4 : State} {up calm : Bool} {t : Nat}
    (hup : up = decide (0 < s.pwr.missed ∨ fld (s.reg .pwrGov 0) 31 26 ≤ s.pwr.lag ∨ fld (s.reg .pwrGov 0) 19 13 ≤ cong))
    (hcalm : calm = decide (s.pwr.missed = 0 ∧ s.pwr.lag ≤ fld (s.reg .pwrGov 0) 25 20 ∧ cong ≤ fld (s.reg .pwrGov 0) 12 6))
    (ht : t = min (ceilMv s) (max (floorMv s) (govJudge s up calm).1))
    (h2 : s2 = govWrite t r.writeAck
      (shortfall (up && decide (t ≤ s.pwr.vcore)) (s.onPwr (fun x => { x with calmRun := (govJudge s up calm).2 }))))
    (h3 : s3 = s2.onPwr (fun x =>
      { x with period := (s2.pwr.period + 1) % 16, statusDue := x.statusDue || (s2.pwr.period + 1) % 16 == 0 }))
    (h4 : s4 = if s3.pwr.readUsed then s3 else govRead r s3) : governor cong r s = newPeriod s4 := by
  simp only [governor, hconfigured, hstate, beq_self_eq_true, Bool.true_or, Bool.not_true, Bool.or_self, Bool.false_eq_true, if_false,
    ← hup, ← hcalm, ← ht, ← h2, ← h3, ← h4]
/-- In Run an alert has STATUS_WORD read, where the period's read has not been taken (R587, R588). -/
theorem pmbAlert_of_run (hunread : s.pwr.readUsed = false) (ack : Bool) (w : BitVec 16) : pmbAlert ack w s =
    govRead { writeAck := true, readAck := ack, word := w } (s.onPwr (fun x => { x with statusDue := true })) := by
  simp only [pmbAlert, hconfigured, hstate, hunread, beq_self_eq_true, Bool.true_or, Bool.not_true, Bool.not_false, Bool.and_self,
    Bool.false_eq_true, if_true, if_false]
end

/-- New readings of the sensors, and a bus without transactions, leave what the governor judges besides them as it was. -/
theorem periodBegun_same {s s1 : State} {temps : List Byte}
    (h1 : s1 = ({ s with dst := { s.dst with temps := temps } } : State).onPwr (fun x => { x with bus := [] })) :
    s1.ldr = s.ldr ∧ s1.pwr.state = s.pwr.state ∧ s1.pwr.missed = s.pwr.missed ∧ s1.pwr.lag = s.pwr.lag ∧ s1.pwr.vcore = s.pwr.vcore ∧
      s1.reg .pwrGov 0 = s.reg .pwrGov 0 ∧ ceilMv s1 = ceilMv s ∧ floorMv s1 = floorMv s := by
  subst h1
  exact ⟨rfl, rfl, rfl, rfl, rfl, rfl, rfl, rfl⟩

/-- Legal limits of PWR_VLIM are those in force (R589). -/
theorem limitMv_of_legal {s : State} (hlegal : vlimOk (s.reg .pwrVlim 0) = true) (hi lo dflt : Nat) :
    limitMv s hi lo dflt = fld (s.reg .pwrVlim 0) hi lo := if_pos hlegal
/-- Without legal limits the whole range of VCORE is in force (R103; log 70). -/
theorem limitMv_of_unset {s : State} (hlegal : vlimOk (s.reg .pwrVlim 0) = false) (hi lo dflt : Nat) : limitMv s hi lo dflt = dflt :=
  if_neg (Bool.eq_false_iff.1 hlegal)

/-- Settles O56: the period, the limits in force, the alert, and the writes of the power registers. -/
theorem governorAndLimits : Obligations.GovernorAndLimits := by
  intro s
  refine ⟨?period, ?limits, ?unset, ?alert, ?vlim, ?therm, fun v => rfl, fun v => rfl⟩
  case period =>
    intro hconfigured hstate temps k r s1 s2 s3 s4 up calm t h1 hup hcalm ht h2 h3 h4
    obtain ⟨hldr, hcur, hmissed, hlag, hvcore, hgov, hceil, hfloor⟩ := periodBegun_same h1
    rw [← hmissed, ← hlag, ← hgov] at hup hcalm
    rw [← hceil, ← hfloor] at ht
    rw [← hvcore] at h2
    have hact : governor k r s1 = newPeriod s4 :=
      governor_of_run (hldr ▸ hconfigured) (hcur ▸ hstate) hup hcalm ht h2 h3 h4
    rw [h1] at hact
    exact congrArg (fun u => Host.Outcome.next (tripHot u)) hact
  case limits =>
    rintro v rfl hlegal
    exact ⟨limitMv_of_legal hlegal .., limitMv_of_legal hlegal ..⟩
  case unset => exact fun hlegal => ⟨limitMv_of_unset hlegal .., limitMv_of_unset hlegal ..⟩
  case alert =>
    exact fun ack w hconfigured hstate hunread => congrArg Host.Outcome.next (pmbAlert_of_run hconfigured hstate hunread ack w)
  case vlim => exact fun v hok => congrArg Host.Outcome.next (checked_of_ok (firstBad_cons_of_ok hok rfl) _ s)
  case therm => exact fun v hok => congrArg Host.Outcome.next (checked_of_ok (firstBad_cons_of_ok hok rfl) _ s)

end Sys2Proof.Machine
end

section
/-! Resets of the part (R577, R578, R592–R596). -/
namespace Sys2Proof.Machine

/-! ## A fuse program that a reset cuts short (R555) -/

/-- A program of SEC_CMD that takes effect leaves Distaff and reel memory's tables as they are. -/
theorem fuseForce_frame {f : FuseOp} (hcmd : (fuseCode f).isSome = true) (n : Nat) (s : State) :
    (fuseForce f n s).dst = s.dst ∧ (fuseForce f n s).memory = s.memory := by
  match f, hcmd with
  | .own _ _, _ | .slot _ _ _, _ | .revoke _ _, _ | .rollback _ _, _ => exact ⟨rfl, rfl⟩
  | .seal _, _ =>
    obtain ⟨m, hm⟩ := sealProbes_eq (s.onFuses (fun x => { x with sealed_ := true }))
    rw [fuseForce, hm]
    exact ⟨rfl, rfl⟩
  | .retire _ _, hretire => exact absurd hretire Bool.false_ne_true
/-- So does a program that is cut short; a retirement is never brought into force then (R549). -/
theorem fuseCut_frame (f : FuseOp) (s : State) : (fuseCut f s).dst = s.dst ∧ (fuseCut f s).memory = s.memory := by
  unfold fuseCut
  extract_lets n yes slotOnly u v
  split
  · split
    · exact ⟨rfl, rfl⟩
    · split <;> exact fuseForce_frame rfl n v
  · split
    case isTrue hyes => exact fuseForce_frame (Bool.and_eq_true_iff.1 hyes).1 n v
    case isFalse => exact ⟨rfl, rfl⟩

/-! ## The wide resets (R593–R595) -/

/-- Every register but SYS_RESET_CAUSE stands at its reset value after a wide reset (R593). -/
theorem wideReset_regP {r : Reg} {i j p : Nat} (hother : regKey r i j p ≠ regKey .sysResetCause 0 0 0) (power : Bool) (cause : Nat) (s : State) :
    (wideReset power cause s).regP p r i j = r.reset :=
  regP_setRegP_other hother _ _
/-- SYS_RESET_CAUSE holds the cause (R593, R599). -/
theorem wideReset_cause (power : Bool) (cause : Nat) (s : State) : (wideReset power cause s).reg .sysResetCause 0 = w32 cause :=
  reg_setReg ..
/-- A full reset adds the failing tiles to the runtime retirements and keeps reel memory's repairs, whatever fuse program it cuts (R595). -/
theorem wideReset_full_keeps (cause : Nat) (s : State) : (wideReset false cause s).dst.retRt = (s.dst.retRt ++ s.dst.failing).take 256 ∧
    (wideReset false cause s).memory.spares = s.memory.spares := by
  unfold wideReset
  split
  case h_1 f _ =>
    obtain ⟨hdst, hmemory⟩ := fuseCut_frame f s
    rw [← hdst, ← hmemory]
    exact ⟨rfl, rfl⟩
  case h_2 => exact ⟨rfl, rfl⟩
/-- With the key SYS_RESET acts as its bits say (R594, R595, R599). -/
theorem sysReset_of_key {v : Word} (hkey : fld v 31 16 = 0xA5C3) (mode : BitVec 2) (pd : Byte) (s : State) : sysReset 0 v mode pd s =
    (if bitOf v 1 then startUp mode pd (wideReset false 3 s) else if bitOf v 0 then orHold 0 (fabricCmd 0) s else s).stat stOk :=
  checked_of_ok (firstBad_cons_of_ok (allow_of_true rfl) (firstBad_cons_of_ok (within_of_true (decide_eq_true hkey)) rfl)) _ s
/-- While the logical core is powered no reset is held for a wake (R586). -/
theorem orHold_of_live {s : State} (hlive : coreLive s = true) (k : Nat) (act : State → State) : orHold k act s = act s := by
  have hstate : s.pwr.state = 0 ∨ s.pwr.state = 1 ∨ s.pwr.state = 4 := by simpa [coreLive, or_assoc] using hlive
  rcases hstate with h | h | h <;> simp [orHold, h]

/-- Settles O6: each reset, and what its end starts. -/
theorem resets : Obligations.Resets := by
  intro s
  refine ⟨?power, ?full, ?sysFull, ?sysFabric, ?porst, ?rst, ?vcore⟩
  case power =>
    have hwide (cause : Nat) {t : State} (ht : t = wideReset true cause s) : t.reg .sysResetCause 0 = w32 cause ∧
        (∀ p r i j, regKey r i j p ≠ regKey .sysResetCause 0 0 0 → t.regP p r i j = r.reset) ∧ t.mem = [] ∧
        t.fab = FabSt.init ∧ t.ply = PlySt.init ∧ t.lanes = [] ∧ t.host = HostSt.init ∧ t.spl = SplSt.init ∧ t.time = TimeSt.init ∧
        t.dst = DstSt.init ∧ t.pwr.reset = 2 := by
      subst ht
      exact ⟨wideReset_cause .., fun p r i j hother => wideReset_regP hother .., rfl, rfl, rfl, rfl, rfl, rfl, rfl, rfl, rfl⟩
    intro c cause hc
    simp only [List.mem_cons, List.not_mem_nil, or_false, Prod.mk.injEq] at hc
    obtain ⟨rfl, rfl⟩ | ⟨rfl, rfl⟩ | ⟨rfl, rfl⟩ := hc
    · exact ⟨_, rfl, rfl, hwide 1 rfl⟩
    · exact ⟨_, rfl, rfl, hwide 4 rfl⟩
    · exact ⟨_, rfl, rfl, hwide 4 rfl⟩
  case full =>
    intro hstands
    obtain ⟨hretired, hspares⟩ := wideReset_full_keeps 2 s
    exact ⟨_, congrArg Host.Outcome.next (if_neg hstands), rfl, rfl, rfl, rfl, rfl, hretired, hspares, rfl⟩
  case sysFull =>
    intro v mode pd hkey hfull
    exact congrArg Host.Outcome.next ((sysReset_of_key hkey mode pd s).trans (congrArg (State.stat · stOk) (if_pos hfull)))
  case sysFabric =>
    intro v hkey hfull hfabric hlive
    have hfree : coreLive s.nextFree = true := hlive
    refine congrArg Host.Outcome.next ((sysReset_of_key hkey _ _ s.nextFree).trans (congrArg (State.stat · stOk) ?_))
    rw [hfull, hfabric]
    exact orHold_of_live hfree 0 _
  case porst => exact fun mode pd hstands => congrArg Host.Outcome.next (if_pos (Or.inl hstands))
  case rst => exact fun mode pd hstands => congrArg Host.Outcome.next (if_pos hstands)
  case vcore => exact fun hrun => congrArg Host.Outcome.next (if_pos (Or.inl hrun))

end Sys2Proof.Machine
end
